-- ==== Sys2Proof/Word.lean ====
section
/-!
DEFINITION. The word types of the W4096 model and their plainest arithmetic.

Registers carry a payload of 48 bits under the Crier word (R12); memories are bytes; descriptors are 64-bit words.
-/
namespace Sys2Proof

/-- One byte of a memory, a frame or a record. -/
abbrev Byte := BitVec 8

/-- The payload of a register: bits [47:0] of its 64-bit read (R12). -/
abbrev Payload := BitVec 48

/-- A 64-bit word of a descriptor, a completion or an event. -/
abbrev Qword := BitVec 64

/-- A data register of a Steward core: 24 bits (R341). -/
abbrev W24 := BitVec 24

/-- A sparse store: (key, value) pairs in rising key order, listing only what differs from the default. -/
abbrev Store (α : Type) := List (Nat × α)

/-- A number of bytes, a count or an index that wraps modulo 2^n. -/
def wrap (n x : Nat) : Nat := x % 2 ^ n

end Sys2Proof
end

