-- ==== Sys2Proof/Syntax.lean ====
section
/-!
DEFINITION. The commands of the W4096: one constructor per row of spec/opcode_table.json, in the table's order.

A command is one whole step of the device or of something outside it. Its operands are what the step brings from outside:
the bytes that arrive, the stamp of an edge, the value written, the outcome of a physical process the spec leaves to nature
(an upset, a failed read, a measured voltage).
-/
namespace Sys2Proof

/-- Who accesses a register: the host, the Reeve or the Fraul monitor (R408). -/
inductive Master where
  | host | reeve | monitor
  deriving DecidableEq, Repr

/-- A host access to BAR0 or BAR4 by its size in bytes, offset and direction (R285). -/
structure BarAccess where
  bar4 : Bool
  write : Bool
  offset : Nat
  size : Nat
  toReeve : Bool
  deriving DecidableEq, Repr

/-- A target port of the fabric (R24). -/
inductive FabTarget where
  | hbm (n : Fin 64) | staging (bank : Fin 4) | sysSram | stwMem (core : Fin 8) | regSpace | hostOut | egressIn
  deriving DecidableEq, Repr

/-- A master class of the fabric, in the order of Table 01-3. -/
inductive MasterClass where
  | harvest | captureWriter | ingress | reeve | stewards | dma | hostIn | captureReader
  deriving DecidableEq, Repr

/-- A burst a master raises (R24, R34): its class, which of the class's sources raised it (the quadrant of a slice, the Steward core, the
DMA channel), direction, address at the target, length in bytes, and the bytes of a write accepted at the master interface so far.
The address at an HBM port is PC-local, plus 2^31 at the port's second pseudo-channel; at the register space it is the offset in BAR0,
or 2^28 plus the offset in BAR4. -/
structure FabRequest where
  cls : MasterClass
  chan : Fin 32
  write : Bool
  addr : Nat
  len : Nat
  data : List Byte
  deriving DecidableEq, Repr

/-- What arrives at the master interfaces: a burst, or further data of the write of a class and source that has not all of its data
yet (R35). -/
inductive FabArrival where
  | request (r : FabRequest)
  | data (cls : MasterClass) (chan : Fin 32) (bytes : List Byte)
  deriving DecidableEq, Repr

/-- An access of the Reeve in its own address space (R37, R366): a read of so many bytes, or a write of these, and which 2 GiB window
of the DMA address map its firmware has chosen for the aperture. -/
structure ReeveAccess where
  addr : Nat
  len : Nat
  window : Nat
  write : Option (List Byte)
  deriving DecidableEq, Repr

/-- A clock the clock monitor checks (R23). -/
inductive MonitoredClock where
  | mclk | fclk | cclk | tclk | dlRefclk (g : Fin 8) | peRefclk
  deriving DecidableEq, Repr

/-- An SRAM error found on an access (R328): corrected, or uncorrectable in the memory of Table 13-4 named. -/
inductive SramError where
  | corrected (word : Nat)
  | uncorrectable
  deriving DecidableEq, Repr

/-- An SRAM error found as a region rotates (R328, Table 13-4): corrected in an SRAM word, or uncorrectable in the buffers' samples or
flags of a batch, in an entry of the partition's input map, or in a threshold set. -/
inductive RotateError where
  | corrected (word : Nat)
  | batch (ord : Nat)
  | mapEntry (index : Fin 4096)
  | thrSet (index : Fin 256)
  deriving DecidableEq, Repr

/-- A raw stamp of the TDC (R224): coarse count of MCLK, wraps of the count, interpolator code. -/
structure RawStamp where
  coarse : BitVec 40
  wraps : BitVec 8
  code : BitVec 8
  deriving DecidableEq, Repr

/-- A stamp at the PCS boundary (R234): the port clock cycle of the block that carries the start-of-frame delimiter, the delimiter's bit in
that 66b block, and the cycles by which the block's place in its FEC codeword moves it. -/
structure PcsStamp where
  cycle : Nat
  sfd : Fin 66
  codeword : Int
  deriving DecidableEq, Repr

/-- The sources of TDC edges that no other command brings (Table 09-8): the references, the crystal, and channel 15 as the PCS clock of
the PTP port, with the number of its cycle, or as a general input. -/
inductive TdcSource where
  | refA | refB | crystal | pcs (cycle : Nat) | general
  deriving DecidableEq, Repr

/-- An edge of one of these sources, before the prescaler (R223). -/
structure TdcArrival where
  source : TdcSource
  stamp : RawStamp
  deriving DecidableEq, Repr

/-- An Ethernet frame as the port hands it up, FCS included, with what the PCS saw of it (R270, R278, R22, R328). -/
structure EthRx where
  frame : List Byte
  fifoFull : Bool
  parityError : Bool
  fecCorr : Nat
  fecUncorr : Nat
  stamp : PcsStamp
  deriving DecidableEq, Repr

/-- A PTP message interval that expires (R232). -/
inductive PtpInterval where
  | sync | announce | delayReq
  deriving DecidableEq, Repr

/-- What went wrong in a tile while it computed the piece it drains (R318, R320). -/
inductive PieceFault where
  | none | residue | signature
  deriving DecidableEq, Repr

/-- Which results of a re-run agree (R322, Table 13-2). -/
inductive RerunAgreement where
  | all | aWrong | sWrong | rWrong | none
  deriving DecidableEq, Repr

/-- What befell a burst at an HBM pseudo-channel (R200): which of its 36 symbols, 32 data bytes and 4 check bytes, are in error, or a
command/address parity error and whether the retry failed too. -/
inductive HbmError where
  | symbols (bad : List (Fin 36))
  | caParity (retryFailed : Bool)
  deriving DecidableEq, Repr

/-- The structure an HBM burst belongs to, in the row order of Table 08-3. Which Granary records, delay entries and ring entries the
burst covers follows from its address; of the others the part it covers stands beside it. -/
inductive HbmTarget where
  | granary (p : Fin 8) (chan : Fin 16384)
  | channelState (p : Fin 8) (chan : Fin 16384)
  | cribSamples (c : Fin 4) (granule : Nat)
  | cribFlags (c : Fin 4) (granules : List Nat)
  | lookahead (p : Fin 8) (index : Nat)
  | delayEntry
  | chainState (key : Nat)
  | ring (k : Fin 6)
  | master (cls : MasterClass)
  | unused
  deriving DecidableEq, Repr

/-- A burst at a pseudo-channel. -/
structure HbmBurst where
  pc : Fin 128
  addr : Nat
  write : Bool
  err : HbmError
  target : HbmTarget
  deriving DecidableEq, Repr

/-- A reference input of the PLL (R219). -/
inductive RefInput where
  | a | b
  deriving DecidableEq, Repr

/-- What a 1 s gate of the reference monitor measured (R219): the offset of each reference from the crystal in units of 2^-8 ppb,
none where a reference gave no edges; and the edges that the TDC's channels 3, 4, 5 and 15 took in the gate. -/
structure RefGate where
  offA : Option Int
  offB : Option Int
  edges : List TdcArrival
  deriving DecidableEq, Repr

/-- A Bell ring: the level a pair of Bell lanes serves. -/
inductive BellRing where
  | parish | trunk
  deriving DecidableEq, Repr

/-- A lane: a data lane or a Bell lane. -/
inductive Lane where
  | data (l : Fin 64) | bell (l : Fin 4)
  deriving DecidableEq, Repr

/-- What a NEG frame tells (R274, Table 11-3): VRATE_MAX, or RATE on a Bell lane, lane number, port lane count, low-power support. -/
structure NegFrame where
  rate : Nat
  lane : Nat
  lanes : Nat
  lowPower : Bool
  deriving DecidableEq, Repr

/-- A request for one tap (R275). -/
inductive TapRequest where
  | inc | dec | hold
  deriving DecidableEq, Repr

/-- What a TRAIN frame asks (R275), and whether this end's receiver is READY. -/
structure TrainFrame where
  pre2 : TapRequest
  pre1 : TapRequest
  post : TapRequest
  preset : Bool
  ready : Bool
  ownPre2 : TapRequest
  ownPre1 : TapRequest
  ownPost : TapRequest
  ownPreset : Bool
  ownReady : Bool
  deriving DecidableEq, Repr

/-- A low-power request a CTRL frame carries (R280): sleep of the sender's transmitter or of its receiver, electrical idle, or the exit
from one of the three. -/
inductive LowPowerRequest where
  | none | txSleep | rxSleep | eidle | txExit | rxExit | eidleExit
  deriving DecidableEq, Repr

/-- A reset of the PCIe link (R287). -/
inductive LinkReset where
  | hotReset | flr | linkDown
  deriving DecidableEq, Repr

/-- A register of a ring context (R289). -/
inductive RingRegister where
  | base | cfg | idx
  deriving DecidableEq, Repr

/-- A 1 KiB block of the configuration scan (R331): set-up registers, partition configurations, or an SRAM table. -/
structure ConfigBlock where
  block : BitVec 16
  parts : BitVec 8
  deriving DecidableEq, Repr

/-- A trained PCIe rate (Table 12-1). -/
inductive PcieRate where
  | gt2_5 | gt5 | gt8 | gt16 | gt32 | gt64
  deriving DecidableEq, Repr

/-- A trained PCIe width (Table 12-1). -/
inductive PcieWidth where
  | x1 | x2 | x4 | x8 | x16
  deriving DecidableEq, Repr

/-- A command: one row of the table of operations and events. -/
inductive Instr where
  /-- REGISTER_WRITE (R408). A host, Reeve or monitor write to a register that has no row of its own stores the writable fields under their access codes. -/
  | registerWrite (m : Master) (offset : BitVec 26) (value : BitVec 64)
  /-- SPLIT_WRITE_LOW (R286). A 4 B write to bytes 0 to 3 of a register is held in the split-write latch. -/
  | splitWriteLow (offset : BitVec 26) (value : BitVec 32)
  /-- SPLIT_WRITE_HIGH (R286). A 4 B write to bytes 4 to 7 completes a latched register write, or is ignored with HIF_SPLIT_DISCARD when no latch matches. -/
  | splitWriteHigh (offset : BitVec 26) (value : BitVec 32)
  /-- MMIO_UNSUPPORTED (R285). A BAR access of a wrong size or alignment, or one aimed at the Reeve's windows, completes as Unsupported Request. -/
  | mmioUnsupported (a : BarAccess)
  /-- INPUT_MAP_WINDOW_WRITE (R55). An MMIO write to the input map window stores plain bytes of an entry, which the cache may read torn. -/
  | inputMapWindowWrite (offset : BitVec 19) (wide : Bool) (value : BitVec 64)
  /-- DELAY_WINDOW_WRITE (R406). An MMIO write to a delay bank window writes through the beam table port, and may create a live edit or a torn entry. -/
  | delayWindowWrite (offset : BitVec 27) (wide : Bool) (value : BitVec 64)
  /-- RECOVERY_BUFFER_WRITE (R392). A write to the recovery buffer stores image bytes while STAGE is RECOVERY, and is ignored otherwise. -/
  | recoveryBufferWrite (offset : BitVec 23) (wide : Bool) (value : BitVec 64)
  /-- FABRIC_GRANT (R28). At a grant slot a target port grants the waiting transaction of highest QoS, subject to the seven-to-one rule. -/
  | fabricGrant (port : FabTarget) (arrivals : List FabArrival) (parity : Bool)
  /-- QOS_AGEING (R29). Each 256 FCLK cycles in a queue raise a waiting transaction's QoS by one, up to 14. -/
  | qosAgeing (port : FabTarget) (serial : Nat)
  /-- FAB_MASTER_DRAINED (R36). The last outstanding transaction of a reset master drains, its interface is released and the event names the master class. -/
  | fabMasterDrained (cls : MasterClass)
  /-- CLK_MON_FAULT (R330). The clock monitor finds a clock stopped or off frequency and the device stops, takes a port down, or treats PCIe as link-down. -/
  | clkMonFault (clk : MonitoredClock)
  /-- REMAP_SWAP (R38). Once the Reeve's outstanding accesses have drained, the boot ROM and working SRAM windows swap. -/
  | remapSwap (outstanding : List ReeveAccess)
  /-- ETH_FRAME_RECEIVE (R270). An Ethernet port receives a frame, discards it on length or FCS failure, and passes it to ingress or to non-ingress handling. -/
  | ethFrameReceive (port : Fin 8) (rx : EthRx)
  /-- PTP_TX_INTERVAL (R232). A PTP message interval expires and the clock sends Sync, Announce or Delay_Req as its role requires. -/
  | ptpTxInterval (msg : PtpInterval) (sent : PcsStamp)
  /-- BATCH_WINDOW_EXPIRE (R46). 2 ms after the first granule of a batch arrives, the batch becomes ready to close. -/
  | batchWindowExpire (p : Fin 8) (ord : Nat)
  /-- ING_TABLE_INVAL (R54). A write invalidates an input map or threshold table entry, or a whole table, for rereading at the next buffer boundary. -/
  | ingTableInval (m : Master) (value : BitVec 48)
  /-- REGION_ROTATE (R75). A staging region rotates once its filling copy is ready, its computing copy is done and its retained copy is releasable. -/
  | regionRotate (p : Fin 8) (ecc : Option RotateError)
  /-- WEIGHT_SYNTHESIS (R129). The synthesiser reads each delay entry once per batch and computes the beam weights, marking stale, torn and live-edited entries. -/
  | weightSynthesis (p : Fin 8) (ord : Nat)
  /-- MILL_SEGMENT_END (R85). At a segment boundary the Mill picks the computing region with the earliest deadline. -/
  | millSegmentEnd
  /-- PIECE_DRAIN (R320). A tile drains a task piece, checks residues and compares the shadow signature before passing records to the combiner. -/
  | pieceDrain (tile : Fin 136) (fault : PieceFault) (ecc : Option SramError)
  /-- RERUN_DONE (R322). A re-run on A, S and R ends and its outcome is classified as transient, lasting or unresolved. -/
  | rerunDone (q : Fin 4) (agree : RerunAgreement)
  /-- REGION_COMPUTE_DONE (R86). The Mill finishes computing a region and raises MILL_DEADLINE_MISS if the region finished after its deadline. -/
  | regionComputeDone (p : Fin 8)
  /-- SHADOW_WINDOW_END (R319). The shadow window's cycle count expires and the window ends at the next piece boundary, or runs the test task first. -/
  | shadowWindowEnd (q : Fin 4)
  /-- TEST_TASK_DONE (R321). A test task ends and a tile whose signature fails is treated as lasting-faulty. -/
  | testTaskDone (tile : Fin 136) (pass : Bool)
  /-- HARVEST_BATCH (R104). Harvest adds a batch's verified tile sums into the Granary, dumping on first touch when a new integration begins. -/
  | harvestBatch (p : Fin 8) (ord : Nat) (issueBuffer : Nat)
  /-- SWEEP_TIMER_EXPIRE (R107). A channel still holding its integration after the boundary time plus SWEEP_DELAY is swept, marked SWEPT and emptied. -/
  | sweepTimerExpire (p : Fin 8) (chan : Fin 16384)
  /-- CHAIN_BATCH (R146). The chain engine runs one batch's samples through an instance's CIC decimator, scaling and detectors. -/
  | chainBatch (entry : Nat) (chan : Fin 16384) (stokes : Fin 4)
  /-- DET_RANGE_SET (R156). A write sets the RANGE of one chain entry, or is ignored with DET_BAD_RANGE. -/
  | detRangeSet (m : Master) (value : BitVec 48)
  /-- TRIG_IN_EDGE (R173). A TRIG_IN rising edge is stamped and, on an armed unit with the pin source, becomes a fire at its sample position. -/
  | trigInEdge (stamp : RawStamp)
  /-- ARM_EFFECT (R168). An accepted ARM takes effect when the writer first places a sample at or after ARM_TIME. -/
  | armEffect
  /-- SETTLE_END (R178). Settle ends: the winner is final, TRG_CRIB_SEALED is raised and the crib enters READOUT. -/
  | settleEnd (crib : Fin 4)
  /-- CAPTURE_PACKET_SEND (R182). The capture reader sends a read part of the crib's span as a capture packet. -/
  | capturePacketSend (crib : Fin 4)
  /-- CAPTURE_CONFIG_APPLY (R163). A deferred CAPTURE_CONFIG takes effect once no crib is sealing, held or in readout, and completes. -/
  | captureConfigApply
  /-- MEM_LAYOUT_WRITE (R190). A write to MEM_LAYOUT is applied, discarding regions and retiring failed pseudo-channels, or refused. -/
  | memLayoutWrite (m : Master) (value : BitVec 48)
  /-- MEM_ALLOT_WRITE (R199). A write to an allotment is admitted and applied, or refused with MEM_ALLOT_REFUSED. -/
  | memAllotWrite (m : Master) (cls : Fin 3) (value : BitVec 48)
  /-- ALLOTMENT_REFILL (R198). Every 1 µs each allotment's token bucket gains its rate, up to its depth. -/
  | allotmentRefill
  /-- HBM_ACCESS (R200). An HBM burst completes with ECC checking, correction and write-back, or poison, and CA parity retry. -/
  | hbmAccess (a : HbmBurst)
  /-- REFRESH_DUE (R193). A pseudo-channel's refresh falls due and is issued or postponed up to eight times. -/
  | refreshDue (pc : Fin 128) (retrain : Option Bool)
  /-- SCRUB_READ (R203). The patrol scrubber reads its next burst and writes back a correction unless a newer write intervened. -/
  | scrubRead (pc : Fin 128) (err : HbmError) (target : HbmTarget) (newerWrite : Bool)
  /-- TIME_NOW_S_READ (R210). A read of TIME_NOW_S returns seconds and latches nanoseconds and fraction for that master. -/
  | timeNowSRead (m : Master)
  /-- TIME_RATE_WRITE (R209). A write to TIME_RATE stores the clamped ADJ, or is ignored with TIME_SET_REFUSED when the source is not HOST. -/
  | timeRateWrite (m : Master) (value : BitVec 48)
  /-- TIME_STEP (R211). Setting TIME_CTL.STEP loads the set time at the next TCLK edge or waits for PPS, or voids the step. -/
  | timeStep (m : Master) (value : BitVec 48)
  /-- TIME_SLEW_WRITE (R211). A write to TIME_SLEW replaces the unapplied slew, or is refused when the source is not HOST. -/
  | timeSlewWrite (m : Master) (value : BitVec 48)
  /-- PPS_IN_EDGE (R230). A PPS_IN edge is stamped, accepted or ignored, steers the servo, and applies a pending step at PPS. -/
  | ppsInEdge (stamp : RawStamp)
  /-- TIME_PPS_LOST (R230). Three consecutive expected PPS edges not accepted raise the event. -/
  | timePpsLost
  /-- TIME_SOURCE_LOST (R215). Three expected intervals without input from the time source start time holdover. -/
  | timeSourceLost
  /-- REF_GATE_END (R219). A 1 s reference gate ends and each reference's quality is updated, possibly switching the PLL source. -/
  | refGateEnd (gate : RefGate)
  /-- TIME_REF_LOST (R220). The missing-edge detector declares a stopped or far-off reference OUT within 10 µs. -/
  | timeRefLost (ref : RefInput)
  /-- REF_SETTLE_END (R220). The 10 s reference settle ends. -/
  | refSettleEnd
  /-- TDC_CAL_REQUEST (R227). Setting TIME_TDC_CTL.CAL starts a code-density calibration, deferred while a measurement runs. -/
  | tdcCalRequest (m : Master) (value : BitVec 48)
  /-- TDC_CAL_DONE (R227). A calibration ends and its table replaces the old one, or fails and the old table is kept. -/
  | tdcCalDone (hits : List Nat)
  /-- TDC_GO (R228). Setting TIME_TDC_CTL.GO starts or restarts a measurement, or is refused for a bad MODE. -/
  | tdcGo (m : Master) (value : BitVec 48)
  /-- TDC_MEASURE_DONE (R228). The measurement takes its last sample, computes MEAN, SDEV, MIN and MAX, and sets DONE. -/
  | tdcMeasureDone (edges : List TdcArrival)
  /-- TIME_TSQ_POP (R235). Writing 1 to POP removes the queue's head entry. -/
  | timeTsqPop (m : Master) (value : BitVec 48)
  /-- TSQ_CLR_DROPS (R236). Writing 1 to CLR_DROPS clears the drop count. -/
  | tsqClrDrops (m : Master) (value : BitVec 48)
  /-- PPS_OUT_PULSE (R231). At each local second boundary PPS_OUT rises for 100 µs, unless gated, and the servo trims its delay line. -/
  | ppsOutPulse (stamp : RawStamp)
  /-- SYNC_OUT_PULSE (R415). At each local 8 s boundary SYNC_OUT rises for 100 ns. -/
  | syncOutPulse
  /-- SYNC_IN_EDGE (R415). A SYNC_IN edge is stamped on TDC channel 2 with no other effect. -/
  | syncInEdge (stamp : RawStamp)
  /-- BELL_FRAME_LAUNCH (R241). At its schedule time a unit launches a frame marker and header, with its own slot body, in each direction. -/
  | bellFrameLaunch (ring : BellRing) (sent : RawStamp)
  /-- BELL_HEADER_RECEIVE (R246). A received Bell header is checked, used for time and margin, and relaunched with updated fields, or terminated at the master. -/
  | bellHeaderReceive (lane : Fin 4) (line : List Nat) (arrival sent : RawStamp)
  /-- BELL_SLOT_RECEIVE (R243). A received slot body counts as a heartbeat, feeds the link delay measurement and is forwarded unchanged. -/
  | bellSlotReceive (lane : Fin 4) (slot : Fin 128) (line : List Nat)
  /-- BELL_FIRE_RECORD (R175). A FIRE record is deduplicated, relayed, bridged and disposed of against the armed trigger. -/
  | bellFireRecord (lane : Fin 4) (rec : List Byte)
  /-- BELL_ARM_RECORD (R260). An ARM record is checked against the known role 0 epoch, relayed, and accepted locally or refused. -/
  | bellArmRecord (lane : Fin 4) (rec : List Byte)
  /-- BELL_ROLE_RECORD (R260). A ROLE record updates, refreshes or is dropped against the known epoch, and may fence or reopen partitions. -/
  | bellRoleRecord (lane : Fin 4) (rec : List Byte)
  /-- BELL_DEAD_RECORD (R258). A DEAD record is relayed and raises BELL_UNIT_DEAD. -/
  | bellDeadRecord (lane : Fin 4) (rec : List Byte)
  /-- BELL_MSG_RECORD (R261). A MSG record is delivered by the holder of its role and epoch, and relayed and counted by every other unit. -/
  | bellMsgRecord (lane : Fin 4) (rec : List Byte)
  /-- BELL_SILENCE_TIMEOUT (R251). Three frame periods without a valid header make the unit ISOLATED and start a claim back-off if it is eligible. -/
  | bellSilenceTimeout (ring : BellRing)
  /-- BELL_BACKOFF_END (R251). A claim back-off or collision wait expires and the unit sends CLAIM headers if still no frame arrives. -/
  | bellBackoffEnd (ring : BellRing)
  /-- BELL_CLAIM_RECEIVE (R251). A CLAIM header is ranked, forwarded or discarded, and a claimant whose claim returns three times becomes master. -/
  | bellClaimReceive (lane : Fin 4) (line : List Nat) (arrival sent : RawStamp)
  /-- BELL_DEAD_TIMEOUT (R258). A master that misses a member's slot bodies for DEAD_FRAMES frames declares it dead and sends a DEAD record. -/
  | bellDeadTimeout (ring : BellRing) (unit : BitVec 14)
  /-- ISOLATE_FENCE_TIMEOUT (R258). With ISOLATE_FENCE set, DEAD_FRAMES frames of isolation fence every partition that holds a role. -/
  | isolateFenceTimeout
  /-- ROLE_BEACON_TIMER (R259). An authority resends every role it has assigned at least every 4 s. -/
  | roleBeaconTimer
  /-- BELL_CFG_WRITE (R267). A write to BELL_CFG applies identity fields only while all Bell lanes are disabled, and the other fields at the next frame. -/
  | bellCfgWrite (m : Master) (value : BitVec 48)
  /-- LANE_GROUP_CFG_WRITE (R271). A write to a lane group configuration takes the port down and restarts bring-up, or is refused. -/
  | laneGroupCfgWrite (m : Master) (g : Fin 8) (value : BitVec 48)
  /-- LANE_CFG_WRITE (R282). A write to a lane configuration applies loopback, PRBS, polarity and low-power requests. -/
  | laneCfgWrite (m : Master) (l : Fin 64) (value : BitVec 48)
  /-- LANE_BELL_CFG_WRITE (R279). A write enables Bell lanes, or disables them so that they reach DOWN within 1 µs. -/
  | laneBellCfgWrite (m : Master) (value : BitVec 48)
  /-- LANE_NEG_TIMER (R274). A DOWN lane sends NEG at the lowest rate every 1 ms. -/
  | laneNegTimer (lane : Lane)
  /-- LANE_MARKER_LOCK (R274). A lane achieves marker lock and advances from DOWN to NEG or from STEP to TRAIN. -/
  | laneMarkerLock (lane : Lane)
  /-- VIROS_NEG_FRAME (R274). A NEG frame exchanges rate, lane and low-power capabilities and counts toward agreement and the rate switch. -/
  | virosNegFrame (lane : Lane) (neg : NegFrame)
  /-- VIROS_TRAIN_FRAME (R275). A TRAIN frame requests tap changes and reports status, and READY runs lead to ACTIVE with LANE_UP. -/
  | virosTrainFrame (lane : Lane) (train : TrainFrame)
  /-- LANE_STATE_TIMEOUT (R274). The NEG, STEP or TRAIN time limit expires and the lane falls back to DOWN or to a lower rate. -/
  | laneStateTimeout (lane : Lane)
  /-- VIROS_DATA_FRAME (R277). A DATA link frame is delivered in order and acknowledged, or answered with NAK. -/
  | virosDataFrame (l : Fin 64) (line : List Nat) (fifoFull : Bool)
  /-- VIROS_CTRL_FRAME (R277). A CTRL frame carries acknowledgements, NAK or low-power requests. -/
  | virosCtrlFrame (l : Fin 64) (line : List Nat) (lowPower : LowPowerRequest)
  /-- VIROS_REPLAY_TIMEOUT (R277). The oldest unacknowledged DATA frame waiting 8 µs triggers a replay. -/
  | virosReplayTimeout (g : Fin 8) (l : Fin 64)
  /-- VIROS_IDLE_TIMER (R277). After 1 µs with nothing to send the receiver sends a CTRL frame carrying ACK_SEQ. -/
  | virosIdleTimer (g : Fin 8)
  /-- ETH_LINK_LOSS (R278). Loss of block or alignment lock, or too many uncorrectable codewords, restarts Clause 73 and training. -/
  | ethLinkLoss (g : Fin 8)
  /-- PCIE_LINK_RESET (R287). A hot reset, FLR or link-down discards unbegun descriptors, disables rings and raises HIF_LINK_DOWN. -/
  | pcieLinkReset (kind : LinkReset)
  /-- PERST_N (R387). PERST_N acts as a link-down and resets configuration space and every HIF_ register. -/
  | perstN
  /-- PCIE_D3HOT (R403). Moving the function to D3hot enters STANDBY when the device is IDLE, and otherwise stops the host interface. -/
  | pcieD3hot
  /-- PCIE_D0 (R403). Returning the function to D0 leaves a STANDBY entered through D3hot. -/
  | pcieD0
  /-- HIF_RING_CFG_WRITE (R290). A write to a ring configuration enables or disables the ring, or is refused with HIF_RING_CFG_REFUSED. -/
  | hifRingCfgWrite (m : Master) (ring : Fin 16384) (which : RingRegister) (value : BitVec 48)
  /-- HIF_POLL_TICK (R294). A poll interval ends and the device swaps the summary words and reads the flagged doorbells. -/
  | hifPollTick
  /-- HIF_NUDGE (R295). A write to HIF_NUDGE starts a poll within 0.25 µs, or after the poll in progress. -/
  | hifNudge (m : Master) (value : BitVec 48)
  /-- DESC_FETCH (R299). A SUB descriptor is fetched once its CPL ring has a free entry, which is reserved, and TAG_BUSY is checked. -/
  | descFetch (ring : Fin 16384) (readOk : Bool)
  /-- NOP (R297). The NOP descriptor completes with no effect. -/
  | nop (tag : BitVec 17)
  /-- START (R300). START admits and starts a partition with its configuration, or refuses it. -/
  | start (tag : BitVec 17)
  /-- CONFIGURE (R77). CONFIGURE admits a new partition configuration to apply from the integration EFF_INT names, or refuses it. -/
  | configure (tag : BitVec 17)
  /-- STOP (R76). STOP stops a partition at the next rotation. -/
  | stop (tag : BitVec 17)
  /-- TABLE_WRITE (R302). TABLE_WRITE checks, admits and writes table entries in ascending index until the first refusal. -/
  | tableWrite (tag : BitVec 17) (readOk : Bool)
  /-- BANK_COMMIT (R134). BANK_COMMIT schedules the inactive delay bank to become active from sub-integration s_c, or refuses it as pending. -/
  | bankCommit (tag : BitVec 17)
  /-- BANK_COMMIT_APPLY (R134). A pending commit takes effect at its sub-integration and raises BF_COMMIT_APPLIED. -/
  | bankCommitApply (p : Fin 8)
  /-- CAPTURE_CONFIG (R159). CAPTURE_CONFIG checks and admits a capture configuration, and its completion is deferred until it takes effect. -/
  | captureConfig (tag : BitVec 17)
  /-- TRIGGER_ARM (R166). TRIGGER_ARM checks and accepts an ARM, and with SCOPE 1 on the master sends an ARM record. -/
  | triggerArm (tag : BitVec 17)
  /-- TRIGGER_FIRE (R173). TRIGGER_FIRE makes a host fire at the given time, or is refused with NOT_ARMED. -/
  | triggerFire (tag : BitVec 17)
  /-- STATS_READ (R303). STATS_READ copies F_i counts or unread ring entries into host memory. -/
  | statsRead (tag : BitVec 17)
  /-- PORT_CONFIG (R270). PORT_CONFIG sets an Ethernet port's own MAC and IP addresses. -/
  | portConfig (tag : BitVec 17)
  /-- ROLE_ASSIGN (R259). ROLE_ASSIGN on an authority assigns a role at a higher epoch and sends a ROLE record, or is refused. -/
  | roleAssign (tag : BitVec 17)
  /-- TIME_QUALITY (R214). TIME_QUALITY sets TQ_LOCAL under the HOST source, or is refused with TIME_SOURCE. -/
  | timeQuality (tag : BitVec 17)
  /-- STW_LOAD (R354). STW_LOAD copies host bytes into a Steward's program or data memory. -/
  | stwLoad (tag : BitVec 17) (wordsRead : Nat)
  /-- STW_RUN (R355). STW_RUN clears the core's state, binds it to a partition and starts it. -/
  | stwRun (tag : BitVec 17)
  /-- STW_STOP (R356). STW_STOP stops a core at its next instruction boundary and completes when it is STOPPED. -/
  | stwStop (tag : BitVec 17)
  /-- FW_WRITE (R393). FW_WRITE erases and programs pages of the idle image slot and checks the image once it is whole. -/
  | fwWrite (tag : BitVec 17) (readOk : Bool)
  /-- QUERY (R288). QUERY returns the recorded status of a tag. -/
  | query (tag : BitVec 17)
  /-- BAD_OPCODE (R299). A descriptor with an undefined opcode is refused with BAD_OPCODE. -/
  | badOpcode (tag : BitVec 17)
  /-- ATTN_CLR_WITHHELD (R312). Writing 1 to HIF_ATTN_CLR.WITHHELD clears ATTN.WITHHELD. -/
  | attnClrWithheld (m : Master) (value : BitVec 48)
  /-- ATTN_CLR_SEV (R312). Writing 1 to HIF_ATTN_CLR.SEV recomputes ATTN.SEV from present conditions. -/
  | attnClrSev (m : Master) (value : BitVec 48)
  /-- HB_TOGGLE (R312). ATTN.HB toggles every 1.024 ms while the Reeve runs. -/
  | hbToggle
  /-- IRQ_MOD_EXPIRE (R313). A vector raising deferred by IRQ_MOD happens when the gap ends. -/
  | irqModExpire (vec : BitVec 11)
  /-- HIF_ESTOP (R314). Writing the key to HIF_ESTOP stops the device, withholds products and closes the egress gate. -/
  | hifEstop (m : Master) (value : BitVec 48)
  /-- REEVE_LOCKSTEP (R329). A lockstep mismatch stops the Reeve and restarts it, or stops the device if it is the second within 10 s. -/
  | reeveLockstep (sram : Bool)
  /-- DEP_REEVE_RESTARTED (R329). The Reeve restart completes from checkpoint and runs a configuration scan. -/
  | depReeveRestarted
  /-- VOLTAGE_SAMPLE (R330). The 1 ms rail sample detects a rail out of window, pausing the data path, or beyond its absolute maximum, stopping the device. -/
  | voltageSample (rails : List Int)
  /-- VOLTAGE_RECOVERED (R330). A rail back in its window for 2 ms resumes the paused data path. -/
  | voltageRecovered
  /-- CONFIG_SCAN (R331). Every 100 ms the Reeve checks signatures of configuration blocks and restores and marks mismatches. -/
  | configScan (mismatches : List ConfigBlock)
  /-- OUTAGE_TICK (R334). Each 1 ms tick adds to the outage count when a partition is in outage. -/
  | outageTick
  /-- OUTAGE_COMMIT_TIMER (R334). Every hour DEP_OUTAGE is committed to the Ledger. -/
  | outageCommitTimer
  /-- PWR_WARN (R336). PWR_WARN_N held low for 10 µs stops the device and commits the event log and outage record. -/
  | pwrWarn
  /-- STW_INTERRUPT_ENTRY (R351). A pending, enabled interrupt is taken: PC and SR are saved and the handler starts. -/
  | stwInterruptEntry (core : Fin 8)
  /-- STW_TIMER_EXPIRE (R351). A core's timer period elapses and sets the TIMER interrupt pending. -/
  | stwTimerExpire (core : Fin 8)
  /-- STW_SLOT_STALL (R346). An outside access waiting 16 CCLK cycles stalls the core for one cycle. -/
  | stwSlotStall (core : Fin 8)
  /-- STW_NOP (R348). Steward NOP does nothing. -/
  | stwNop (core : Fin 8)
  /-- STW_ADD (R348). ADD sets Dd = Ds + Dt. -/
  | stwAdd (core : Fin 8)
  /-- STW_ADC (R348). ADC adds with carry. -/
  | stwAdc (core : Fin 8)
  /-- STW_SUB (R348). SUB sets Dd = Ds − Dt. -/
  | stwSub (core : Fin 8)
  /-- STW_SBC (R348). SBC subtracts with borrow. -/
  | stwSbc (core : Fin 8)
  /-- STW_CMP (R348). CMP sets flags from Ds − Dt. -/
  | stwCmp (core : Fin 8)
  /-- STW_AND (R348). AND forms a bitwise AND. -/
  | stwAnd (core : Fin 8)
  /-- STW_OR (R348). OR forms a bitwise OR. -/
  | stwOr (core : Fin 8)
  /-- STW_XOR (R348). XOR forms a bitwise XOR. -/
  | stwXor (core : Fin 8)
  /-- STW_SHL (R348). SHL shifts left. -/
  | stwShl (core : Fin 8)
  /-- STW_SHR (R348). SHR shifts right logically. -/
  | stwShr (core : Fin 8)
  /-- STW_ASR (R348). ASR shifts right arithmetically. -/
  | stwAsr (core : Fin 8)
  /-- STW_MUL (R348). MUL forms a rounded fractional product. -/
  | stwMul (core : Fin 8)
  /-- STW_MIN (R348). MIN takes the smaller operand. -/
  | stwMin (core : Fin 8)
  /-- STW_MAX (R348). MAX takes the larger operand. -/
  | stwMax (core : Fin 8)
  /-- STW_ABS (R348). ABS takes the absolute value. -/
  | stwAbs (core : Fin 8)
  /-- STW_NEG (R348). NEG negates. -/
  | stwNeg (core : Fin 8)
  /-- STW_POPC (R348). POPC counts one bits. -/
  | stwPopc (core : Fin 8)
  /-- STW_NORM (R348). NORM counts redundant sign bits. -/
  | stwNorm (core : Fin 8)
  /-- STW_MOV (R348). MOV copies a D register. -/
  | stwMov (core : Fin 8)
  /-- STW_LDI (R348). LDI loads a sign-extended immediate. -/
  | stwLdi (core : Fin 8)
  /-- STW_LDH (R348). LDH loads the high byte of a D register. -/
  | stwLdh (core : Fin 8)
  /-- STW_ADDI (R348). ADDI adds an immediate. -/
  | stwAddi (core : Fin 8)
  /-- STW_CMPI (R348). CMPI compares with an immediate. -/
  | stwCmpi (core : Fin 8)
  /-- STW_LD (R344). LD loads from data memory and post-modifies the pointer. -/
  | stwLd (core : Fin 8)
  /-- STW_ST (R344). ST stores to data memory and post-modifies the pointer. -/
  | stwSt (core : Fin 8)
  /-- STW_MPY (R348). MPY multiplies into an accumulator with dual loads. -/
  | stwMpy (core : Fin 8)
  /-- STW_MAC (R348). MAC multiplies and accumulates with dual loads. -/
  | stwMac (core : Fin 8)
  /-- STW_MSU (R348). MSU multiplies and subtracts with dual loads. -/
  | stwMsu (core : Fin 8)
  /-- STW_LD2 (R345). LD2 performs a dual load only. -/
  | stwLd2 (core : Fin 8)
  /-- STW_MVA (R349). MVA moves a view of an accumulator to a D register. -/
  | stwMva (core : Fin 8)
  /-- STW_LDA (R349). LDA writes a D register into a view of an accumulator. -/
  | stwLda (core : Fin 8)
  /-- STW_SHA (R348). SHA shifts an accumulator. -/
  | stwSha (core : Fin 8)
  /-- STW_ADDA (R348). ADDA adds the other accumulator. -/
  | stwAdda (core : Fin 8)
  /-- STW_CLRA (R348). CLRA clears an accumulator. -/
  | stwClra (core : Fin 8)
  /-- STW_BR (R348). BR branches when its condition holds. -/
  | stwBr (core : Fin 8)
  /-- STW_CALL (R348). CALL pushes the return address and branches when its condition holds. -/
  | stwCall (core : Fin 8)
  /-- STW_RET (R348). RET pops the return address when its condition holds. -/
  | stwRet (core : Fin 8)
  /-- STW_RTI (R351). RTI restores PC and SR from the interrupt return register. -/
  | stwRti (core : Fin 8)
  /-- STW_REP (R350). REP repeats the next instruction COUNT times, uninterruptibly. -/
  | stwRep (core : Fin 8)
  /-- STW_MOVP (R348). MOVP moves between a D register and a pointer, base or length register. -/
  | stwMovp (core : Fin 8)
  /-- STW_SETP (R348). SETP loads an immediate into a pointer, base or length register. -/
  | stwSetp (core : Fin 8)
  /-- STW_MOVS (R352). MOVS moves between a D register and a special register. -/
  | stwMovs (core : Fin 8)
  /-- STW_XREQ (R358). XREQ reads a transfer block and queues the transfer, stalling while four are outstanding. -/
  | stwXreq (core : Fin 8)
  /-- STW_XWAIT (R348). XWAIT waits until no transfer is outstanding. -/
  | stwXwait (core : Fin 8)
  /-- STW_WAIT (R348). WAIT sleeps until an enabled interrupt is pending. -/
  | stwWait (core : Fin 8)
  /-- STW_HALT (R348). HALT stops the core and raises STW_STOPPED. -/
  | stwHalt (core : Fin 8)
  /-- STW_ILLEGAL (R353). An illegal instruction, or an uncorrectable error of the core's memories (`memUe`), faults the core with STW_FAULT. -/
  | stwIllegal (core : Fin 8) (memUe : Bool)
  /-- STW_XFER_READ (R359). A READ transfer copies region entries or unread ring entries into data memory. -/
  | stwXferRead (core : Fin 8)
  /-- STW_XFER_WRITE (R360). A WRITE transfer checks and writes threshold sets or delay entries. -/
  | stwXferWrite (core : Fin 8)
  /-- STW_XFER_COMMIT (R361). A COMMIT transfer acts as BANK_COMMIT for the bound partition after earlier transfers complete. -/
  | stwXferCommit (core : Fin 8)
  /-- STW_XFER_RANGE (R361). A RANGE transfer acts as a write of DET_RANGE_SET. -/
  | stwXferRange (core : Fin 8)
  /-- STW_XFER_DONE (R358). A transfer completes, writes DONE_COUNT, AUX and DONE, and sets the XDONE interrupt pending. -/
  | stwXferDone (core : Fin 8)
  /-- DMA_START_REGISTER (R369). START with MODE 0 begins a register-mode copy on an idle channel. -/
  | dmaStartRegister (m : Master) (ch : Fin 32) (value : BitVec 48)
  /-- DMA_START_DESCRIPTOR (R375). START with MODE 1 begins a descriptor chain on an idle channel. -/
  | dmaStartDescriptor (m : Master) (ch : Fin 32) (value : BitVec 48)
  /-- DMA_ABORT_WRITE (R372). Writing ABORT stops issuing bursts and ends the channel once responses have returned. -/
  | dmaAbortWrite (m : Master) (ch : Fin 32) (value : BitVec 48)
  /-- DMA_DESC_FETCHED (R375). A DMA descriptor fetch completes and the descriptor runs, or the chain ends with DESC_ERR. -/
  | dmaDescFetched (ch : Fin 32) (readOk : Bool)
  /-- DMA_BURST_READ_DONE (R370). A burst's read returns and its write is issued, or the transfer fails on poison or error. -/
  | dmaBurstReadDone (ch : Fin 32) (readOk : Bool)
  /-- DMA_BURST_WRITE_ACK (R371). A burst's write is acknowledged, and the last one completes the transfer or descriptor with its write-back. -/
  | dmaBurstWriteAck (ch : Fin 32) (writeOk : Bool)
  /-- SMB_READ_ATTN (R378). SMBus command 0x00 returns ATTN. -/
  | smbReadAttn
  /-- SMB_READ_PART (R378). SMBus command 0x01 returns SYS_ID.PART. -/
  | smbReadPart
  /-- SMB_READ_TJ (R378). SMBus command 0x02 returns the highest junction temperature. -/
  | smbReadTj
  /-- SMB_READ_POWER (R378). SMBus command 0x03 returns device power. -/
  | smbReadPower
  /-- SMB_READ_TEMPS (R378). SMBus command 0x04 returns the 24 sensor temperatures. -/
  | smbReadTemps
  /-- SMB_READ_RAILS (R378). SMBus command 0x05 returns the seven rail voltages. -/
  | smbReadRails
  /-- SMB_READ_OUTAGE (R378). SMBus command 0x06 returns the outage total. -/
  | smbReadOutage
  /-- SMB_OTHER (R378). Any write or other SMBus command is refused with a NACK. -/
  | smbOther (command : BitVec 8) (write : Bool)
  /-- CHAL (R381). CHAL issues a new challenge, or answers ER WAIT while throttled. -/
  | chal
  /-- UNLK (R381). UNLK checks the response to the current challenge, unlocking the session or counting a failure. -/
  | unlk (response : BitVec 32)
  /-- STAT (R380). STAT returns ATTN, SYS_ID, junction temperature and MON_STATUS. -/
  | stat
  /-- MON_ESTOP (R382). The monitor's ESTOP stops the device at once and is audited afterwards. -/
  | monEstop
  /-- MON_RD (R380). RD returns a 64-bit register read. -/
  | monRd (offset : BitVec 24)
  /-- MON_WR (R382). WR is audited and performed once its record commits, or refused with ER ACCESS. -/
  | monWr (offset : BitVec 24) (value : BitVec 48)
  /-- MON_EVT (R380). EVT returns the last n event log entries. -/
  | monEvt (n : Nat)
  /-- AUD (R380). AUD returns the last n audit records. -/
  | aud (n : Nat)
  /-- BAUD (R380). BAUD changes the UART rate after its audit commits and its OK is sent. -/
  | baud (index : Nat)
  /-- LOCK (R381). LOCK ends the session. -/
  | lock
  /-- FUSE_LOCKOUT (R383). FUSE LOCKOUT blows the lockout fuse after its audit commits and ends the session. -/
  | fuseLockout (code : BitVec 32)
  /-- MON_SYNTAX (R380). A malformed or overlong line is answered ER SYNTAX. -/
  | monSyntax (length : Nat)
  /-- MON_IDLE_TIMEOUT (R381). 600 s without input end the session. -/
  | monIdleTimeout
  /-- MON_THROTTLE_END (R381). The challenge throttle period expires. -/
  | monThrottleEnd
  /-- MON_AUDIT_TIMEOUT (R382). An audit record not committed within 10 ms cancels its command with ER LEDGER. -/
  | monAuditTimeout
  /-- MON_RELOCK (R384). Writing MON_CTL.RELOCK ends any session. -/
  | monRelock (m : Master) (value : BitVec 48)
  /-- MON_DISABLE (R384). Writing MON_CTL.DISABLE disables the monitor until the next Reeve-starting reset. -/
  | monDisable (m : Master) (value : BitVec 48)
  /-- POR_N_ASSERT (R387). POR_N low resets the whole device except fuses and the thermal latch. -/
  | porNAssert
  /-- POR_N_RELEASE (R389). POR_N rising starts the boot ROM. -/
  | porNRelease
  /-- SYS_RST_N (R387). SYS_RST_N held low for 1 µs performs a device reset and, on release, boots. -/
  | sysRstN (low : Bool)
  /-- SYS_RESET_WRITE (R387). Writing the key to SYS_RESET schedules a device reset 1 µs later. -/
  | sysResetWrite (m : Master) (value : BitVec 48)
  /-- DEVICE_RESET (R387). The scheduled device reset takes effect and boot starts. -/
  | deviceReset
  /-- BOOT_ROM_DONE (R389). The ROM stage ends once the PLL has locked and the junction is below 97 °C, and the Ledger is replayed. -/
  | bootRomDone (hottest : Int) (monEn : Bool)
  /-- BOOT_LEDGER_DONE (R396). Ledger replay ends and image verification begins. -/
  | bootLedgerDone
  /-- BOOT_VERIFY_DONE (R392). Image verification ends, booting a slot or entering FAILED and RECOVERY. -/
  | bootVerifyDone
  /-- SYS_BOOT_DONE (R389). The firmware stage completes, HB begins toggling and polling starts. -/
  | sysBootDone
  /-- LEDGER_PROGRAM_DONE (R394). A Ledger page program or erase ends, committing its record or failing read-back. -/
  | ledgerProgramDone (readBackOk : Bool)
  /-- EVENT_LOG_COMMIT_TIMER (R395). 10 s after the oldest uncommitted event, or at 64 events, an EVENTS record is committed. -/
  | eventLogCommitTimer
  /-- THERM_SAMPLE (R398). Every 1 ms Tj is taken and the thermal state may change to WARN, THROTTLE or SHUTDOWN. -/
  | thermSample (sensors : List Int)
  /-- THERM_DWELL_TIMER (R399). A 50 ms thermal dwell expires, permitting a return toward NORMAL or a throttle step change. -/
  | thermDwellTimer
  /-- STANDBY_REQUEST (R403). Writing SYS_POWER.REQ = 1 while IDLE enters STANDBY. -/
  | standbyRequest (m : Master) (value : BitVec 48)
  /-- STANDBY_EXIT_REQUEST (R403). Writing REQ = 0 leaves STANDBY. -/
  | standbyExitRequest (m : Master) (value : BitVec 48)
  /-- STANDBY_EXIT_DONE (R403). The exit from STANDBY completes and waiting completions proceed. -/
  | standbyExitDone
  /-- JTAG_EXTEST (R418). EXTEST drives the boundary register while SYS_RST_N is low, and otherwise acts as BYPASS. -/
  | jtagExtest (scan : List Bool)
  /-- JTAG_SAMPLE_PRELOAD (R418). SAMPLE/PRELOAD captures and loads the boundary register. -/
  | jtagSamplePreload (pins : List Bool) (scan : List Bool)
  /-- JTAG_IDCODE (R418). IDCODE selects the identification register. -/
  | jtagIdcode
  /-- JTAG_CLAMP (R418). CLAMP holds the outputs while SYS_RST_N is low, and otherwise acts as BYPASS. -/
  | jtagClamp
  /-- JTAG_HIGHZ (R418). HIGHZ floats the outputs while SYS_RST_N is low, and otherwise acts as BYPASS. -/
  | jtagHighz
  /-- JTAG_BYPASS (R418). BYPASS, or any unlisted code, selects the bypass register. -/
  | jtagBypass (code : BitVec 8)
  /-- ETH_LINK_UP (R269). An Ethernet port completes Clause 73 auto-negotiation and PMD link training, or module host-interface bring-up, and begins carrying frames. -/
  | ethLinkUp (g : Fin 8) (rsFec : Bool)
  /-- PCIE_LINK_UP (R390). The PCIe link completes training after PERST_N release or a link event, or retrains to another rate or width, fixing the trained width and rate that set the DATA ring budget. -/
  | pcieLinkUp (rate : PcieRate) (width : PcieWidth)
  /-- POWER_LOSS (R337). The supply rails are removed, losing HBM contents, uncommitted state and the thermal-shutdown latch while fuses and the committed Ledger survive. -/
  | powerLoss
  /-- JTAG_TEST_LOGIC_RESET (R418). The TAP controller enters Test-Logic-Reset, through JTAG_TRST_N or TMS, and selects IDCODE. -/
  | jtagTestLogicReset
  deriving DecidableEq, Repr

end Sys2Proof
end

