-- ==== Sys2Proof/Decode.lean ====
section
/-!
DEFINITION. Reading a command from bits: the table of operations and events gives no row any bits.
-/
namespace Sys2Proof

/-- The command a word of `nbits` bits spells: none, since no row of the table has an encoding. Commands arrive by the queue. -/
def decodeTableWord (_nbits _w : Nat) : Option Instr := none

end Sys2Proof
end

