-- ==== Sys2Proof/Config.lean ====
section
/-!
DEFINITION. Config: what the spec leaves open, as constants without a body. Nothing can be proved of their values.
-/
namespace Sys2Proof

/-- The free values, drawn in order by `State.free` (log 4). -/
opaque Config.freeValue : Nat → Nat

/-- How a beam weight's component that lies exactly between two integers rounds: entry, frequency, component (log 11). -/
opaque Config.weightTie : Nat → Nat → Nat → Bool

/-- Whether the cache reads an input map entry between two bytes of an MMIO write, by tick and entry (log 13). -/
opaque Config.windowSeen : Nat → Nat → Bool

/-- The four fused SHA-384 key hashes (R391), fixed at manufacture (log 3). -/
opaque Config.keyHash : Nat → Nat

/-- The monitor's fused 256-bit secret (R381), fixed at manufacture (log 3). -/
opaque Config.monitorSecret : Nat

/-- The unit's serial number (log 3). -/
opaque Config.serial : Nat

/-- `SYS_ID.GRADE`, fused at manufacture: the device is an LW4096-A1-X (log 3). -/
opaque Config.gradeX : Bool

/-- Whether the flag summary writer's pace makes it skip an entry, by tick and entry number (log 19). -/
opaque Config.summarySkipped : Nat → Nat → Bool

/-- The boot ROM's 256 KiB (R37), fixed at manufacture (log 3). -/
opaque Config.bootRom : Nat → Byte

end Sys2Proof
end

