-- ==== Sys2Proof/Machine/Events.lean ====
section
/-!
DEFINITION. The event catalogue: identifiers and severities of Table 13-9 (R338).
-/
namespace Sys2Proof

/-- An event of Table 13-9. -/
inductive Event where
  | sysBootDone
  | sysImageRejected
  | sysFwUpdated
  | clkMonFault
  | fabMasterDrained
  | fabParity
  | pwrWarn
  | sysVoltage
  | sysVoltageStop
  | thermWarn
  | thermThrottle
  | thermNormal
  | thermShutdown
  | ledgerRecovered
  | ledgerWear
  | ledgerFail
  | hifSplitDiscard
  | hifLinkDown
  | hifRingCfgRefused
  | hifRingOverrun
  | hifDataOverrun
  | hifEgressShort
  | hifEstop
  | ingWindowExpired
  | ingTornEntry
  | ingSlotConflict
  | ingBadEntry
  | thrTornEntry
  | thrBadEntry
  | millDeadlineMiss
  | millMismatch
  | millResidue
  | millTransient
  | millTileReplaced
  | millShadowReplaced
  | millStandbyLost
  | millCapacityLoss
  | millNoMajority
  | millSuspectRange
  | millRerunOverload
  | millQuadOut
  | accWeightSat
  | accSweepDump
  | bfModelStale
  | bfCommitApplied
  | bfTornEntry
  | bfSaturation
  | detBadRange
  | trgArmed
  | trgArmRefused
  | trgFireAccepted
  | trgCribSealed
  | trgPreShort
  | trgNoCrib
  | trgCribReadDone
  | trgCaptOverflow
  | memLayoutApplied
  | memLayoutRefused
  | memAllotRefused
  | memUe
  | memCaParity
  | memRepeatAddr
  | memScrubPass
  | memPcFailed
  | memGuaranteeMiss
  | timeSetRefused
  | timeStepped
  | timeQualityLow
  | timeQualityOk
  | timeSourceLost
  | timeBeforeOrigin
  | timeRefOutTol
  | timeRefGood
  | timeRefLost
  | timeRefSwitch
  | timeHoldover
  | timeTdcCalFail
  | timeTdcCalDone
  | timeTdcDone
  | timeTdcBadCfg
  | timePpsLost
  | timeTsqOverflow
  | bellMasterChange
  | bellClaimCollision
  | bellIdConflict
  | bellRingBreak
  | bellLinkLong
  | bellQueueDrop
  | bellSlotMargin
  | bellMuted
  | bellUnmuted
  | bellUnitDead
  | bellRoleConflict
  | bellStaleDrop
  | bellMsg
  | bellWrongRoleDrop
  | bellFenced
  | bellFireLate
  | bellCfgRefused
  | laneUp
  | laneDown
  | laneCfgRefused
  | laneRetrain
  | laneFailed
  | lanePortDegraded
  | laneFecUncorr
  | depBatchWithheld
  | depSramCe
  | depSramUe
  | depReeveLockstep
  | depReeveRestarted
  | depConfigCrc
  | stwStopped
  | stwFault
  | dmaDone
  | dmaAbort
  | dmaBusError
  | monEnabled
  | monUnlocked
  | monUnlockFail
  | monLockout
  deriving DecidableEq, Repr

/-- EVENT_ID of Table 13-9. -/
def Event.id : Event → Nat
  | .sysBootDone => 0
  | .sysImageRejected => 1
  | .sysFwUpdated => 2
  | .clkMonFault => 3
  | .fabMasterDrained => 4
  | .fabParity => 5
  | .pwrWarn => 6
  | .sysVoltage => 7
  | .sysVoltageStop => 8
  | .thermWarn => 9
  | .thermThrottle => 10
  | .thermNormal => 11
  | .thermShutdown => 12
  | .ledgerRecovered => 13
  | .ledgerWear => 14
  | .ledgerFail => 15
  | .hifSplitDiscard => 32
  | .hifLinkDown => 33
  | .hifRingCfgRefused => 34
  | .hifRingOverrun => 35
  | .hifDataOverrun => 36
  | .hifEgressShort => 37
  | .hifEstop => 38
  | .ingWindowExpired => 48
  | .ingTornEntry => 49
  | .ingSlotConflict => 50
  | .ingBadEntry => 51
  | .thrTornEntry => 52
  | .thrBadEntry => 53
  | .millDeadlineMiss => 64
  | .millMismatch => 65
  | .millResidue => 66
  | .millTransient => 67
  | .millTileReplaced => 68
  | .millShadowReplaced => 69
  | .millStandbyLost => 70
  | .millCapacityLoss => 71
  | .millNoMajority => 72
  | .millSuspectRange => 73
  | .millRerunOverload => 74
  | .millQuadOut => 75
  | .accWeightSat => 96
  | .accSweepDump => 97
  | .bfModelStale => 112
  | .bfCommitApplied => 113
  | .bfTornEntry => 114
  | .bfSaturation => 115
  | .detBadRange => 128
  | .trgArmed => 136
  | .trgArmRefused => 137
  | .trgFireAccepted => 138
  | .trgCribSealed => 139
  | .trgPreShort => 140
  | .trgNoCrib => 141
  | .trgCribReadDone => 142
  | .trgCaptOverflow => 143
  | .memLayoutApplied => 160
  | .memLayoutRefused => 161
  | .memAllotRefused => 162
  | .memUe => 163
  | .memCaParity => 164
  | .memRepeatAddr => 165
  | .memScrubPass => 166
  | .memPcFailed => 167
  | .memGuaranteeMiss => 168
  | .timeSetRefused => 184
  | .timeStepped => 185
  | .timeQualityLow => 186
  | .timeQualityOk => 187
  | .timeSourceLost => 188
  | .timeBeforeOrigin => 189
  | .timeRefOutTol => 190
  | .timeRefGood => 191
  | .timeRefLost => 192
  | .timeRefSwitch => 193
  | .timeHoldover => 194
  | .timeTdcCalFail => 195
  | .timeTdcCalDone => 196
  | .timeTdcDone => 197
  | .timeTdcBadCfg => 198
  | .timePpsLost => 199
  | .timeTsqOverflow => 200
  | .bellMasterChange => 216
  | .bellClaimCollision => 217
  | .bellIdConflict => 218
  | .bellRingBreak => 219
  | .bellLinkLong => 220
  | .bellQueueDrop => 221
  | .bellSlotMargin => 222
  | .bellMuted => 223
  | .bellUnmuted => 224
  | .bellUnitDead => 225
  | .bellRoleConflict => 226
  | .bellStaleDrop => 227
  | .bellMsg => 228
  | .bellWrongRoleDrop => 229
  | .bellFenced => 230
  | .bellFireLate => 231
  | .bellCfgRefused => 232
  | .laneUp => 248
  | .laneDown => 249
  | .laneCfgRefused => 250
  | .laneRetrain => 251
  | .laneFailed => 252
  | .lanePortDegraded => 253
  | .laneFecUncorr => 254
  | .depBatchWithheld => 264
  | .depSramCe => 265
  | .depSramUe => 266
  | .depReeveLockstep => 267
  | .depReeveRestarted => 268
  | .depConfigCrc => 269
  | .stwStopped => 280
  | .stwFault => 281
  | .dmaDone => 292
  | .dmaAbort => 293
  | .dmaBusError => 294
  | .monEnabled => 295
  | .monUnlocked => 296
  | .monUnlockFail => 297
  | .monLockout => 298

/-- Severity encoded as ATTN.SEV (R338, Table 12-15): 1 info, 2 degraded, 3 fault. -/
def Event.sev : Event → Nat
  | .sysBootDone => 1
  | .sysFwUpdated => 1
  | .fabMasterDrained => 1
  | .thermNormal => 1
  | .ledgerRecovered => 1
  | .hifSplitDiscard => 1
  | .hifRingCfgRefused => 1
  | .ingWindowExpired => 1
  | .millMismatch => 1
  | .millResidue => 1
  | .millTransient => 1
  | .accWeightSat => 1
  | .accSweepDump => 1
  | .bfCommitApplied => 1
  | .bfSaturation => 1
  | .detBadRange => 1
  | .trgArmed => 1
  | .trgArmRefused => 1
  | .trgFireAccepted => 1
  | .trgCribSealed => 1
  | .trgPreShort => 1
  | .trgCribReadDone => 1
  | .trgCaptOverflow => 1
  | .memLayoutApplied => 1
  | .memLayoutRefused => 1
  | .memAllotRefused => 1
  | .memCaParity => 1
  | .memScrubPass => 1
  | .timeSetRefused => 1
  | .timeStepped => 1
  | .timeQualityOk => 1
  | .timeBeforeOrigin => 1
  | .timeRefGood => 1
  | .timeRefSwitch => 1
  | .timeTdcCalDone => 1
  | .timeTdcDone => 1
  | .timeTdcBadCfg => 1
  | .timeTsqOverflow => 1
  | .bellMasterChange => 1
  | .bellClaimCollision => 1
  | .bellUnmuted => 1
  | .bellStaleDrop => 1
  | .bellMsg => 1
  | .bellWrongRoleDrop => 1
  | .bellCfgRefused => 1
  | .laneUp => 1
  | .laneCfgRefused => 1
  | .laneRetrain => 1
  | .depSramCe => 1
  | .depReeveRestarted => 1
  | .stwStopped => 1
  | .dmaDone => 1
  | .monEnabled => 1
  | .monUnlocked => 1
  | .sysImageRejected => 2
  | .fabParity => 2
  | .sysVoltage => 2
  | .thermWarn => 2
  | .thermThrottle => 2
  | .ledgerWear => 2
  | .hifLinkDown => 2
  | .hifRingOverrun => 2
  | .hifDataOverrun => 2
  | .hifEgressShort => 2
  | .ingTornEntry => 2
  | .ingSlotConflict => 2
  | .ingBadEntry => 2
  | .thrTornEntry => 2
  | .thrBadEntry => 2
  | .millDeadlineMiss => 2
  | .millTileReplaced => 2
  | .millShadowReplaced => 2
  | .millStandbyLost => 2
  | .millCapacityLoss => 2
  | .millNoMajority => 2
  | .millSuspectRange => 2
  | .millRerunOverload => 2
  | .bfModelStale => 2
  | .bfTornEntry => 2
  | .trgNoCrib => 2
  | .memUe => 2
  | .memRepeatAddr => 2
  | .timeQualityLow => 2
  | .timeSourceLost => 2
  | .timeRefOutTol => 2
  | .timeRefLost => 2
  | .timeHoldover => 2
  | .timeTdcCalFail => 2
  | .timePpsLost => 2
  | .bellRingBreak => 2
  | .bellLinkLong => 2
  | .bellQueueDrop => 2
  | .bellSlotMargin => 2
  | .bellMuted => 2
  | .bellUnitDead => 2
  | .bellFireLate => 2
  | .laneDown => 2
  | .laneFailed => 2
  | .lanePortDegraded => 2
  | .laneFecUncorr => 2
  | .depBatchWithheld => 2
  | .depSramUe => 2
  | .depReeveLockstep => 2
  | .depConfigCrc => 2
  | .stwFault => 2
  | .dmaAbort => 2
  | .dmaBusError => 2
  | .monUnlockFail => 2
  | .monLockout => 2
  | .clkMonFault => 3
  | .pwrWarn => 3
  | .sysVoltageStop => 3
  | .thermShutdown => 3
  | .ledgerFail => 3
  | .hifEstop => 3
  | .millQuadOut => 3
  | .memPcFailed => 3
  | .memGuaranteeMiss => 3
  | .bellIdConflict => 3
  | .bellRoleConflict => 3
  | .bellFenced => 3

end Sys2Proof
end

