-- ==== Sys2Proof/Machine/Bits.lean ====
section
/-!
DEFINITION. Bit fields, byte orders, signed reading, exact rounding, square roots and checksums used by every family.
-/
namespace Sys2Proof

/-- A bit field: bits [hi:lo] of a payload or a descriptor word. -/
structure Fld where
  hi : Nat
  lo : Nat
  deriving DecidableEq, Repr

/-- Bits [hi:lo] of the number `x`. -/
def bitsOf (x hi lo : Nat) : Nat := (x / 2 ^ lo) % 2 ^ (hi + 1 - lo)

/-- The number `x` with bits [hi:lo] set to `v` (cut to the field). -/
def putBits (x hi lo v : Nat) : Nat :=
  x - bitsOf x hi lo * 2 ^ lo + (v % 2 ^ (hi + 1 - lo)) * 2 ^ lo

/-- Field `f` of a bit vector. -/
def fld {n : Nat} (f : Fld) (x : BitVec n) : Nat := bitsOf x.toNat f.hi f.lo

/-- The bit vector with field `f` set to `v`. -/
def setFld {n : Nat} (f : Fld) (v : Nat) (x : BitVec n) : BitVec n := BitVec.ofNat n (putBits x.toNat f.hi f.lo v)

/-- The bit vector whose ones are exactly field `f`. -/
def fldMask (n : Nat) (f : Fld) : BitVec n := setFld f (2 ^ (f.hi + 1 - f.lo) - 1) 0

/-- Bit `i` of a number. -/
def bitOf (x i : Nat) : Bool := bitsOf x i i = 1

/-- Two's complement reading of the low `n` bits of `x`. -/
def signedOf (n x : Nat) : Int :=
  let y := x % 2 ^ n
  if y < 2 ^ (n - 1) then (y : Int) else (y : Int) - 2 ^ n

/-- The low `n` bits of an integer, as a number. -/
def unsignedOf (n : Nat) (x : Int) : Nat := (x % (2 ^ n : Int)).toNat

/-- The integer held to the range of `n`-bit two's complement. -/
def saturate (n : Nat) (x : Int) : Int :=
  if x > 2 ^ (n - 1) - 1 then 2 ^ (n - 1) - 1 else if x < -(2 ^ (n - 1)) then -(2 ^ (n - 1)) else x

/-- The number held to the range of `n` unsigned bits. -/
def saturateNat (n x : Nat) : Nat := if x > 2 ^ n - 1 then 2 ^ n - 1 else x

/-- The integer held between two bounds. -/
def clampInt (lo hi x : Int) : Int := if x < lo then lo else if x > hi then hi else x

/-- Bytes of a number, least significant first. -/
def leBytes : Nat → Nat → List Byte
  | 0, _ => []
  | n + 1, x => BitVec.ofNat 8 x :: leBytes n (x / 256)

/-- Bytes of a number, most significant first. -/
def beBytes (n x : Nat) : List Byte := (leBytes n x).reverse

/-- The number whose bytes these are, least significant first. -/
def ofLe : List Byte → Nat
  | [] => 0
  | b :: bs => b.toNat + 256 * ofLe bs

/-- The number whose bytes these are, most significant first. -/
def ofBe (bs : List Byte) : Nat := ofLe bs.reverse

/-- `n` bytes of a list from position `i`, absent bytes reading 0. -/
def bytesAt (bs : List Byte) (i n : Nat) : List Byte := (List.range n).map fun j => bs.getD (i + j) 0

/-- The little-endian number in `n` bytes from position `i`. -/
def leAt (bs : List Byte) (i n : Nat) : Nat := ofLe (bytesAt bs i n)

/-- The big-endian number in `n` bytes from position `i`. -/
def beAt (bs : List Byte) (i n : Nat) : Nat := ofBe (bytesAt bs i n)

/-- Division rounded up. -/
def ceilDiv (a b : Nat) : Nat := (a + b - 1) / b

/-- Integer division rounded to the nearest, halves away from zero. -/
def divRound (a b : Int) : Int :=
  if 0 ≤ a then (2 * a + b) / (2 * b) else -((2 * (-a) + b) / (2 * b))

/-- Integer division rounded to the nearest, halves to the even neighbour. -/
def divRoundEven (a b : Int) : Int :=
  let q := a / b
  let r := a % b
  if 2 * r < b then q else if 2 * r > b then q + 1 else if q % 2 = 0 then q else q + 1

/-- The integer square root, one result bit a round. -/
def isqrtFrom : Nat → Nat → Nat → Nat
  | 0, _, r => r
  | k + 1, x, r => let t := r + 2 ^ k; isqrtFrom k x (if t * t ≤ x then t else r)

/-- The integer square root of a number below 2^128. -/
def isqrt (x : Nat) : Nat := isqrtFrom 64 x 0

/-- The number of bits of `x`: 0 for 0, else 1 + floor(log2 x). -/
def bitLenFrom : Nat → Nat → Nat
  | 0, _ => 0
  | k + 1, x => if x = 0 then 0 else 1 + bitLenFrom k (x / 2)

/-- The bit length of a number below 2^256. -/
def bitLen (x : Nat) : Nat := bitLenFrom 256 x

/-- floor(log2 x) for x > 0, and 0 for 0. -/
def log2Floor (x : Nat) : Nat := bitLen x - 1

/-- The number of one bits among the low `n` bits. -/
def popCount : Nat → Nat → Nat
  | 0, _ => 0
  | n + 1, x => x % 2 + popCount n (x / 2)

/-- One bit of an unreflected CRC of width `w`. -/
def crcStep (w poly : Nat) (c : Nat) (bit : Bool) : Nat :=
  let top := bitOf c (w - 1)
  let c' := (2 * c) % 2 ^ w
  if top != bit then Nat.xor c' poly else c'

/-- The bits of a byte, most significant first. -/
def bitsMsbFirst (b : Byte) : List Bool := (List.range 8).map fun i => bitOf b.toNat (7 - i)

/-- The bits of a byte, least significant first. -/
def bitsLsbFirst (b : Byte) : List Bool := (List.range 8).map fun i => bitOf b.toNat i

/-- An unreflected CRC over bytes, most significant bit of each first. -/
def crcMsb (w poly init fin : Nat) (bs : List Byte) : Nat :=
  Nat.xor ((bs.flatMap bitsMsbFirst).foldl (crcStep w poly) init) fin

/-- The bits [n-1:0] of a number in reverse order. -/
def revBits : Nat → Nat → Nat
  | 0, _ => 0
  | n + 1, x => (x % 2) * 2 ^ n + revBits n (x / 2)

/-- A reflected CRC over bytes, least significant bit of each first. -/
def crcLsb (w poly init fin : Nat) (bs : List Byte) : Nat :=
  Nat.xor (revBits w ((bs.flatMap bitsLsbFirst).foldl (crcStep w poly) init)) fin

/-- The CRC-8 of table entries (R52): polynomial x^8 + x^2 + x + 1, initial value all ones. -/
def crc8 (bs : List Byte) : Nat := crcMsb 8 0x07 0xFF 0 bs

/-- The CRC-64 of Mill signatures (R320). -/
def crc64 (bs : List Byte) : Nat := crcMsb 64 0x42F0E1EBA9EA3693 (2 ^ 64 - 1) (2 ^ 64 - 1) bs

/-- The frame check sequence of IEEE 802.3. -/
def crc32 (bs : List Byte) : Nat := crcLsb 32 0x04C11DB7 (2 ^ 32 - 1) (2 ^ 32 - 1) bs

/-- Put `a` into a list sorted by `key`, after the entries whose key is not above its own. -/
def insertBy {α : Type} (key : α → Nat) (a : α) : List α → List α
  | [] => [a]
  | b :: l => if key a < key b then a :: b :: l else b :: insertBy key a l

/-- A list sorted by `key`, entries of equal keys in their order. -/
def sortBy {α : Type} (key : α → Nat) (l : List α) : List α := l.foldl (fun m a => insertBy key a m) []

/-- The ones' complement sum of the 16-bit big-endian words of a byte list, carries folded. -/
def onesSum : List Byte → Nat
  | [] => 0
  | [a] => a.toNat * 256
  | a :: b :: bs => let t := a.toNat * 256 + b.toNat + onesSum bs; t % 65536 + t / 65536

end Sys2Proof
end

