-- ==== Sys2Proof/Machine/Regs.lean ====
section
/-!
DEFINITION. The registers: which they are, where BAR0 holds them, their fields, access codes and reset payloads.

Offsets are those of R405 and Tables 17-4, 17-6, 17-7 and 17-9; counters are those of R409. The field map of each register
is the table of its own chapter that the register map names.
-/
namespace Sys2Proof

/-- A 48-bit event counter (R61, R409). -/
inductive Counter where
  | hifEvtDrop
  | hifDataDrop
  | hifEgressDrop (x : Fin 8)
  | ingBadHdr
  | ingBadCsum
  | ingBadLen
  | ingNoPart
  | ingBadRange (x : Fin 8)
  | ingUnmapped (x : Fin 8)
  | ingClamp (x : Fin 8)
  | ingLate (x : Fin 8)
  | ingDup (x : Fin 8)
  | ingParkDrop (x : Fin 8)
  | ingShortBatch (x : Fin 8)
  | ingLowTq (x : Fin 8)
  | millDeadlineMiss (x : Fin 8)
  | millTransient (x : Fin 4)
  | accWsat (x : Fin 8)
  | accSwept (x : Fin 8)
  | accShort (x : Fin 8)
  | bfVsat (x : Fin 8)
  | bfPsat (x : Fin 8)
  | bfTorn (x : Fin 8)
  | bfStale (x : Fin 8)
  | bfLiveEdit (x : Fin 8)
  | detSat (x : Fin 8)
  | detRangeChg (x : Fin 8)
  | trgMerged
  | trgOutside
  | trgLate
  | trgNoCrib
  | memCe (x : Fin 4)
  | memUe (x : Fin 4)
  | memRepeat (x : Fin 4)
  | ptpDiscard
  | bellCrcErr (x : Fin 4)
  | bellDup
  | bellQueueDrop
  | bellStale
  | bellWrongRole
  | bellFenceDrop
  | laneFecCorr (x : Fin 8)
  | laneFecUncorr (x : Fin 8)
  | laneFcsErr (x : Fin 8)
  | laneOther (x : Fin 8)
  | laneCrcErr (x : Fin 64)
  | laneReplay (x : Fin 64)
  | laneRetrain (x : Fin 64)
  | lanePrbsErr (x : Fin 64)
  | depSramCe
  | depSramUe
  | depWithheld (x : Fin 8)
  | stwSumSkip
  | stwTapSkip
  deriving DecidableEq, Repr

/-- A register of BAR0 (R405). -/
inductive Reg where
  | sysId
  | sysSerialL
  | sysSerialH
  | sysFabricQos
  | sysReset
  | sysBootStatus
  | sysThermStatus
  | sysPower
  | hifDbBase
  | hifSumBase
  | hifPoll
  | hifNudge
  | hifAttnClr
  | hifAttnVec
  | hifEstop
  | ringBase (n : Fin 16384)
  | ringCfg (n : Fin 16384)
  | ringIdx (n : Fin 16384)
  | ingCfg
  | ingTableInval
  | millCapacity
  | millLoad
  | millQuadStatus (n : Fin 4)
  | millShadow (n : Fin 4)
  | accCfg
  | bfBankStatus
  | bfWsynLoad
  | detRangeSet
  | detChainLoad
  | trgCfg
  | trgCribStatus (n : Fin 4)
  | memLayout
  | memBudget
  | memAllot (n : Fin 3)
  | memPcStatus (n : Fin 4)
  | timeNowS
  | timeNowNs
  | timeSetS
  | timeSetNs
  | timeRate
  | timeSlew
  | timeCtl
  | timeRefCfg
  | timeRefStatus
  | timeXoCfg
  | timePpsCfg
  | timeTdcCtl
  | timeTdcStatus
  | timeTdcResult (n : Fin 8)
  | timePtpCfg
  | timePtpLat
  | timeTsqCfg
  | timeTsqHead (n : Fin 3)
  | timeTsqPop
  | bellCfg
  | bellStatus
  | bellFence
  | bellLink (n : Fin 4)
  | bellRole (n : Fin 8)
  | laneBellCfg
  | laneGroupCfg (n : Fin 8)
  | laneBellStatus (n : Fin 4)
  | laneCfg (n : Fin 64)
  | laneStatus (n : Fin 64)
  | depOutage
  | stwThrTap
  | stwStatus (n : Fin 8)
  | reeveCtl
  | dmaSrcL (n : Fin 32)
  | dmaSrcH (n : Fin 32)
  | dmaDstL (n : Fin 32)
  | dmaDstH (n : Fin 32)
  | dmaCount (n : Fin 32)
  | dmaCtl (n : Fin 32)
  | dmaStatus (n : Fin 32)
  | monCtl
  | monStatus
  | cnt (c : Counter)
  deriving DecidableEq, Repr

/-- The register's BAR0 offset (R405, R409). -/
def Counter.offset : Counter → Nat
  | .hifEvtDrop => 0x10038
  | .hifDataDrop => 0x10040
  | .hifEgressDrop x => 0x10080 + 8 * x.val
  | .ingBadHdr => 0x20100
  | .ingBadCsum => 0x20108
  | .ingBadLen => 0x20110
  | .ingNoPart => 0x20118
  | .ingBadRange x => 0x20200 + 8 * x.val
  | .ingUnmapped x => 0x20240 + 8 * x.val
  | .ingClamp x => 0x20280 + 8 * x.val
  | .ingLate x => 0x202C0 + 8 * x.val
  | .ingDup x => 0x20300 + 8 * x.val
  | .ingParkDrop x => 0x20340 + 8 * x.val
  | .ingShortBatch x => 0x20380 + 8 * x.val
  | .ingLowTq x => 0x203C0 + 8 * x.val
  | .millDeadlineMiss x => 0x40100 + 8 * x.val
  | .millTransient x => 0x40140 + 8 * x.val
  | .accWsat x => 0x50100 + 8 * x.val
  | .accSwept x => 0x50140 + 8 * x.val
  | .accShort x => 0x50180 + 8 * x.val
  | .bfVsat x => 0x60100 + 8 * x.val
  | .bfPsat x => 0x60140 + 8 * x.val
  | .bfTorn x => 0x60180 + 8 * x.val
  | .bfStale x => 0x601C0 + 8 * x.val
  | .bfLiveEdit x => 0x60200 + 8 * x.val
  | .detSat x => 0x70100 + 8 * x.val
  | .detRangeChg x => 0x70140 + 8 * x.val
  | .trgMerged => 0x80100
  | .trgOutside => 0x80108
  | .trgLate => 0x80110
  | .trgNoCrib => 0x80118
  | .memCe x => 0x90100 + 8 * x.val
  | .memUe x => 0x90140 + 8 * x.val
  | .memRepeat x => 0x90180 + 8 * x.val
  | .ptpDiscard => 0xA0110
  | .bellCrcErr x => 0xB0100 + 8 * x.val
  | .bellDup => 0xB0140
  | .bellQueueDrop => 0xB0148
  | .bellStale => 0xB0150
  | .bellWrongRole => 0xB0158
  | .bellFenceDrop => 0xB0160
  | .laneFecCorr x => 0xC0100 + 8 * x.val
  | .laneFecUncorr x => 0xC0140 + 8 * x.val
  | .laneFcsErr x => 0xC0180 + 8 * x.val
  | .laneOther x => 0xC01C0 + 8 * x.val
  | .laneCrcErr x => 0xC2000 + 8 * x.val
  | .laneReplay x => 0xC2200 + 8 * x.val
  | .laneRetrain x => 0xC2400 + 8 * x.val
  | .lanePrbsErr x => 0xC2600 + 8 * x.val
  | .depSramCe => 0xD0008
  | .depSramUe => 0xD0010
  | .depWithheld x => 0xD0100 + 8 * x.val
  | .stwSumSkip => 0xE0008
  | .stwTapSkip => 0xE0010

/-- The register's BAR0 offset (R405). -/
def Reg.offset : Reg → Nat
  | .sysId => 0x0
  | .sysSerialL => 0x8
  | .sysSerialH => 0x10
  | .sysFabricQos => 0x18
  | .sysReset => 0x20
  | .sysBootStatus => 0x28
  | .sysThermStatus => 0x30
  | .sysPower => 0x38
  | .hifDbBase => 0x10000
  | .hifSumBase => 0x10008
  | .hifPoll => 0x10010
  | .hifNudge => 0x10018
  | .hifAttnClr => 0x10020
  | .hifAttnVec => 0x10028
  | .hifEstop => 0x10030
  | .ringBase n => 0x800000 + 32 * n.val
  | .ringCfg n => 0x800008 + 32 * n.val
  | .ringIdx n => 0x800010 + 32 * n.val
  | .ingCfg => 0x20000
  | .ingTableInval => 0x20008
  | .millCapacity => 0x40000
  | .millLoad => 0x40008
  | .millQuadStatus n => 0x40040 + 8 * n.val
  | .millShadow n => 0x40060 + 8 * n.val
  | .accCfg => 0x50000
  | .bfBankStatus => 0x60000
  | .bfWsynLoad => 0x60008
  | .detRangeSet => 0x70000
  | .detChainLoad => 0x70008
  | .trgCfg => 0x80000
  | .trgCribStatus n => 0x80040 + 8 * n.val
  | .memLayout => 0x90000
  | .memBudget => 0x90008
  | .memAllot n => 0x90040 + 8 * n.val
  | .memPcStatus n => 0x90080 + 8 * n.val
  | .timeNowS => 0xA0000
  | .timeNowNs => 0xA0008
  | .timeSetS => 0xA0010
  | .timeSetNs => 0xA0018
  | .timeRate => 0xA0020
  | .timeSlew => 0xA0028
  | .timeCtl => 0xA0030
  | .timeRefCfg => 0xA0040
  | .timeRefStatus => 0xA0048
  | .timeXoCfg => 0xA0050
  | .timePpsCfg => 0xA0058
  | .timeTdcCtl => 0xA0080
  | .timeTdcStatus => 0xA0088
  | .timeTdcResult n => 0xA0090 + 8 * n.val
  | .timePtpCfg => 0xA0100
  | .timePtpLat => 0xA0108
  | .timeTsqCfg => 0xA0140
  | .timeTsqHead n => 0xA0148 + 8 * n.val
  | .timeTsqPop => 0xA0160
  | .bellCfg => 0xB0000
  | .bellStatus => 0xB0008
  | .bellFence => 0xB0010
  | .bellLink n => 0xB0040 + 8 * n.val
  | .bellRole n => 0xB0080 + 8 * n.val
  | .laneBellCfg => 0xC0000
  | .laneGroupCfg n => 0xC0040 + 8 * n.val
  | .laneBellStatus n => 0xC0080 + 8 * n.val
  | .laneCfg n => 0xC1000 + 8 * n.val
  | .laneStatus n => 0xC1200 + 8 * n.val
  | .depOutage => 0xD0000
  | .stwThrTap => 0xE0000
  | .stwStatus n => 0xE0040 + 8 * n.val
  | .reeveCtl => 0xF0000
  | .dmaSrcL n => 0x100000 + 64 * n.val
  | .dmaSrcH n => 0x100008 + 64 * n.val
  | .dmaDstL n => 0x100010 + 64 * n.val
  | .dmaDstH n => 0x100018 + 64 * n.val
  | .dmaCount n => 0x100020 + 64 * n.val
  | .dmaCtl n => 0x100028 + 64 * n.val
  | .dmaStatus n => 0x100030 + 64 * n.val
  | .monCtl => 0x110000
  | .monStatus => 0x110008
  | .cnt c => c.offset

/-- Member `i` of a family of `n` registers from `base`, `stride` apart, when `o` is its offset. -/
def famIdx (base stride n o : Nat) : Option (Fin n) :=
  if base ≤ o ∧ (o - base) % stride = 0 then
    if h : (o - base) / stride < n then some ⟨(o - base) / stride, h⟩ else none
  else none

/-- The first answer of a list of answers. -/
def firstSome {α : Type} : List (Option α) → Option α
  | [] => none
  | some a :: _ => some a
  | none :: l => firstSome l

/-- The register `r` when `o` is its offset. -/
def onlyAt {α : Type} (base : Nat) (r : α) (o : Nat) : Option α := if o = base then some r else none

/-- The counter at a BAR0 offset. -/
def Counter.ofOffset (o : Nat) : Option Counter :=
  firstSome [
    onlyAt 0x10038 Counter.hifEvtDrop o,
    onlyAt 0x10040 Counter.hifDataDrop o,
    (famIdx 0x10080 8 8 o).map Counter.hifEgressDrop,
    onlyAt 0x20100 Counter.ingBadHdr o,
    onlyAt 0x20108 Counter.ingBadCsum o,
    onlyAt 0x20110 Counter.ingBadLen o,
    onlyAt 0x20118 Counter.ingNoPart o,
    (famIdx 0x20200 8 8 o).map Counter.ingBadRange,
    (famIdx 0x20240 8 8 o).map Counter.ingUnmapped,
    (famIdx 0x20280 8 8 o).map Counter.ingClamp,
    (famIdx 0x202C0 8 8 o).map Counter.ingLate,
    (famIdx 0x20300 8 8 o).map Counter.ingDup,
    (famIdx 0x20340 8 8 o).map Counter.ingParkDrop,
    (famIdx 0x20380 8 8 o).map Counter.ingShortBatch,
    (famIdx 0x203C0 8 8 o).map Counter.ingLowTq,
    (famIdx 0x40100 8 8 o).map Counter.millDeadlineMiss,
    (famIdx 0x40140 8 4 o).map Counter.millTransient,
    (famIdx 0x50100 8 8 o).map Counter.accWsat,
    (famIdx 0x50140 8 8 o).map Counter.accSwept,
    (famIdx 0x50180 8 8 o).map Counter.accShort,
    (famIdx 0x60100 8 8 o).map Counter.bfVsat,
    (famIdx 0x60140 8 8 o).map Counter.bfPsat,
    (famIdx 0x60180 8 8 o).map Counter.bfTorn,
    (famIdx 0x601C0 8 8 o).map Counter.bfStale,
    (famIdx 0x60200 8 8 o).map Counter.bfLiveEdit,
    (famIdx 0x70100 8 8 o).map Counter.detSat,
    (famIdx 0x70140 8 8 o).map Counter.detRangeChg,
    onlyAt 0x80100 Counter.trgMerged o,
    onlyAt 0x80108 Counter.trgOutside o,
    onlyAt 0x80110 Counter.trgLate o,
    onlyAt 0x80118 Counter.trgNoCrib o,
    (famIdx 0x90100 8 4 o).map Counter.memCe,
    (famIdx 0x90140 8 4 o).map Counter.memUe,
    (famIdx 0x90180 8 4 o).map Counter.memRepeat,
    onlyAt 0xA0110 Counter.ptpDiscard o,
    (famIdx 0xB0100 8 4 o).map Counter.bellCrcErr,
    onlyAt 0xB0140 Counter.bellDup o,
    onlyAt 0xB0148 Counter.bellQueueDrop o,
    onlyAt 0xB0150 Counter.bellStale o,
    onlyAt 0xB0158 Counter.bellWrongRole o,
    onlyAt 0xB0160 Counter.bellFenceDrop o,
    (famIdx 0xC0100 8 8 o).map Counter.laneFecCorr,
    (famIdx 0xC0140 8 8 o).map Counter.laneFecUncorr,
    (famIdx 0xC0180 8 8 o).map Counter.laneFcsErr,
    (famIdx 0xC01C0 8 8 o).map Counter.laneOther,
    (famIdx 0xC2000 8 64 o).map Counter.laneCrcErr,
    (famIdx 0xC2200 8 64 o).map Counter.laneReplay,
    (famIdx 0xC2400 8 64 o).map Counter.laneRetrain,
    (famIdx 0xC2600 8 64 o).map Counter.lanePrbsErr,
    onlyAt 0xD0008 Counter.depSramCe o,
    onlyAt 0xD0010 Counter.depSramUe o,
    (famIdx 0xD0100 8 8 o).map Counter.depWithheld,
    onlyAt 0xE0008 Counter.stwSumSkip o,
    onlyAt 0xE0010 Counter.stwTapSkip o]

/-- The register at a BAR0 offset: the blocks of Table 17-1, then the ring contexts. -/
def Reg.ofOffset (o : Nat) : Option Reg :=
  firstSome [
    onlyAt 0x0 Reg.sysId o,
    onlyAt 0x8 Reg.sysSerialL o,
    onlyAt 0x10 Reg.sysSerialH o,
    onlyAt 0x18 Reg.sysFabricQos o,
    onlyAt 0x20 Reg.sysReset o,
    onlyAt 0x28 Reg.sysBootStatus o,
    onlyAt 0x30 Reg.sysThermStatus o,
    onlyAt 0x38 Reg.sysPower o,
    onlyAt 0x10000 Reg.hifDbBase o,
    onlyAt 0x10008 Reg.hifSumBase o,
    onlyAt 0x10010 Reg.hifPoll o,
    onlyAt 0x10018 Reg.hifNudge o,
    onlyAt 0x10020 Reg.hifAttnClr o,
    onlyAt 0x10028 Reg.hifAttnVec o,
    onlyAt 0x10030 Reg.hifEstop o,
    (famIdx 0x800000 32 16384 o).map Reg.ringBase,
    (famIdx 0x800008 32 16384 o).map Reg.ringCfg,
    (famIdx 0x800010 32 16384 o).map Reg.ringIdx,
    onlyAt 0x20000 Reg.ingCfg o,
    onlyAt 0x20008 Reg.ingTableInval o,
    onlyAt 0x40000 Reg.millCapacity o,
    onlyAt 0x40008 Reg.millLoad o,
    (famIdx 0x40040 8 4 o).map Reg.millQuadStatus,
    (famIdx 0x40060 8 4 o).map Reg.millShadow,
    onlyAt 0x50000 Reg.accCfg o,
    onlyAt 0x60000 Reg.bfBankStatus o,
    onlyAt 0x60008 Reg.bfWsynLoad o,
    onlyAt 0x70000 Reg.detRangeSet o,
    onlyAt 0x70008 Reg.detChainLoad o,
    onlyAt 0x80000 Reg.trgCfg o,
    (famIdx 0x80040 8 4 o).map Reg.trgCribStatus,
    onlyAt 0x90000 Reg.memLayout o,
    onlyAt 0x90008 Reg.memBudget o,
    (famIdx 0x90040 8 3 o).map Reg.memAllot,
    (famIdx 0x90080 8 4 o).map Reg.memPcStatus,
    onlyAt 0xA0000 Reg.timeNowS o,
    onlyAt 0xA0008 Reg.timeNowNs o,
    onlyAt 0xA0010 Reg.timeSetS o,
    onlyAt 0xA0018 Reg.timeSetNs o,
    onlyAt 0xA0020 Reg.timeRate o,
    onlyAt 0xA0028 Reg.timeSlew o,
    onlyAt 0xA0030 Reg.timeCtl o,
    onlyAt 0xA0040 Reg.timeRefCfg o,
    onlyAt 0xA0048 Reg.timeRefStatus o,
    onlyAt 0xA0050 Reg.timeXoCfg o,
    onlyAt 0xA0058 Reg.timePpsCfg o,
    onlyAt 0xA0080 Reg.timeTdcCtl o,
    onlyAt 0xA0088 Reg.timeTdcStatus o,
    (famIdx 0xA0090 8 8 o).map Reg.timeTdcResult,
    onlyAt 0xA0100 Reg.timePtpCfg o,
    onlyAt 0xA0108 Reg.timePtpLat o,
    onlyAt 0xA0140 Reg.timeTsqCfg o,
    (famIdx 0xA0148 8 3 o).map Reg.timeTsqHead,
    onlyAt 0xA0160 Reg.timeTsqPop o,
    onlyAt 0xB0000 Reg.bellCfg o,
    onlyAt 0xB0008 Reg.bellStatus o,
    onlyAt 0xB0010 Reg.bellFence o,
    (famIdx 0xB0040 8 4 o).map Reg.bellLink,
    (famIdx 0xB0080 8 8 o).map Reg.bellRole,
    onlyAt 0xC0000 Reg.laneBellCfg o,
    (famIdx 0xC0040 8 8 o).map Reg.laneGroupCfg,
    (famIdx 0xC0080 8 4 o).map Reg.laneBellStatus,
    (famIdx 0xC1000 8 64 o).map Reg.laneCfg,
    (famIdx 0xC1200 8 64 o).map Reg.laneStatus,
    onlyAt 0xD0000 Reg.depOutage o,
    onlyAt 0xE0000 Reg.stwThrTap o,
    (famIdx 0xE0040 8 8 o).map Reg.stwStatus,
    onlyAt 0xF0000 Reg.reeveCtl o,
    (famIdx 0x100000 64 32 o).map Reg.dmaSrcL,
    (famIdx 0x100008 64 32 o).map Reg.dmaSrcH,
    (famIdx 0x100010 64 32 o).map Reg.dmaDstL,
    (famIdx 0x100018 64 32 o).map Reg.dmaDstH,
    (famIdx 0x100020 64 32 o).map Reg.dmaCount,
    (famIdx 0x100028 64 32 o).map Reg.dmaCtl,
    (famIdx 0x100030 64 32 o).map Reg.dmaStatus,
    onlyAt 0x110000 Reg.monCtl o,
    onlyAt 0x110008 Reg.monStatus o,
    (Counter.ofOffset o).map Reg.cnt]

/-- The payload after a reset of the register's block; fields loaded from a fuse or the Ledger read 0 here. -/
def Reg.reset : Reg → Payload
  | .sysId => 0x4096A100
  | .sysFabricQos => 0x6A4
  | .sysPower => 0x2
  | .hifPoll => 0x8
  | .ringCfg _ => 0x48000000000
  | .ingCfg => 0x35746
  | .millCapacity => 0x7CFFFFF
  | .millQuadStatus _ => 0x2180FFFFFFFF
  | .accCfg => 0x32
  | .trgCfg => 0x105
  | .memLayout => 0x191180020
  | .memBudget => 0x4F7E03ABF1
  | .memAllot _ => 0x4000008
  | .timeCtl => 0xAF0001000000
  | .timeRefCfg => 0x320A0A3C0C
  | .timeXoCfg => 0xA000000
  | .timePpsCfg => 0xA80
  | .timePtpCfg => 0x202000400
  | .bellCfg => 0x3820C0000
  | .laneCfg _ => 0xE000
  | .dmaCtl _ => 0x800
  | .sysSerialL => 0
  | .sysSerialH => 0
  | .sysReset => 0
  | .sysBootStatus => 0
  | .sysThermStatus => 0
  | .hifDbBase => 0
  | .hifSumBase => 0
  | .hifNudge => 0
  | .hifAttnClr => 0
  | .hifAttnVec => 0
  | .hifEstop => 0
  | .ringBase _ => 0
  | .ringIdx _ => 0
  | .ingTableInval => 0
  | .millLoad => 0
  | .millShadow _ => 0
  | .bfBankStatus => 0
  | .bfWsynLoad => 0
  | .detRangeSet => 0
  | .detChainLoad => 0
  | .trgCribStatus _ => 0
  | .memPcStatus _ => 0
  | .timeNowS => 0
  | .timeNowNs => 0
  | .timeSetS => 0
  | .timeSetNs => 0
  | .timeRate => 0
  | .timeSlew => 0
  | .timeRefStatus => 0
  | .timeTdcCtl => 0
  | .timeTdcStatus => 0
  | .timeTdcResult _ => 0
  | .timePtpLat => 0
  | .timeTsqCfg => 0
  | .timeTsqHead _ => 0
  | .timeTsqPop => 0
  | .bellStatus => 0
  | .bellFence => 0
  | .bellLink _ => 0
  | .bellRole _ => 0
  | .laneBellCfg => 0
  | .laneGroupCfg _ => 0
  | .laneBellStatus _ => 0
  | .laneStatus _ => 0
  | .depOutage => 0
  | .stwThrTap => 0
  | .stwStatus _ => 0
  | .reeveCtl => 0
  | .dmaSrcL _ => 0
  | .dmaSrcH _ => 0
  | .dmaDstL _ => 0
  | .dmaDstH _ => 0
  | .dmaCount _ => 0
  | .dmaStatus _ => 0
  | .monCtl => 0
  | .monStatus => 0
  | .cnt _ => 0

/-- The bits a write stores: the fields with access RW (R9, R408). -/
def Reg.rwMask : Reg → Payload
  | .sysId => 0x0
  | .sysSerialL => 0x0
  | .sysSerialH => 0x0
  | .sysFabricQos => 0xFFF
  | .sysReset => 0x0
  | .sysBootStatus => 0x0
  | .sysThermStatus => 0x0
  | .sysPower => 0x1
  | .hifDbBase => 0xFFFFFFFFFFFF
  | .hifSumBase => 0xFFFFFFFFFFFF
  | .hifPoll => 0x1FFFFF
  | .hifNudge => 0x0
  | .hifAttnClr => 0x0
  | .hifAttnVec => 0xFFF
  | .hifEstop => 0x0
  | .ringBase _ => 0xFFFFFFFFFFFF
  | .ringCfg _ => 0xFFFFFFFFFF80
  | .ringIdx _ => 0xFFFFFFFF
  | .ingCfg => 0x3FFFF
  | .ingTableInval => 0x0
  | .millCapacity => 0x0
  | .millLoad => 0x0
  | .millQuadStatus _ => 0x0
  | .millShadow _ => 0x0
  | .accCfg => 0x3FF
  | .bfBankStatus => 0x0
  | .bfWsynLoad => 0x0
  | .detRangeSet => 0x0
  | .detChainLoad => 0x0
  | .trgCfg => 0x1FF
  | .trgCribStatus _ => 0x0
  | .memLayout => 0x3FFFFFFFF
  | .memBudget => 0x0
  | .memAllot _ => 0xFFFFFFFF
  | .memPcStatus _ => 0x0
  | .timeNowS => 0x0
  | .timeNowNs => 0x0
  | .timeSetS => 0xFFFFFFFFFFFF
  | .timeSetNs => 0x3FFFFFFFFFFF
  | .timeRate => 0xFFFFFFFF
  | .timeSlew => 0xFFFFFFFFFF
  | .timeCtl => 0xFF000FD00000
  | .timeRefCfg => 0xFFFFFFFFFC
  | .timeRefStatus => 0x0
  | .timeXoCfg => 0xFFFFFF000000
  | .timePpsCfg => 0xFFFFFFFFFFC0
  | .timeTdcCtl => 0xFFFFFFFFFFF8
  | .timeTdcStatus => 0x0
  | .timeTdcResult _ => 0x0
  | .timePtpCfg => 0xFFFFFFFFFFC0
  | .timePtpLat => 0xFFFFFFFFFFFF
  | .timeTsqCfg => 0x1FFFF
  | .timeTsqHead _ => 0x0
  | .timeTsqPop => 0x0
  | .bellCfg => 0xFFFFFFFF0000
  | .bellStatus => 0x0
  | .bellFence => 0x0
  | .bellLink _ => 0x0
  | .bellRole _ => 0x0
  | .laneBellCfg => 0xF
  | .laneGroupCfg _ => 0x1FF
  | .laneBellStatus _ => 0x0
  | .laneCfg _ => 0xFFF8
  | .laneStatus _ => 0x0
  | .depOutage => 0x0
  | .stwThrTap => 0x3FFFF
  | .stwStatus _ => 0x0
  | .reeveCtl => 0x0
  | .dmaSrcL _ => 0xFFFFFFFFFFFF
  | .dmaSrcH _ => 0xFFFF
  | .dmaDstL _ => 0xFFFFFFFFFFFF
  | .dmaDstH _ => 0xFFFF
  | .dmaCount _ => 0xFFFFFFFF
  | .dmaCtl _ => 0xF90
  | .dmaStatus _ => 0x0
  | .monCtl => 0x0
  | .monStatus => 0x0
  | .cnt _ => 0

/-- The bits a write of 1 requests: the fields with access RW1S. -/
def Reg.rw1sMask : Reg → Payload
  | .timeCtl => 0x200000
  | .timeTdcCtl => 0x3
  | .timeTsqCfg => 0x400000
  | .reeveCtl => 0x1
  | .dmaCtl _ => 0x3
  | .monCtl => 0x1
  | .sysId => 0
  | .sysSerialL => 0
  | .sysSerialH => 0
  | .sysFabricQos => 0
  | .sysReset => 0
  | .sysBootStatus => 0
  | .sysThermStatus => 0
  | .sysPower => 0
  | .hifDbBase => 0
  | .hifSumBase => 0
  | .hifPoll => 0
  | .hifNudge => 0
  | .hifAttnClr => 0
  | .hifAttnVec => 0
  | .hifEstop => 0
  | .ringBase _ => 0
  | .ringCfg _ => 0
  | .ringIdx _ => 0
  | .ingCfg => 0
  | .ingTableInval => 0
  | .millCapacity => 0
  | .millLoad => 0
  | .millQuadStatus _ => 0
  | .millShadow _ => 0
  | .accCfg => 0
  | .bfBankStatus => 0
  | .bfWsynLoad => 0
  | .detRangeSet => 0
  | .detChainLoad => 0
  | .trgCfg => 0
  | .trgCribStatus _ => 0
  | .memLayout => 0
  | .memBudget => 0
  | .memAllot _ => 0
  | .memPcStatus _ => 0
  | .timeNowS => 0
  | .timeNowNs => 0
  | .timeSetS => 0
  | .timeSetNs => 0
  | .timeRate => 0
  | .timeSlew => 0
  | .timeRefCfg => 0
  | .timeRefStatus => 0
  | .timeXoCfg => 0
  | .timePpsCfg => 0
  | .timeTdcStatus => 0
  | .timeTdcResult _ => 0
  | .timePtpCfg => 0
  | .timePtpLat => 0
  | .timeTsqHead _ => 0
  | .timeTsqPop => 0
  | .bellCfg => 0
  | .bellStatus => 0
  | .bellFence => 0
  | .bellLink _ => 0
  | .bellRole _ => 0
  | .laneBellCfg => 0
  | .laneGroupCfg _ => 0
  | .laneBellStatus _ => 0
  | .laneCfg _ => 0
  | .laneStatus _ => 0
  | .depOutage => 0
  | .stwThrTap => 0
  | .stwStatus _ => 0
  | .dmaSrcL _ => 0
  | .dmaSrcH _ => 0
  | .dmaDstL _ => 0
  | .dmaDstH _ => 0
  | .dmaCount _ => 0
  | .dmaStatus _ => 0
  | .monStatus => 0
  | .cnt _ => 0

/-- `SYS_ID.PART`. -/
def fSysIdPart : Fld := ⟨31, 16⟩
/-- `SYS_ID.REV`. -/
def fSysIdRev : Fld := ⟨15, 8⟩
/-- `SYS_ID.GRADE`. -/
def fSysIdGrade : Fld := ⟨0, 0⟩
/-- `SYS_SERIAL_L.SERIAL_L`. -/
def fSysSerialLSerialL : Fld := ⟨47, 0⟩
/-- `SYS_SERIAL_H.SERIAL_H`. -/
def fSysSerialHSerialH : Fld := ⟨15, 0⟩
/-- `SYS_FABRIC_QOS.HOST_QOS`. -/
def fSysFabricQosHostQos : Fld := ⟨11, 8⟩
/-- `SYS_FABRIC_QOS.STW_QOS`. -/
def fSysFabricQosStwQos : Fld := ⟨7, 4⟩
/-- `SYS_FABRIC_QOS.CAPRD_QOS`. -/
def fSysFabricQosCaprdQos : Fld := ⟨3, 0⟩
/-- `SYS_RESET.KEY`. -/
def fSysResetKey : Fld := ⟨31, 0⟩
/-- `SYS_BOOT_STATUS.ERROR`. -/
def fSysBootStatusError : Fld := ⟨47, 40⟩
/-- `SYS_BOOT_STATUS.SVN_MIN`. -/
def fSysBootStatusSvnMin : Fld := ⟨39, 33⟩
/-- `SYS_BOOT_STATUS.LAST_CAUSE`. -/
def fSysBootStatusLastCause : Fld := ⟨32, 30⟩
/-- `SYS_BOOT_STATUS.STAGE`. -/
def fSysBootStatusStage : Fld := ⟨29, 26⟩
/-- `SYS_BOOT_STATUS.SLOT`. -/
def fSysBootStatusSlot : Fld := ⟨25, 25⟩
/-- `SYS_BOOT_STATUS.VERSION`. -/
def fSysBootStatusVersion : Fld := ⟨24, 9⟩
/-- `SYS_THERM_STATUS.STATE`. -/
def fSysThermStatusState : Fld := ⟨47, 46⟩
/-- `SYS_THERM_STATUS.STEP`. -/
def fSysThermStatusStep : Fld := ⟨45, 44⟩
/-- `SYS_THERM_STATUS.SENSOR`. -/
def fSysThermStatusSensor : Fld := ⟨43, 39⟩
/-- `SYS_THERM_STATUS.TJ`. -/
def fSysThermStatusTj : Fld := ⟨38, 26⟩
/-- `SYS_POWER.STATE`. -/
def fSysPowerState : Fld := ⟨2, 1⟩
/-- `SYS_POWER.REQ`. -/
def fSysPowerReq : Fld := ⟨0, 0⟩
/-- `HIF_DB_BASE.ADDR`. -/
def fHifDbBaseAddr : Fld := ⟨47, 0⟩
/-- `HIF_SUM_BASE.ADDR`. -/
def fHifSumBaseAddr : Fld := ⟨47, 0⟩
/-- `HIF_POLL.EN`. -/
def fHifPollEn : Fld := ⟨20, 20⟩
/-- `HIF_POLL.SCAN`. -/
def fHifPollScan : Fld := ⟨19, 19⟩
/-- `HIF_POLL.IRQ_MOD`. -/
def fHifPollIrqMod : Fld := ⟨18, 8⟩
/-- `HIF_POLL.INTERVAL`. -/
def fHifPollInterval : Fld := ⟨7, 0⟩
/-- `HIF_ATTN_CLR.WITHHELD`. -/
def fHifAttnClrWithheld : Fld := ⟨1, 1⟩
/-- `HIF_ATTN_CLR.SEV`. -/
def fHifAttnClrSev : Fld := ⟨0, 0⟩
/-- `HIF_ATTN_VEC.EN`. -/
def fHifAttnVecEn : Fld := ⟨11, 11⟩
/-- `HIF_ATTN_VEC.VEC`. -/
def fHifAttnVecVec : Fld := ⟨10, 0⟩
/-- `HIF_ESTOP.KEY`. -/
def fHifEstopKey : Fld := ⟨31, 0⟩
/-- `HIF_RING_n_BASE.ADDR`. -/
def fRingBaseAddr : Fld := ⟨47, 0⟩
/-- `HIF_RING_n_CFG.EN`. -/
def fRingCfgEn : Fld := ⟨47, 47⟩
/-- `HIF_RING_n_CFG.TYPE`. -/
def fRingCfgType : Fld := ⟨46, 45⟩
/-- `HIF_RING_n_CFG.LOG2`. -/
def fRingCfgLog2 : Fld := ⟨44, 40⟩
/-- `HIF_RING_n_CFG.GROUP`. -/
def fRingCfgGroup : Fld := ⟨39, 36⟩
/-- `HIF_RING_n_CFG.SLOT_LOG2`. -/
def fRingCfgSlotLog2 : Fld := ⟨35, 33⟩
/-- `HIF_RING_n_CFG.IRQ_EN`. -/
def fRingCfgIrqEn : Fld := ⟨32, 32⟩
/-- `HIF_RING_n_CFG.VEC`. -/
def fRingCfgVec : Fld := ⟨31, 21⟩
/-- `HIF_RING_n_CFG.CPL_RING`. -/
def fRingCfgCplRing : Fld := ⟨20, 7⟩
/-- `HIF_RING_n_IDX.IDX`. -/
def fRingIdxIdx : Fld := ⟨31, 0⟩
/-- `ING_CFG.V2_EN`. -/
def fIngCfgV2En : Fld := ⟨17, 17⟩
/-- `ING_CFG.V1_EN`. -/
def fIngCfgV1En : Fld := ⟨16, 16⟩
/-- `ING_CFG.UDP_PORT`. -/
def fIngCfgUdpPort : Fld := ⟨15, 0⟩
/-- `ING_TABLE_INVAL.TABLE`. -/
def fIngTableInvalTable : Fld := ⟨16, 16⟩
/-- `ING_TABLE_INVAL.ALL`. -/
def fIngTableInvalAll : Fld := ⟨15, 15⟩
/-- `ING_TABLE_INVAL.PART`. -/
def fIngTableInvalPart : Fld := ⟨14, 12⟩
/-- `ING_TABLE_INVAL.INDEX`. -/
def fIngTableInvalIndex : Fld := ⟨11, 0⟩
/-- `MILL_CAPACITY.SCHED_TILES`. -/
def fMillCapacitySchedTiles : Fld := ⟨27, 20⟩
/-- `MILL_CAPACITY.S_Q3`. -/
def fMillCapacitySQ3 : Fld := ⟨19, 15⟩
/-- `MILL_CAPACITY.S_Q2`. -/
def fMillCapacitySQ2 : Fld := ⟨14, 10⟩
/-- `MILL_CAPACITY.S_Q1`. -/
def fMillCapacitySQ1 : Fld := ⟨9, 5⟩
/-- `MILL_CAPACITY.S_Q0`. -/
def fMillCapacitySQ0 : Fld := ⟨4, 0⟩
/-- `MILL_LOAD.ADMITTED`. -/
def fMillLoadAdmitted : Fld := ⟨31, 0⟩
/-- `MILL_QUAD_STATUS_q.MODE`. -/
def fMillQuadStatusMode : Fld := ⟨47, 46⟩
/-- `MILL_QUAD_STATUS_q.STANDBY`. -/
def fMillQuadStatusStandby : Fld := ⟨45, 40⟩
/-- `MILL_QUAD_STATUS_q.SHADOW`. -/
def fMillQuadStatusShadow : Fld := ⟨39, 34⟩
/-- `MILL_QUAD_STATUS_q.IN_SERVICE`. -/
def fMillQuadStatusInService : Fld := ⟨33, 0⟩
/-- `MILL_SHADOW_q.SHADOWED`. -/
def fMillShadowShadowed : Fld := ⟨47, 42⟩
/-- `MILL_SHADOW_q.RERUN`. -/
def fMillShadowRerun : Fld := ⟨41, 41⟩
/-- `MILL_SHADOW_q.LAG`. -/
def fMillShadowLag : Fld := ⟨40, 25⟩
/-- `MILL_SHADOW_q.WINDOWS`. -/
def fMillShadowWindows : Fld := ⟨24, 9⟩
/-- `ACC_CFG.SWEEP_DELAY`. -/
def fAccCfgSweepDelay : Fld := ⟨9, 0⟩
/-- `BF_BANK_STATUS.PENDING`. -/
def fBfBankStatusPending : Fld := ⟨15, 8⟩
/-- `BF_BANK_STATUS.ACTIVE`. -/
def fBfBankStatusActive : Fld := ⟨7, 0⟩
/-- `BF_WSYN_LOAD.ADMITTED`. -/
def fBfWsynLoadAdmitted : Fld := ⟨31, 0⟩
/-- `DET_RANGE_SET.RANGE`. -/
def fDetRangeSetRange : Fld := ⟨16, 11⟩
/-- `DET_RANGE_SET.ENTRY`. -/
def fDetRangeSetEntry : Fld := ⟨10, 0⟩
/-- `DET_CHAIN_LOAD.INSTANCES`. -/
def fDetChainLoadInstances : Fld := ⟨44, 22⟩
/-- `DET_CHAIN_LOAD.RATE`. -/
def fDetChainLoadRate : Fld := ⟨21, 0⟩
/-- `TRG_CFG.TRIG_OUT_EN`. -/
def fTrgCfgTrigOutEn : Fld := ⟨8, 8⟩
/-- `TRG_CFG.SETTLE`. -/
def fTrgCfgSettle : Fld := ⟨7, 0⟩
/-- `TRG_CRIB_STATUS_c.TRIGGER_ID`. -/
def fTrgCribStatusTriggerId : Fld := ⟨47, 32⟩
/-- `TRG_CRIB_STATUS_c.EVENT_SEQ`. -/
def fTrgCribStatusEventSeq : Fld := ⟨31, 16⟩
/-- `TRG_CRIB_STATUS_c.PRE_SHORT`. -/
def fTrgCribStatusPreShort : Fld := ⟨10, 10⟩
/-- `TRG_CRIB_STATUS_c.READ_PCT`. -/
def fTrgCribStatusReadPct : Fld := ⟨9, 3⟩
/-- `TRG_CRIB_STATUS_c.STATE`. -/
def fTrgCribStatusState : Fld := ⟨2, 0⟩
/-- `MEM_LAYOUT.CAPT_GRAIN`. -/
def fMemLayoutCaptGrain : Fld := ⟨33, 30⟩
/-- `MEM_LAYOUT.GRAN_GRAIN`. -/
def fMemLayoutGranGrain : Fld := ⟨29, 26⟩
/-- `MEM_LAYOUT.SYS_GRAIN`. -/
def fMemLayoutSysGrain : Fld := ⟨25, 22⟩
/-- `MEM_LAYOUT.GRAN_MIB`. -/
def fMemLayoutGranMib : Fld := ⟨21, 11⟩
/-- `MEM_LAYOUT.SYS_MIB`. -/
def fMemLayoutSysMib : Fld := ⟨10, 0⟩
/-- `MEM_BUDGET.RELAYOUT_PENDING`. -/
def fMemBudgetRelayoutPending : Fld := ⟨44, 44⟩
/-- `MEM_BUDGET.ADMITTED`. -/
def fMemBudgetAdmitted : Fld := ⟨43, 26⟩
/-- `MEM_BUDGET.ACTIVE_PC`. -/
def fMemBudgetActivePc : Fld := ⟨25, 18⟩
/-- `MEM_BUDGET.CAPACITY`. -/
def fMemBudgetCapacity : Fld := ⟨17, 0⟩
/-- `MEM_ALLOT_m.BURST`. -/
def fMemAllotBurst : Fld := ⟨31, 20⟩
/-- `MEM_ALLOT_m.RATE`. -/
def fMemAllotRate : Fld := ⟨19, 0⟩
/-- `MEM_PC_STATUS_s.FAILED`. -/
def fMemPcStatusFailed : Fld := ⟨31, 0⟩
/-- `TIME_NOW_S.SEC`. -/
def fTimeNowSSec : Fld := ⟨47, 0⟩
/-- `TIME_NOW_NS.NS`. -/
def fTimeNowNsNs : Fld := ⟨45, 16⟩
/-- `TIME_NOW_NS.FRAC`. -/
def fTimeNowNsFrac : Fld := ⟨15, 0⟩
/-- `TIME_SET_S.SEC`. -/
def fTimeSetSSec : Fld := ⟨47, 0⟩
/-- `TIME_SET_NS.NS`. -/
def fTimeSetNsNs : Fld := ⟨45, 16⟩
/-- `TIME_SET_NS.FRAC`. -/
def fTimeSetNsFrac : Fld := ⟨15, 0⟩
/-- `TIME_RATE.ADJ`. -/
def fTimeRateAdj : Fld := ⟨31, 0⟩
/-- `TIME_SLEW.OFFSET`. -/
def fTimeSlewOffset : Fld := ⟨39, 0⟩
/-- `TIME_CTL.TQ_REQ`. -/
def fTimeCtlTqReq : Fld := ⟨47, 40⟩
/-- `TIME_CTL.TQ_LOCAL`. -/
def fTimeCtlTqLocal : Fld := ⟨39, 32⟩
/-- `TIME_CTL.SOURCE`. -/
def fTimeCtlSource : Fld := ⟨27, 26⟩
/-- `TIME_CTL.TAU_LOG2`. -/
def fTimeCtlTauLog2 : Fld := ⟨25, 22⟩
/-- `TIME_CTL.STEP`. -/
def fTimeCtlStep : Fld := ⟨21, 21⟩
/-- `TIME_CTL.STEP_AT_PPS`. -/
def fTimeCtlStepAtPps : Fld := ⟨20, 20⟩
/-- `TIME_REF_CFG.TOL`. -/
def fTimeRefCfgTol : Fld := ⟨39, 32⟩
/-- `TIME_REF_CFG.HYST`. -/
def fTimeRefCfgHyst : Fld := ⟨31, 24⟩
/-- `TIME_REF_CFG.DWELL`. -/
def fTimeRefCfgDwell : Fld := ⟨23, 16⟩
/-- `TIME_REF_CFG.RETURN`. -/
def fTimeRefCfgReturn : Fld := ⟨15, 8⟩
/-- `TIME_REF_CFG.REVERT`. -/
def fTimeRefCfgRevert : Fld := ⟨7, 7⟩
/-- `TIME_REF_CFG.PRIMARY`. -/
def fTimeRefCfgPrimary : Fld := ⟨6, 6⟩
/-- `TIME_REF_CFG.FREQ_B`. -/
def fTimeRefCfgFreqB : Fld := ⟨5, 5⟩
/-- `TIME_REF_CFG.FREQ_A`. -/
def fTimeRefCfgFreqA : Fld := ⟨4, 4⟩
/-- `TIME_REF_CFG.EN_B`. -/
def fTimeRefCfgEnB : Fld := ⟨3, 3⟩
/-- `TIME_REF_CFG.EN_A`. -/
def fTimeRefCfgEnA : Fld := ⟨2, 2⟩
/-- `TIME_REF_STATUS.OFFS_A`. -/
def fTimeRefStatusOffsA : Fld := ⟨47, 32⟩
/-- `TIME_REF_STATUS.OFFS_B`. -/
def fTimeRefStatusOffsB : Fld := ⟨31, 16⟩
/-- `TIME_REF_STATUS.STATE`. -/
def fTimeRefStatusState : Fld := ⟨15, 13⟩
/-- `TIME_REF_STATUS.QUAL_A`. -/
def fTimeRefStatusQualA : Fld := ⟨12, 11⟩
/-- `TIME_REF_STATUS.QUAL_B`. -/
def fTimeRefStatusQualB : Fld := ⟨10, 9⟩
/-- `TIME_REF_STATUS.SETTLING`. -/
def fTimeRefStatusSettling : Fld := ⟨8, 8⟩
/-- `TIME_XO_CFG.AGEING`. -/
def fTimeXoCfgAgeing : Fld := ⟨47, 32⟩
/-- `TIME_XO_CFG.HOLD_UNC`. -/
def fTimeXoCfgHoldUnc : Fld := ⟨31, 24⟩
/-- `TIME_XO_CFG.Y_LAST`. -/
def fTimeXoCfgYLast : Fld := ⟨23, 0⟩
/-- `TIME_PPS_CFG.DELAY`. -/
def fTimePpsCfgDelay : Fld := ⟨47, 16⟩
/-- `TIME_PPS_CFG.WIN`. -/
def fTimePpsCfgWin : Fld := ⟨15, 8⟩
/-- `TIME_PPS_CFG.OUT_EN`. -/
def fTimePpsCfgOutEn : Fld := ⟨7, 7⟩
/-- `TIME_PPS_CFG.OUT_GATE`. -/
def fTimePpsCfgOutGate : Fld := ⟨6, 6⟩
/-- `TIME_TDC_CTL.START_CH`. -/
def fTimeTdcCtlStartCh : Fld := ⟨47, 44⟩
/-- `TIME_TDC_CTL.STOP_CH`. -/
def fTimeTdcCtlStopCh : Fld := ⟨43, 40⟩
/-- `TIME_TDC_CTL.MODE`. -/
def fTimeTdcCtlMode : Fld := ⟨39, 38⟩
/-- `TIME_TDC_CTL.PRESCALE`. -/
def fTimeTdcCtlPrescale : Fld := ⟨37, 30⟩
/-- `TIME_TDC_CTL.COUNT_M1`. -/
def fTimeTdcCtlCountM1 : Fld := ⟨29, 6⟩
/-- `TIME_TDC_CTL.CAL_EXTRA`. -/
def fTimeTdcCtlCalExtra : Fld := ⟨5, 3⟩
/-- `TIME_TDC_CTL.CAL`. -/
def fTimeTdcCtlCal : Fld := ⟨1, 1⟩
/-- `TIME_TDC_CTL.GO`. -/
def fTimeTdcCtlGo : Fld := ⟨0, 0⟩
/-- `TIME_TDC_STATUS.USED`. -/
def fTimeTdcStatusUsed : Fld := ⟨47, 23⟩
/-- `TIME_TDC_STATUS.OVF`. -/
def fTimeTdcStatusOvf : Fld := ⟨22, 8⟩
/-- `TIME_TDC_STATUS.MISSED`. -/
def fTimeTdcStatusMissed : Fld := ⟨7, 7⟩
/-- `TIME_TDC_STATUS.CAL_VALID`. -/
def fTimeTdcStatusCalValid : Fld := ⟨6, 6⟩
/-- `TIME_TDC_STATUS.CAL_BUSY`. -/
def fTimeTdcStatusCalBusy : Fld := ⟨5, 5⟩
/-- `TIME_TDC_STATUS.BUSY`. -/
def fTimeTdcStatusBusy : Fld := ⟨4, 4⟩
/-- `TIME_TDC_STATUS.DONE`. -/
def fTimeTdcStatusDone : Fld := ⟨3, 3⟩
/-- `timeTdcResult.VALUE`. -/
def fTimeTdcResultValue : Fld := ⟨47, 0⟩
/-- `TIME_PTP_CFG.PORT`. -/
def fTimePtpCfgPort : Fld := ⟨47, 45⟩
/-- `TIME_PTP_CFG.ROLE`. -/
def fTimePtpCfgRole : Fld := ⟨44, 43⟩
/-- `TIME_PTP_CFG.TRANSPORT`. -/
def fTimePtpCfgTransport : Fld := ⟨42, 41⟩
/-- `TIME_PTP_CFG.DOMAIN`. -/
def fTimePtpCfgDomain : Fld := ⟨40, 34⟩
/-- `TIME_PTP_CFG.PRIORITY1`. -/
def fTimePtpCfgPriority1 : Fld := ⟨33, 26⟩
/-- `TIME_PTP_CFG.PRIORITY2`. -/
def fTimePtpCfgPriority2 : Fld := ⟨25, 18⟩
/-- `TIME_PTP_CFG.LOG_SYNC`. -/
def fTimePtpCfgLogSync : Fld := ⟨17, 14⟩
/-- `TIME_PTP_CFG.LOG_ANNOUNCE`. -/
def fTimePtpCfgLogAnnounce : Fld := ⟨13, 10⟩
/-- `TIME_PTP_CFG.LOG_DELAY_REQ`. -/
def fTimePtpCfgLogDelayReq : Fld := ⟨9, 6⟩
/-- `timePtpLat.TX`. -/
def fTimePtpLatTx : Fld := ⟨47, 24⟩
/-- `timePtpLat.RX`. -/
def fTimePtpLatRx : Fld := ⟨23, 0⟩
/-- `TIME_TSQ_CFG.DROPS`. -/
def fTimeTsqCfgDrops : Fld := ⟨47, 32⟩
/-- `TIME_TSQ_CFG.OCCUPANCY`. -/
def fTimeTsqCfgOccupancy : Fld := ⟨31, 24⟩
/-- `TIME_TSQ_CFG.FULL`. -/
def fTimeTsqCfgFull : Fld := ⟨23, 23⟩
/-- `TIME_TSQ_CFG.CLR_DROPS`. -/
def fTimeTsqCfgClrDrops : Fld := ⟨22, 22⟩
/-- `TIME_TSQ_CFG.PTP_EN`. -/
def fTimeTsqCfgPtpEn : Fld := ⟨16, 16⟩
/-- `TIME_TSQ_CFG.CH_EN`. -/
def fTimeTsqCfgChEn : Fld := ⟨15, 0⟩
/-- `timeTsqHead.VALUE`. -/
def fTimeTsqHeadValue : Fld := ⟨47, 0⟩
/-- `TIME_TSQ_POP.POP`. -/
def fTimeTsqPopPop : Fld := ⟨0, 0⟩
/-- `BELL_CFG.UNIT_ID`. -/
def fBellCfgUnitId : Fld := ⟨47, 34⟩
/-- `BELL_CFG.RATE`. -/
def fBellCfgRate : Fld := ⟨33, 32⟩
/-- `BELL_CFG.MASTER_ELIG`. -/
def fBellCfgMasterElig : Fld := ⟨31, 31⟩
/-- `BELL_CFG.BRIDGE`. -/
def fBellCfgBridge : Fld := ⟨30, 30⟩
/-- `BELL_CFG.AUTH`. -/
def fBellCfgAuth : Fld := ⟨29, 29⟩
/-- `BELL_CFG.ISOLATE_FENCE`. -/
def fBellCfgIsolateFence : Fld := ⟨28, 28⟩
/-- `BELL_CFG.DEAD_FRAMES`. -/
def fBellCfgDeadFrames : Fld := ⟨27, 20⟩
/-- `BELL_CFG.TAU_LOG2`. -/
def fBellCfgTauLog2 : Fld := ⟨19, 16⟩
/-- `BELL_STATUS.STATE`. -/
def fBellStatusState : Fld := ⟨47, 45⟩
/-- `BELL_STATUS.MASTER_ID`. -/
def fBellStatusMasterId : Fld := ⟨44, 31⟩
/-- `BELL_STATUS.HOPS`. -/
def fBellStatusHops : Fld := ⟨30, 23⟩
/-- `BELL_STATUS.BREAK`. -/
def fBellStatusBreak : Fld := ⟨22, 22⟩
/-- `BELL_STATUS.LINKS_UP`. -/
def fBellStatusLinksUp : Fld := ⟨21, 20⟩
/-- `BELL_STATUS.TRUNK_UP`. -/
def fBellStatusTrunkUp : Fld := ⟨19, 18⟩
/-- `BELL_STATUS.MARGIN`. -/
def fBellStatusMargin : Fld := ⟨15, 0⟩
/-- `BELL_FENCE.PENDING`. -/
def fBellFencePending : Fld := ⟨15, 8⟩
/-- `BELL_FENCE.FENCED`. -/
def fBellFenceFenced : Fld := ⟨7, 0⟩
/-- `BELL_LINK_l.DELAY`. -/
def fBellLinkDelay : Fld := ⟨47, 8⟩
/-- `BELL_LINK_l.VALID`. -/
def fBellLinkValid : Fld := ⟨0, 0⟩
/-- `BELL_ROLE_p.ROLE_ID`. -/
def fBellRoleRoleId : Fld := ⟨47, 32⟩
/-- `BELL_ROLE_p.EPOCH`. -/
def fBellRoleEpoch : Fld := ⟨31, 0⟩
/-- `LANE_BELL_CFG.EN`. -/
def fLaneBellCfgEn : Fld := ⟨3, 0⟩
/-- `LANE_GROUP_g_CFG.VLANES`. -/
def fLaneGroupCfgVlanes : Fld := ⟨8, 5⟩
/-- `LANE_GROUP_g_CFG.IFACE`. -/
def fLaneGroupCfgIface : Fld := ⟨4, 3⟩
/-- `LANE_GROUP_g_CFG.GMODE`. -/
def fLaneGroupCfgGmode : Fld := ⟨2, 0⟩
/-- `LANE_l_STATUS.STATE`. -/
def fLaneBellStatusState : Fld := ⟨47, 45⟩
/-- `LANE_l_STATUS.RATE`. -/
def fLaneBellStatusRate : Fld := ⟨44, 42⟩
/-- `LANE_l_STATUS.FAILED`. -/
def fLaneBellStatusFailed : Fld := ⟨41, 41⟩
/-- `LANE_l_CFG.VRATE_MAX`. -/
def fLaneCfgVrateMax : Fld := ⟨15, 13⟩
/-- `LANE_l_CFG.TX_SLEEP`. -/
def fLaneCfgTxSleep : Fld := ⟨12, 12⟩
/-- `LANE_l_CFG.RX_SLEEP`. -/
def fLaneCfgRxSleep : Fld := ⟨11, 11⟩
/-- `LANE_l_CFG.EIDLE`. -/
def fLaneCfgEidle : Fld := ⟨10, 10⟩
/-- `LANE_l_CFG.LOOP`. -/
def fLaneCfgLoop : Fld := ⟨9, 8⟩
/-- `LANE_l_CFG.PRBS`. -/
def fLaneCfgPrbs : Fld := ⟨7, 6⟩
/-- `LANE_l_CFG.PRBS_CHK`. -/
def fLaneCfgPrbsChk : Fld := ⟨5, 5⟩
/-- `LANE_l_CFG.RX_INV`. -/
def fLaneCfgRxInv : Fld := ⟨4, 4⟩
/-- `LANE_l_CFG.TX_INV`. -/
def fLaneCfgTxInv : Fld := ⟨3, 3⟩
/-- `LANE_l_STATUS.STATE`. -/
def fLaneStatusState : Fld := ⟨47, 45⟩
/-- `LANE_l_STATUS.RATE`. -/
def fLaneStatusRate : Fld := ⟨44, 42⟩
/-- `LANE_l_STATUS.FAILED`. -/
def fLaneStatusFailed : Fld := ⟨41, 41⟩
/-- `DEP_OUTAGE.TOTAL_MS`. -/
def fDepOutageTotalMs : Fld := ⟨47, 16⟩
/-- `DEP_OUTAGE.ACTIVE`. -/
def fDepOutageActive : Fld := ⟨7, 0⟩
/-- `STW_THR_TAP.EN`. -/
def fStwThrTapEn : Fld := ⟨17, 17⟩
/-- `STW_THR_TAP.PART`. -/
def fStwThrTapPart : Fld := ⟨16, 14⟩
/-- `STW_THR_TAP.CHAN`. -/
def fStwThrTapChan : Fld := ⟨13, 0⟩
/-- `STW_STATUS_c.STATE`. -/
def fStwStatusState : Fld := ⟨47, 45⟩
/-- `STW_STATUS_c.PART`. -/
def fStwStatusPart : Fld := ⟨44, 42⟩
/-- `STW_STATUS_c.PC`. -/
def fStwStatusPc : Fld := ⟨41, 28⟩
/-- `STW_STATUS_c.IP`. -/
def fStwStatusIp : Fld := ⟨27, 24⟩
/-- `STW_STATUS_c.IE`. -/
def fStwStatusIe : Fld := ⟨23, 20⟩
/-- `STW_STATUS_c.CAUSE`. -/
def fStwStatusCause : Fld := ⟨19, 16⟩
/-- `STW_STATUS_c.XOUT`. -/
def fStwStatusXout : Fld := ⟨15, 13⟩
/-- `REEVE_CTL.REMAP`. -/
def fReeveCtlRemap : Fld := ⟨0, 0⟩
/-- `DMA_CH_n_SRC_L.ADDR_L`. -/
def fDmaSrcLAddrL : Fld := ⟨47, 0⟩
/-- `DMA_CH_n_SRC_H.ADDR_H`. -/
def fDmaSrcHAddrH : Fld := ⟨15, 0⟩
/-- `DMA_CH_n_DST_L.ADDR_L`. -/
def fDmaDstLAddrL : Fld := ⟨47, 0⟩
/-- `DMA_CH_n_DST_H.ADDR_H`. -/
def fDmaDstHAddrH : Fld := ⟨15, 0⟩
/-- `DMA_CH_n_COUNT.COUNT`. -/
def fDmaCountCount : Fld := ⟨31, 0⟩
/-- `DMA_CH_n_CTL.QOS`. -/
def fDmaCtlQos : Fld := ⟨11, 8⟩
/-- `DMA_CH_n_CTL.EVT_EN`. -/
def fDmaCtlEvtEn : Fld := ⟨7, 7⟩
/-- `DMA_CH_n_CTL.MODE`. -/
def fDmaCtlMode : Fld := ⟨4, 4⟩
/-- `DMA_CH_n_CTL.ABORT`. -/
def fDmaCtlAbort : Fld := ⟨1, 1⟩
/-- `DMA_CH_n_CTL.START`. -/
def fDmaCtlStart : Fld := ⟨0, 0⟩
/-- `DMA_CH_n_STATUS.RESULT`. -/
def fDmaStatusResult : Fld := ⟨47, 45⟩
/-- `DMA_CH_n_STATUS.BUSY`. -/
def fDmaStatusBusy : Fld := ⟨44, 44⟩
/-- `DMA_CH_n_STATUS.DONE`. -/
def fDmaStatusDone : Fld := ⟨43, 43⟩
/-- `DMA_CH_n_STATUS.DESCS`. -/
def fDmaStatusDescs : Fld := ⟨42, 33⟩
/-- `DMA_CH_n_STATUS.RESIDUE`. -/
def fDmaStatusResidue : Fld := ⟨32, 0⟩
/-- `MON_CTL.RELOCK`. -/
def fMonCtlRelock : Fld := ⟨1, 1⟩
/-- `MON_CTL.DISABLE`. -/
def fMonCtlDisable : Fld := ⟨0, 0⟩
/-- `MON_STATUS.FAILS`. -/
def fMonStatusFails : Fld := ⟨15, 12⟩
/-- `MON_STATUS.BAUD`. -/
def fMonStatusBaud : Fld := ⟨11, 9⟩
/-- `MON_STATUS.LOCKOUT`. -/
def fMonStatusLockout : Fld := ⟨2, 2⟩
/-- `MON_STATUS.UNLOCKED`. -/
def fMonStatusUnlocked : Fld := ⟨1, 1⟩
/-- `MON_STATUS.ENABLED`. -/
def fMonStatusEnabled : Fld := ⟨0, 0⟩

end Sys2Proof
end

