-- ==== Sys2Proof/Machine/State.lean ====
section
/-!
DEFINITION. State: every register, memory, queue, engine and pin the spec gives the W4096, as plain data, and its reset.

Registers with access codes live in `State.regs` under their BAR0 offset (Machine/Regs.lean); status registers that mirror an
engine are computed from the engine's own fields when they are read (Machine/RegFile.lean).
-/
namespace Sys2Proof.Machine

/-- Why a step faults. -/
inductive Fault where
  /-- Raised by a meaning whose command is not well formed (Instr.wellFormed): a Bell record of other than 32 bytes, other than 24
  sensors, 7 rails, 16 captured pins or 256 calibration bins, an HBM burst that is not at a burst's address of the 1,152 MiB of a
  pseudo-channel, or hits of another number than the calibration takes. Nothing outside the device can send one.
  Safe: the model stops where the hardware is never asked. -/
  | malformed
  deriving DecidableEq, Repr

/-- Why a step is refused. -/
inductive Refusal where
  /-- Raised by an arm of exec for a command with no meaning yet, naming its row. Safe. -/
  | notModelled (mnemonic : String)
  deriving DecidableEq, Repr

/-- Something that left the device: what an observer outside can see. -/
inductive Out where
  /-- MSI-X vector raised (R313). -/
  | irq (vec : Nat)
  /-- A read completed with this 64-bit value (R12, R210, R380). -/
  | readData (m : Master) (value : Qword)
  /-- An access completed as Unsupported Request (R285). -/
  | unsupported
  /-- A bus error returned to a master class (R39, R316). -/
  | busError (cls : MasterClass)
  /-- A target port granted the transaction with this serial number at this QoS (R28). -/
  | granted (port : FabTarget) (serial qos : Nat)
  /-- A product packet handed to a port (or to a DATA ring where port is none) on its output route (R114, R309). -/
  | packet (route : Nat) (port : Option Nat) (typ : Nat) (payload : List Byte)
  /-- An Ethernet frame of the device's own: an ARP or neighbour reply, a PTP message (R270, R232). -/
  | frame (port : Nat) (bytes : List Byte)
  /-- A header, or the slot body of a slot, sent on a Bell lane (R242, R243, R279), and its symbols: fill, start marker, body. -/
  | bell (lane : Nat) (slot : Option Nat) (bytes : List Byte) (line : List Nat)
  /-- A link frame sent on a lane (R274 to R277) with its header and CRC: kind (0 NEG, 1 TRAIN, 2 DATA, 3 CTRL), and its symbols: fill,
  start marker, frame (R272, R273). -/
  | link (lane : Nat) (kind : Nat) (body : List Byte) (line : List Nat)
  /-- A burst of TRAIN frames with the stored taps, for so many ns, as a lane leaves EIDLE (R280). -/
  | trainBurst (lane ns : Nat)
  /-- What a port advertises under Clause 73 (R269): its mode, and the FEC of Clause 91 where its mode leaves that open. -/
  | advert (port gmode : Nat) (rsFec : Bool)
  /-- A pulse on an output pin: 0 TRIG_OUT, 1 PPS_OUT, 2 SYNC_OUT, with its length in ns (R176, R231, R415). -/
  | pulse (pin : Nat) (ns : Nat)
  /-- A line sent on the monitor's UART (R380). -/
  | uart (line : String)
  /-- Bytes returned on SMBus, or a NACK where none (R378). -/
  | smbus (bytes : Option (List Byte))
  /-- Bits shifted out on JTAG_TDO (R418). -/
  | jtag (bits : List Bool)
  deriving DecidableEq, Repr

/-- A transaction in a target port's queue (R26, R27). -/
structure Txn where
  serial : Nat
  req : FabRequest
  qos : Nat
  deriving DecidableEq, Repr

/-- A target port (R27, R28): its queue in order of entry, the interfaces waiting for an entry, the run of level-15 grants and
the class the round robin of freed entries comes to next. -/
structure TargetPort where
  queue : List Txn
  waiting : List Txn
  streak : Nat
  robin : Nat
  deriving DecidableEq, Repr

/-- The response of a DMA burst whose channel has not taken it yet (R35, R370): the bytes read, none of a write; no bytes where it
ended with an error. -/
structure FabReply where
  serial : Nat
  bytes : Option (List Byte)
  deriving DecidableEq, Repr

/-- The internal fabric (R24 to R36): the target ports, write bursts whose data has not all been accepted, the issue queues of each
slice of Harvest (0 to 3) and of the capture writer (4 to 7) and of the ingress writer (8) under 128 × slice + pseudo-channel with the
pseudo-channel each comes to next (R195), and under 9 the DMA channel whose turn it is (R370); the masters that drain, responses on their way, and the token buckets of R198. -/
structure Fabric where
  ports : Store TargetPort
  short : List (Nat × FabRequest)
  issue : Store (List FabRequest)
  turn : Store Nat
  serial : Nat
  draining : List MasterClass
  replies : List FabReply
  tokens : Store Nat
  deriving DecidableEq, Repr

/-- What the device keeps of a ring beside its registers: doorbell indices, reserved entries, drops. -/
structure RingCtx where
  prod : Nat
  cons : Nat
  reserved : Nat
  lost : Nat
  overrunAt : Option Nat
  deriving DecidableEq, Repr

/-- The record of a tag (R288). -/
structure TagRec where
  carried : Bool
  status : Nat
  opcode : Nat
  written : Bool
  deriving DecidableEq, Repr

/-- A descriptor in flight (R297, R298): the SUB ring it came from, its CPL ring, its eight qwords, and whether it has begun. -/
structure Desc where
  ring : Nat
  cpl : Nat
  tag : Nat
  q : List Nat
  begun : Bool
  orphan : Bool
  deriving DecidableEq, Repr

/-- A completion that waits, as those of a device leaving STANDBY do (R403). -/
structure Completion where
  desc : Desc
  status : Nat
  r0 : Nat
  r1 : Nat
  deriving DecidableEq, Repr

/-- The host interface (R283 to R315). -/
structure Hif where
  latch : Option (Nat × BitVec 32)
  linkUp : Bool
  rate : PcieRate
  width : PcieWidth
  d3hot : Bool
  rings : Store RingCtx
  inflight : List Desc
  tags : Store TagRec
  waiting : List Completion
  irqLast : Store Nat
  irqDeferred : List Nat
  robin : Nat
  nudge : Bool
  hb : Bool
  sev : Nat
  timeq : Bool
  withheld : Bool
  deriving DecidableEq, Repr

/-- An entry of the event log that is not committed yet (R395). -/
structure LogEvent where
  id : Nat
  part : Option (Fin 8)
  a0 : Nat
  a1 : Nat
  time : Nat
  deriving DecidableEq, Repr

/-- A partition's configuration: the body of START and CONFIGURE (Table 12-8), decoded (Tables 03-4, 04-5). -/
structure PartCfg where
  inputs : Nat
  width4 : Bool
  shape : Nat
  bshape : Nat
  t : Nat
  g : Nat
  compact : Bool
  staggered : Bool
  visRoute : Nat
  tqMin : Nat
  declRate : Nat
  nInt : Nat
  chanFirst : Nat
  chanCount : Nat
  originS : Nat
  originNs : Nat
  originFrac : Nat
  period : Nat
  deriving DecidableEq, Repr

/-- A configuration a partition has accepted: its serial number, the partition integration from which it applies, the integration it
names for its channels, and the frontier at its acceptance, which is the serial number of the configuration then in force and its first
ordinal whose buffer had not opened. -/
structure Epoch where
  serial : Nat
  effInt : Nat
  eff : Nat
  cfg : PartCfg
  ordAt : Option (Nat × Nat)
  deriving DecidableEq, Repr

/-- The anchor of an integration numbering (R424): the configuration in force, I_0 and s_a. -/
structure Anchor where
  epoch : Nat
  i0 : Nat
  sa : Nat
  deriving DecidableEq, Repr

/-- A granule: 16 samples of one input in one channel, with what the Thresher formed as it arrived (R56, R57). -/
structure Gran where
  samples : List (Int × Int)
  peak : Nat
  pow : Nat
  clamped : Bool
  flag : Bool
  deriving DecidableEq, Repr

/-- A usable input map entry as one staging copy uses it (R51, R54): its slot, enables, label and threshold set. -/
structure SlotMap where
  input : Nat
  slot : Nat
  forceFlag : Bool
  captEn : Bool
  beamEn : Bool
  corrEn : Bool
  label : Nat
  thr : Nat
  deriving DecidableEq, Repr

/-- A granule waiting in the lookahead store (R49): its channel, sample counter and source input. -/
structure Parked where
  chan : Nat
  sample : Nat
  input : Nat
  tqLow : Bool
  upflag : Bool
  samples : List (Int × Int)
  clamped : Bool
  deriving DecidableEq, Repr

/-- One complex beam weight as synthesised (R129), with its entry's state (R135, R136). -/
structure BeamWeight where
  re : Int
  im : Int
  deriving DecidableEq, Repr

/-- Status of one beam in one batch (Table 05-6). -/
structure BeamMark where
  torn : Bool
  stale : Bool
  liveEdit : Bool
  suspect : Bool
  deriving DecidableEq, Repr

/-- A tile sum record as the combiner holds it (Table 03-1): the sums of a pair over the segments verified so far, and the granules
valid in both inputs. -/
structure TileSum where
  re : Int
  im : Int
  gcnt : Nat
  deriving DecidableEq, Repr

/-- A byte range of the Granary region that holds the channel blocks of a partition (R109): the serial number of the configuration that
brought it, its offset and its size. -/
structure GranRange where
  serial : Nat
  base : Nat
  size : Nat
  deriving DecidableEq, Repr

/-- A batch: one channel's T samples of every input of a partition. -/
structure Batch where
  ord : Nat
  chan : Nat
  sub : Nat
  grans : Store (Option Gran)
  ready : Bool
  firstAt : Option Nat
  withheld : Bool
  harvested : Bool
  verified : Store Nat
  suspect : List Nat
  weights : Store (Option BeamWeight)
  marks : Store BeamMark
  synthesised : Bool
  beamsSent : List Nat
  sums : Store TileSum
  deriving DecidableEq, Repr

/-- What one tile has to do of a region, in quadrant segments: runs [lo, hi) left to compute in order, the first segment of the
piece in progress, and computed pieces waiting to drain (R81, R326). -/
structure TileWork where
  queue : List (Nat × Nat)
  cur : Option Nat
  drain : List (Nat × Nat)
  deriving DecidableEq, Repr

/-- A staging copy of a partition's region: its batches, the input map and the setting of the Thresher tap it
uses (R364), and in the computing role its dealing. -/
structure Copy where
  epoch : Nat
  batches : List Batch
  slots : List SlotMap
  ords : List Nat
  deadline : ℚ
  tiles : Store TileWork
  shares : List Nat
  finished : Bool
  place : Nat × Nat
  tap : Payload
  deriving DecidableEq, Repr

/-- A table entry accepted and not yet in force everywhere (R55, R301): the partition whose integrations EFF_INT counts, that
integration, and the first unopened ordinal at its acceptance, which tells the integrations already begun. -/
structure PendingEntry where
  table : Nat
  bank : Nat
  index : Nat
  entry : Nat
  part : Fin 8
  eff : Nat
  ordAt : Option (Nat × Nat)
  deriving DecidableEq, Repr

/-- A delay bank commit of a partition (R134). -/
structure PendingCommit where
  sC : Nat
  refSample : Nat
  deriving DecidableEq, Repr

/-- A partition. Banks that commits replaced stand in it as (s_c, bank, REF_SAMPLE), oldest first, for the batches below s_c (R134). -/
structure Part where
  started : Bool
  stopping : Bool
  stopped : Bool
  cfg : PartCfg
  epochs : List Epoch
  pending : List Epoch
  serial : Nat
  nextOrd : Option Nat
  groupBase : Nat
  stage : Nat
  regionAt : Nat
  oldRegions : List (Nat × Nat × Nat)
  ranges : List GranRange
  fill : Option Copy
  comp : Option Copy
  ret : Option Copy
  passed : List Copy
  readyOrds : List (Nat × Nat)
  parked : List Parked
  cache : Store Nat
  thrCache : Store Nat
  stale : List Nat
  thrStale : List Nat
  dirty : List Nat
  lastInt : Nat
  prevDeadline : ℚ
  seqs : Store Nat
  partAnchor : Anchor
  reachedSample : Nat
  withheldInts : List Nat
  bank : Bool
  refSample : Nat
  commit : Option PendingCommit
  oldBanks : List (Nat × Bool × Nat)
  deriving DecidableEq, Repr

/-- A Granary record (R92): the sums as exact integers in either format, JOINT, and whether its HBM word is poisoned (R201). -/
structure GranRec where
  re : Int
  im : Int
  joint : Nat
  poisoned : Bool
  deriving DecidableEq, Repr

/-- A channel state of Harvest (R94): the integration held and its counts; none when the channel is empty. -/
structure ChanState where
  int : Nat
  epoch : Nat
  nsub : Nat
  fCount : Store Nat
  common : Nat
  suspect : List Nat
  sampleStart : Nat
  satRaised : Bool
  deriving DecidableEq, Repr

/-- A piece whose re-run is in progress or waits (R322): partition, batch, tile that failed, task, its first segment and their number. -/
structure Rerun where
  part : Fin 8
  epoch : Nat
  ord : Nat
  tile : Nat
  task : Nat
  first : Nat
  segs : Nat
  deriving DecidableEq, Repr

/-- A piece a tile has computed (R327): the tile, the partition, epoch, batch, channel, sub-integration, integration and task. -/
structure PieceRec where
  tile : Nat
  part : Fin 8
  epoch : Nat
  ord : Nat
  chan : Nat
  sub : Nat
  int : Nat
  task : Nat
  deriving DecidableEq, Repr

/-- A quadrant of the Mill (R318 to R326): roles of its tiles now, the shadow window (shadowed tile, segments compared, whether its
cycle count has run out, tiles running the test task), re-runs in order, lag in MCLK cycles, windows passed, transients as
(tile, tick), and the pieces tiles have computed since their last passed comparison. -/
structure Quadrant where
  mode : Nat
  standby : Option Nat
  shadow : Option Nat
  inService : List Nat
  share : Nat
  shadowed : Nat
  compared : Nat
  expired : Bool
  testing : List Nat
  reruns : List Rerun
  lag : Nat
  windows : Nat
  transients : List (Nat × Nat)
  recent : List PieceRec
  deriving DecidableEq, Repr

/-- One scaled output of a chain instance (R148 to R157): its index, value, marks, and the clamps of R138 among its inputs. -/
structure ChainOut where
  k : Nat
  o : Int
  clamps : Nat
  inc : Bool
  sat : Bool
  chg : Bool
  deriving DecidableEq, Repr

/-- A batch's detected samples of one beam waiting for the chain engine (R138, R139): four Stokes lists, or missing. -/
structure ChainInput where
  part : Fin 8
  epoch : Nat
  beam : Nat
  chan : Nat
  sub : Nat
  int : Nat
  missing : Bool
  samples : List (Int × Int × Int × Int)
  marks : BeamMark
  sats : List Nat
  left : List Nat
  outs : List (Nat × List ChainOut)
  deriving DecidableEq, Repr

/-- A beam-pol stream's chain (R146 to R157): settings in force, integrators, comb delays, detectors, RMS block, range, a RANGE
set for the next output or from the next batch on, taps. -/
structure Chain where
  raw : Nat
  startIdx : Nat
  nextIdx : Nat
  lastMissing : Option Nat
  clamps : Nat
  integ : List Int
  dly : List (List Int)
  started : Bool
  peak : Int
  hold : Nat
  env : Int
  sum : Int
  sum2 : Int
  rmsLog2 : Nat
  blkSat : Bool
  blkInc : Bool
  blkChg : Bool
  range : Nat
  newRange : Option Nat
  later : Option Nat
  tap1 : Option (Int × Bool)
  tap2 : Option (Int × Bool)
  deriving DecidableEq, Repr

/-- The monitor input of a batch: POW_g of one slot and channel (Table 06-1). -/
structure MonitorInput where
  entry : Nat
  part : Fin 8
  epoch : Nat
  chan : Nat
  sub : Nat
  int : Nat
  pows : List (Option Nat)
  deriving DecidableEq, Repr

/-- The fields of CAPTURE_CONFIG (Table 07-1). -/
structure CaptCfg where
  enable : Bool
  part : Fin 8
  cribs : Nat
  chanFirst : Nat
  chanCount : Nat
  inputs : Nat
  route : Nat
  deriving DecidableEq, Repr

/-- The fields of an ARM (Table 07-3). -/
structure Arm where
  id : Nat
  scope : Bool
  sources : Nat
  rep : Bool
  coinc : Nat
  time : Nat
  pre : Nat
  post : Nat
  deriving DecidableEq, Repr

/-- A fire (R174): position in 1/256 samples, firing unit, source, beam and channel. -/
structure Fire where
  id : Nat
  time : Nat
  unit : Nat
  source : Nat
  beam : Nat
  chan : Nat
  deriving DecidableEq, Repr

/-- An event of the armed trigger (R175): its number, the fire that opened it, its winner, the crib that holds it. -/
structure TrigEvent where
  arm : Arm
  seq : Nat
  opened : Fire
  winner : Fire
  crib : Nat
  fires : Nat
  entry : Nat
  settleAt : Nat
  settled : Bool
  deriving DecidableEq, Repr

/-- A captured slot of a crib (R161): its correlator slot and label. -/
structure CaptSlot where
  slot : Nat
  label : Nat
  deriving DecidableEq, Repr

/-- A crib (R160 to R183): state of Table 07-2, recording start, captured slots, granules recorded with their flags, seal point,
the event it holds, its span, the epoch its packets carry once a STOP has frozen it, and how far readout has come. -/
structure Crib where
  state : Nat
  s0 : Option Nat
  slots : Option (List CaptSlot)
  grans : Store (Option Gran)
  lastGran : Option Nat
  sLast : Nat
  id : Nat
  seq : Nat
  winner : Option Fire
  merged : Bool
  spanFirst : Nat
  spanLast : Int
  preShort : Bool
  postShort : Bool
  sealedShort : Option Nat
  epoch : Nat
  frozen : Bool
  width4 : Bool
  pos : Nat
  packets : Nat
  pc : Nat
  deriving DecidableEq, Repr

/-- Trigger and capture (R159 to R185). -/
structure Trigger where
  capt : Option CaptCfg
  accepted : List (Nat × CaptCfg)
  armed : Option Arm
  armPending : List Arm
  event : Option TrigEvent
  eventSeq : Nat
  cribs : Store Crib
  placedMax : Nat
  deriving DecidableEq, Repr

/-- A ring or log of the system region (R191): its entries by position, the number of entries ever written,
and the positions its readers (0 the host, 1 + c Steward core c) have come to. -/
structure SysRing where
  entries : Store (List Byte)
  next : Nat
  reads : List Nat
  deriving DecidableEq, Repr

/-- A burst in a pseudo-channel's queue (R192): its PC-local address, direction, QoS, and the tick of its grant. -/
structure CtlReq where
  addr : Nat
  write : Bool
  qos : Nat
  at_ : Nat
  deriving DecidableEq, Repr

/-- The HBM controller (R186 to R206): retired pseudo-channels, RELAYOUT_PENDING, the repeat tracker of each stack as (burst, scrub
pass) with the newest last, lasting addresses, bursts that had an uncorrectable error (2 when written since), ticks of failed
command/address retries, postponed refreshes, and the patrol scrubber's position and passes. A burst is pc × 2^32 + address. Poisoned
bursts not written since, each pseudo-channel's open rows as (bank of 48, row), its queue, and the direction of its bus with the bursts
since the bus last turned (R192); and by how many bytes, at which tick, the lookahead store's writes ran ahead of their allotment. -/
structure Hbm where
  retired : List Nat
  relayout : Bool
  tracker : Store (List (Nat × Nat))
  lasting : List Nat
  ueAt : Store Nat
  caFails : Store (List Nat)
  postponed : Store Nat
  refreshed : Store Nat
  scrubAt : Store Nat
  passes : Store Nat
  passed : List Nat
  poisoned : List Nat
  rows : Store (List (Nat × Nat))
  queue : Store (List CtlReq)
  bus : Store (Bool × Nat)
  parkDebt : Nat × Nat
  powered : Bool
  deriving DecidableEq, Repr

/-- An entry of the timestamp queue (R235, Table 09-13). -/
structure TsqEntry where
  sec : Nat
  nsFrac : Nat
  id : Nat
  qseq : Nat
  source : Nat
  msg : Nat
  deriving DecidableEq, Repr

/-- A reference input as the monitor judges it (R219): quality, run of gates beyond TOL, run of gates inside TOL − HYST, offset in
units of 2^-8 ppb. -/
structure RefMon where
  qual : Nat
  beyond : Nat
  good : Nat
  off : Int
  deriving DecidableEq, Repr

/-- A foreign master (R232): the data set and port identity it announces, and the ticks of its last Announces, newest first. -/
structure ForeignMaster where
  data : List Nat
  heard : List Nat
  deriving DecidableEq, Repr

/-- The measurement in progress (R228): samples taken, those included, those excluded for OVF, and the stamp that opened an interval or a
period. -/
structure TdcEngine where
  taken : Nat
  xs : List Int
  excluded : Nat
  opened : Option RawStamp
  deriving DecidableEq, Repr

/-- The ordinary PTP clock (R232): port state (0 listening, 1 master, 2 slave), the foreign masters heard, the best one's data set and port
identity, sequence numbers, and the exchange in progress in units of 2^-32 ns. -/
structure PtpClock where
  state : Nat
  heard : List ForeignMaster
  foreign : Option (List Nat)
  syncSeq : Nat
  annSeq : Nat
  delaySeq : Nat
  t1 : Option Int
  t2 : Option Int
  t3 : Option Int
  waitFollow : Option Nat
  deriving DecidableEq, Repr

/-- Time, references and interval measurement (R208 to R236): local time as seconds and 2^-32 ns, the slew not yet applied, the
latches of TIME_NOW_NS, the servo, PPS, references, TDC and timestamp queue. E is in units of 2.5 × 10^-6 ps. What the timebase was at past
TCLK edges stands as runs of equal steps, newest first, (tick, value, step); of the TDC's channels each has the edges towards its
prescaler, the edges after it and its last stamp; the PCS clock its last two stamps as (cycle, value). -/
structure TimeSt where
  sec : Nat
  sub : Nat
  slewLeft : Int
  runs : List (Nat × Nat × Int)
  latches : Store Nat
  everSet : Bool
  e : Nat
  hostTq : Nat
  holdover : Bool
  residuals : List Int
  ppsLocked : Bool
  ppsLast : Option Nat
  ppsDelay : Nat
  refA : RefMon
  refB : RefMon
  pll : Nat
  everRef : Bool
  xoCal : Bool
  pllOff : Int
  settling : Bool
  heldAt : Nat
  bins : Option (List Nat)
  calBusy : Bool
  calPending : Bool
  calTemp : Int
  calEver : Bool
  busy : Bool
  done : Bool
  missed : Bool
  used : Nat
  ovf : Nat
  engine : TdcEngine
  presc : Store Nat
  edges : Store Nat
  lastStamp : Store (Option Nat)
  pcs : List (Nat × Int)
  tsq : List TsqEntry
  qseq : Nat
  drops : Nat
  overflowed : Bool
  ptp : PtpClock
  deriving DecidableEq, Repr

/-- What a valid header offers the servo until its frame's other direction is known (R254): frame, direction, HOPS, residual in
2^-32 ns, and TQ_MASTER. -/
structure HeaderUse where
  frame : Nat
  dir : Nat
  hops : Nat
  theta : Int
  tq : Nat
  deriving DecidableEq, Repr

/-- A ring of the Bell network as this unit sees it (R241 to R258): its state as BELL_STATUS codes it, the master, the L_in that each
direction's schedule offset uses, in 2^-16 ns, frames since a header of each direction, BREAK, the header that waits for the
servo, this unit's own claims in flight, the frame and run of their returns in each direction, whether the ring has been silent, and
whether a slot margin on it mutes the unit. -/
structure BellRingSt where
  state : Nat
  masterId : Nat
  lins : List (Option Int)
  missing : List Nat
  brk : Bool
  frameNo : Nat
  held : Option HeaderUse
  claims : List (List Byte)
  returns : List (Nat × Nat)
  silent : Bool
  violated : Bool
  collided : Bool
  wait : Nat
  deriving DecidableEq, Repr

/-- A role as this unit knows it (R260): highest epoch, holder, whether vacant, partition. -/
structure RoleRec where
  epoch : Nat
  holder : Nat
  vacant : Bool
  part : Nat
  deriving DecidableEq, Repr

/-- What a Bell lane remembers for its link delay (R248): the neighbour, recent sends as (FRAME_NO[7:0], stamp), recent arrivals, the
frame and turnaround it reports, and the last 256 measurements of L, in units of 2^-8 ps. -/
structure BellLink where
  sender : Option Nat
  sends : List (Nat × Int)
  arrivals : List Int
  arrived : Option (Nat × Int)
  turn : Nat × Nat
  delays : List Int
  deriving DecidableEq, Repr

/-- The Bell network (R237 to R267). Members and dead units stand under their unit ID plus 2^14 times the level; a fenced partition
with the role and epoch that fenced it; margins and runs of good frames per lane. -/
structure Bell where
  eff : Payload
  rings : List BellRingSt
  links : List BellLink
  roles : Store (Option RoleRec)
  assigned : List (Nat × RoleRec)
  role0 : Option Nat
  fence0 : Option Nat
  heldOnce : List Nat
  fencedAt : Store (Nat × Nat)
  seen : List (Nat × Nat × Nat)
  rseq : Nat
  hbSeq : Nat
  queues : List (List (List Byte))
  members : Store (Option (Nat × Nat))
  dead : List Nat
  idConflict : Bool
  margins : List Int
  goodRuns : List Nat
  isolatedAt : Option Nat
  lastValid : Nat
  wrongRoleAt : Option Nat
  copied : List (Nat × Nat × Nat)
  deriving DecidableEq, Repr

/-- The unit is muted (R253, R257). -/
def Bell.muted (b : Bell) : Bool := b.idConflict || b.rings.any (·.violated)

/-- The low-power states of a lane (R280): its transmitter and its receiver sleep independently; EIDLE is the whole lane's. -/
structure LowPower where
  tx : Bool
  rx : Bool
  eidle : Bool
  deriving DecidableEq, Repr

/-- One direction of a lane's line (R272, R273): the scrambler's 31 bits, the last symbol and the length of its run. -/
structure LineSt where
  scr : Nat
  last : Nat
  run : Nat
  deriving DecidableEq, Repr

/-- A lane of either kind beside its status register (R274 to R281): NEG and TRAIN progress, the partner, the transmitter's taps in
64ths (pre-cursor 2, pre-cursor 1, post-cursor), error history, and each direction's low-power states and requests (R280). -/
structure LaneSt where
  negSent : Nat
  negGot : Nat
  negAfter : Nat
  partner : Option NegFrame
  target : Nat
  taps : List Nat
  readyRun : Nat
  retrains : List Nat
  replays : List Nat
  failSeq : Nat × Nat
  bellFrames : Nat
  bellFails : List Nat
  wants : LowPower
  asleep : LowPower
  deriving DecidableEq, Repr

/-- A DATA frame kept for replay (R277): SEQ, its bytes, and the tick it was last sent. -/
structure LinkFrame where
  seq : Nat
  sof : Bool
  eof : Bool
  body : List Byte
  deriving DecidableEq, Repr

/-- A port (R268 to R278): whether an Ethernet port carries frames, its addresses, the Viros transmitter and receiver, when
uncorrectable codewords were last reported, and whether Clause 73 resolved RS-FEC for it. -/
structure PortSt where
  ethUp : Bool
  mac : Nat
  ip4 : Nat
  ip6 : Nat
  txSeq : Nat
  unacked : List LinkFrame
  waiting : List LinkFrame
  nextLane : Nat
  lastGot : Nat
  naking : Bool
  rxPart : List Byte
  inFrame : Bool
  fecAt : Option Nat
  fecRecent : List (Nat × Nat)
  fec : Bool
  deriving DecidableEq, Repr

/-- The lanes: data lane l under key l, Bell lane l under key 64 + l; the eight ports; and the lines of the 68 lanes, sent and
received. -/
structure Lanes where
  lanes : Store LaneSt
  ports : Store PortSt
  tx : List LineSt
  rx : List LineSt
  deriving DecidableEq, Repr

/-- A transfer of a Steward core (R357, R358): what XREQ read of its block, and its result once performed: status, entries
transferred, and word 5 for ring reads. -/
structure Xfer where
  kind : Nat
  region : Nat
  count : Nat
  index : Nat
  rsvd : Bool
  buf : Nat
  aux : Nat
  sC : Nat
  ref : Nat
  block : Nat
  result : Option (Nat × Nat × Option Nat)
  deriving DecidableEq, Repr

/-- The status register's bits of a Steward core (Table 14-5). -/
structure StwSr where
  z : Bool
  n : Bool
  c : Bool
  v : Bool
  ss : Bool
  ien : Bool
  inh : Bool
  deriving DecidableEq, Repr

/-- A Steward core (R340, R341, R351 to R356): memories, registers, call stack, status, interrupts, the return register, the
repeat in progress, the bound partition, its state and fault cause, transfers, and a stop that waits for a repeat to end. -/
structure Core where
  prog : Store Nat
  data : Store Nat
  d : List W24
  a : List (BitVec 56)
  p : List (BitVec 16)
  b : List (BitVec 16)
  l : List (BitVec 16)
  pc : Nat
  stack : List Nat
  sr : StwSr
  ie : Nat
  ip : Nat
  mod : W24
  timer : W24
  ringsel : Nat
  subno : Nat
  cycles : Nat
  cycleH : Nat
  ret : Nat × StwSr
  rep : Option Nat
  part : Fin 8
  state : Nat
  cause : Nat
  xfers : List Xfer
  stopDue : Bool
  deriving DecidableEq, Repr

/-- The Stewards (R340 to R364): the cores, and the tick at which the Thresher tap last wrote a batch. -/
structure Stw where
  cores : List Core
  tapAt : Option Nat
  deriving DecidableEq, Repr

/-- The payload of a journal record (R395, Table 16-4). -/
inductive LedRec where
  | bank (gen erases : Nat)
  | snapEnd
  | setting (offset value : Nat)
  | retireTile (tile : Nat)
  | retirePc (pc : Nat)
  | retireRow (row : Nat)
  | repeatAddr (pc addr : Nat)
  | eventLog (entries : List LogEvent) (outageMs : Nat)
  | outage (ms : Nat)
  | audit (line : List Nat)
  | slot (slot pages : Nat) (valid : Bool)
  | monState (fails throttle : Nat)
  deriving DecidableEq, Repr

/-- A program or an erase of the Ledger's flash (R394). -/
inductive LedOp where
  | record (r : LedRec)
  | compactRecord (r : LedRec)
  | eraseBank (b : Nat)
  | eraseSlot (n : Nat)
  | page (n index : Nat) (bytes : List Byte)
  deriving DecidableEq, Repr

/-- A journal bank (R396): its committed records in order, the erase count of its BANK record, and whether a page that is not a
committed record follows them. -/
structure LedBank where
  recs : List LedRec
  erases : Nat
  dirtyTail : Bool
  deriving DecidableEq, Repr

/-- An image slot (R391, R393): its bytes, pages written, and whether it is marked invalid. -/
structure ImgSlot where
  bytes : Store Byte
  pages : Nat
  invalid : Bool
  deriving DecidableEq, Repr

/-- The Ledger (R394 to R397): banks, active bank, image slots, operations running and waiting, read-back failures of the one that
runs, the uncommitted event log with the tick of its oldest entry, and LEDGER_RECOVERED due at DONE. -/
structure Ledger where
  banks : List LedBank
  active : Nat
  slots : List ImgSlot
  busy : List LedOp
  retries : Nat
  readOnly : Bool
  events : List LogEvent
  oldestAt : Option Nat
  recovered : Bool
  wornAt : List Nat
  deriving DecidableEq, Repr

/-- What the fuses hold: SVN_MIN as a count, the revoked key hashes, the SRAM rows and the monitor's lockout (R383, R391, R392). -/
structure Fuses where
  svnMin : Nat
  revoked : List Nat
  lockout : Bool
  deriving DecidableEq, Repr

/-- Boot, resets, power and the stopped state (R387 to R392, R401, R403, R314). -/
structure Sys where
  stopped : Bool
  exiting : Bool
  standbyByD3 : Bool
  reeveRuns : Bool
  porLow : Bool
  rstLow : Bool
  inReset : Bool
  resetDue : Option Nat
  thermLatch : Bool
  powered : Bool
  rejected : Option (Nat × Nat)
  recovery : Store Byte
  bufferedImage : Bool
  imageSvn : Nat
  remapped : Bool
  sram : Store Byte
  working : Store Byte
  standby : Bool
  pwrWarned : Bool
  deriving DecidableEq, Repr

/-- The thermal regime (R398 to R402): the latest readings, samples in a row at 115 °C or more, the tick of the last change of
state plus 1 (0 before any), the ticks since which Tj has stayed at or above 105 °C, below 102 °C and below 97 °C. -/
structure Therm where
  sensors : List Int
  hotRun : Nat
  changedAt : Nat
  above105 : Option Nat
  below102 : Option Nat
  below97 : Option Nat
  deriving DecidableEq, Repr

/-- The detectors (R144 to R158): batches' detected samples and monitor powers waiting for the chain engine, the chain instances, and
the RANGE last set for an entry through DET_RANGE_SET, plus one, with the write number of the entry it was set on (R156). -/
structure Det where
  chainIn : List ChainInput
  monIn : List MonitorInput
  chains : Store (Option Chain)
  ranges : Store (Nat × Nat)
  deriving DecidableEq, Repr

/-- The weight synthesiser (R129 to R136, R142): per partition the sub-integrations whose reading has begun, each with its T, the events
raised as (kind, partition, sub-integration, beam), live edits, and the integrations in which a saturation was reported. -/
structure BeamSt where
  reads : Store (List (Nat × Nat))
  raised : List (Nat × Nat × Nat × Nat)
  live : List (Nat × Nat × Nat)
  satInt : Store (List Nat)
  deriving DecidableEq, Repr

/-- The egress engine (R309, R311): the next port of each route, and the ports whose shortage has been reported. -/
structure Egr where
  rotate : Store Nat
  short : List Nat
  credit : Store (Nat × Nat)
  deriving DecidableEq, Repr

/-- Dependability (R328 to R334): partitions in outage since the last tick, when a corrected SRAM error was last reported (tick + 1), the
data path's pause with the tick it began, corrected errors per SRAM word, the latest rails in tenths of a millivolt, the time word of the
last passing configuration scan, the last lockstep mismatch, the batches computed lately as (partition, epoch, channel, tick), and the
Mill's segment slots modulo 8. -/
structure Dep where
  slot : Nat
  outage : List Nat
  sramCeAt : Nat
  sramWords : Store (List Nat)
  paused : Bool
  voltageLow : Bool
  rails : List Int
  railsAt : Nat
  scanAt : Nat
  mismatchAt : Option Nat
  computed : List (Nat × Nat × Nat × Nat)
  deriving DecidableEq, Repr

/-- A DMA channel while its transfer or chain runs (R369 to R376): the transfer, the offset of the next burst, reads in flight in order
as (offset, length, serial), bursts read and not yet written, writes in flight as reads are, bytes written, how it is to end, and in
descriptor mode the descriptor, the serial of its fetch, its number and the write-back ring. -/
structure DmaChan where
  src : Nat
  dst : Nat
  count : Nat
  next : Nat
  reads : List (Nat × Nat × Nat)
  got : List (Nat × List Byte)
  writes : List (Nat × Nat × Nat)
  written : Nat
  ending : Option Nat
  discard : Bool
  chain : Bool
  fetching : Bool
  fetchNo : Option Nat
  descAt : Nat
  nextAt : Nat
  last : Bool
  evt : Bool
  ringAt : Nat
  k : Nat
  done : Nat
  deriving DecidableEq, Repr

/-- A monitor command that waits for its audit record (R382): the record's number and the command. -/
inductive MonCmd where
  | wr (offset : BitVec 24) (value : Payload)
  | baud (index : Nat)
  | fuse
  deriving DecidableEq, Repr

/-- The Fraul monitor (R379 to R384): strap sampled, enabled, unlocked, the current challenge, consecutive failures, whether challenges
are throttled, the rate index, and the commands that wait with their audit numbers. -/
structure Mon where
  strap : Bool
  enabled : Bool
  unlocked : Bool
  challenge : Option (BitVec 32)
  fails : Nat
  throttled : Bool
  baud : Nat
  waiting : List (Nat × MonCmd)
  auditNo : Nat
  deriving DecidableEq, Repr

/-- The boundary-scan port (R418): the instruction register, the boundary register, and what drives the pins (0 the device, 1 the
boundary register, 2 nothing). -/
structure Jtag where
  ir : BitVec 8
  boundary : List Bool
  drive : Nat
  deriving DecidableEq, Repr

/-- The whole state of the block. -/
structure State where
  pending : List Instr
  free : Nat
  tick : Nat
  regs : Store Payload
  out : List Out
  hostMem : Store Byte
  hif : Hif
  fab : Fabric
  parts : Store Part
  quads : Store Quadrant
  chans : Store (Option ChanState)
  granary : Store GranRec
  tables : Store Nat
  tabPending : List PendingEntry
  trig : Trigger
  det : Det
  beam : BeamSt
  egr : Egr
  rings : Store SysRing
  scratch : Store Byte
  hbm : Hbm
  time : TimeSt
  bell : Bell
  lanes : Lanes
  stw : Stw
  dma : Store (Option DmaChan)
  dep : Dep
  mon : Mon
  jtag : Jtag
  led : Ledger
  fuses : Fuses
  sys : Sys
  therm : Therm
  deriving DecidableEq, Repr

/-- The configuration of a partition that was never started: SUBINT has its reset value, 4,096 (Table 03-4). -/
def PartCfg.none : PartCfg :=
  { inputs := 0, width4 := false, shape := 0, bshape := 0, t := 4096, g := 0, compact := false, staggered := false, visRoute := 0,
    tqMin := 0, declRate := 0, nInt := 0, chanFirst := 0, chanCount := 0, originS := 0, originNs := 0, originFrac := 0, period := 0 }

/-- A partition that is not started. -/
def Part.idle : Part :=
  { started := false, stopping := false, stopped := false, cfg := PartCfg.none, epochs := [], pending := [], serial := 0, nextOrd := none,
    groupBase := 0, stage := 0, regionAt := 0, oldRegions := [], ranges := [], fill := none, comp := none, ret := none, passed := [],
    readyOrds := [], parked := [], cache := [], thrCache := [], stale := [], thrStale := [], dirty := [], lastInt := 0, prevDeadline := 0, seqs := [],
    partAnchor := ⟨0, 0, 0⟩, reachedSample := 0, withheldInts := [], bank := false, refSample := 0,
    commit := none, oldBanks := [] }

/-- A tile with nothing to do. -/
def TileWork.idle : TileWork := ⟨[], none, []⟩

/-- A quadrant as built (R78): tiles 0 to 31 active, 32 the shadow, 33 the standby. -/
def Quadrant.full : Quadrant :=
  { mode := 0, standby := some 33, shadow := some 32, inService := List.range 32, share := 31, shadowed := 0, compared := 0,
    expired := false, testing := [], reruns := [], lag := 0, windows := 0, transients := [], recent := [] }

/-- A crib that is FREE. -/
def Crib.free : Crib :=
  { state := 0, s0 := none, slots := none, grans := [], lastGran := none, sLast := 0, id := 0, seq := 0, winner := none,
    merged := false, spanFirst := 0, spanLast := 0, preShort := false, postShort := false, sealedShort := none, epoch := 0, frozen := false,
    width4 := false, pos := 0, packets := 0, pc := 0 }

/-- A ring before any header was received. -/
def BellRingSt.idle : BellRingSt := ⟨0, 0, [none, none], [3, 3], false, 0, none, [], [(0, 0), (0, 0)], true, false, false, 0⟩

/-- A link before any measurement. -/
def BellLink.idle : BellLink := ⟨none, [], [], none, (0, 0), []⟩

/-- A lane before bring-up; PRESET gives its taps (R275). -/
def LaneSt.idle : LaneSt := ⟨0, 0, 0, none, 0, [0, 4, 8], 0, [], [], (0, 0), 0, [], ⟨false, false, false⟩, ⟨false, false, false⟩⟩

/-- A line before its first marker: the scrambler all ones, no run. -/
def LineSt.idle : LineSt := ⟨2 ^ 31 - 1, 0, 0⟩

/-- A port that is down. -/
def PortSt.idle : PortSt := ⟨false, 0, 0, 0, 0, [], [], 0, 4095, false, [], false, none, [], true⟩

/-- SR with every bit 0. -/
def StwSr.zero : StwSr := ⟨false, false, false, false, false, false, false⟩

/-- A core that nothing was loaded into. -/
def Core.idle : Core :=
  { prog := [], data := [], d := List.replicate 16 0, a := [0, 0], p := List.replicate 8 0, b := List.replicate 8 0,
    l := List.replicate 8 0, pc := 0, stack := [], sr := StwSr.zero, ie := 0, ip := 0, mod := 0, timer := 0, ringsel := 0,
    subno := 0, cycles := 0, cycleH := 0, ret := (0, StwSr.zero), rep := none, part := 0, state := 0, cause := 0, xfers := [],
    stopDue := false }

/-- A reference no gate has judged: it counts as absent (Table 09-6). -/
def RefMon.absent : RefMon := ⟨0, 0, 0, 0⟩

/-- Right after reset: the boot ROM's first stage, before anything was set up. Memories list nothing. -/
def State.reset : State :=
  { pending := [], free := 0, tick := 0, regs := [], out := [], hostMem := [],
    hif := { latch := none, linkUp := false, rate := .gt2_5, width := .x1, d3hot := false, rings := [], inflight := [], tags := [],
             waiting := [], irqLast := [], irqDeferred := [], robin := 0, nudge := false, hb := false, sev := 0, timeq := true,
             withheld := false },
    fab := ⟨[], [], [], [], 0, [], [], []⟩, parts := [], quads := [], chans := [], granary := [], tables := [], tabPending := [],
    trig := { capt := none, accepted := [], armed := none, armPending := [], event := none, eventSeq := 0,
              cribs := [], placedMax := 0 },
    det := ⟨[], [], [], []⟩, beam := ⟨[], [], [], []⟩, egr := ⟨[], [], []⟩, rings := [], scratch := [],
    hbm := ⟨[], false, [], [], [], [], [], [], [], [], [], [], [], [], [], (0, 0), true⟩,
    time := { sec := 0, sub := 0, slewLeft := 0, runs := [], latches := [], everSet := false, e := 0, hostTq := 0, holdover := false,
              residuals := [], ppsLocked := false, ppsLast := none, ppsDelay := 0, refA := RefMon.absent, refB := RefMon.absent,
              pll := 0, everRef := false, xoCal := false, pllOff := 0, settling := false, heldAt := 0, bins := none, calBusy := false, calPending := false,
              calTemp := 0, calEver := false, busy := false, done := false, missed := false, used := 0, ovf := 0,
              engine := ⟨0, [], 0, none⟩, presc := [], edges := [], lastStamp := [], pcs := [], tsq := [], qseq := 0,
              drops := 0, overflowed := false, ptp := ⟨0, [], none, 0, 0, 0, none, none, none, none⟩ },
    bell := { eff := 0x3820C0000, rings := [BellRingSt.idle, BellRingSt.idle],
              links := [BellLink.idle, BellLink.idle, BellLink.idle, BellLink.idle], roles := [], assigned := [], role0 := none,
              fence0 := none,
              heldOnce := [], fencedAt := [], seen := [], rseq := 0, hbSeq := 0, queues := [[], [], [], []], members := [],
              dead := [], idConflict := false, margins := [10000, 10000, 10000, 10000], goodRuns := [0, 0, 0, 0], isolatedAt := none,
              lastValid := 0, wrongRoleAt := none, copied := [] },
    lanes := ⟨[], [], List.replicate 68 LineSt.idle, List.replicate 68 LineSt.idle⟩, stw := ⟨List.replicate 8 Core.idle, none⟩, dma := [],
    dep := { slot := 0, outage := [], sramCeAt := 0, sramWords := [], paused := false, voltageLow := false,
             rails := [7500, 8000, 11000, 4000, 7500, 12000, 18000], railsAt := 0, scanAt := 0, mismatchAt := none, computed := [] },
    mon := ⟨false, false, false, none, 0, false, 0, [], 0⟩, jtag := ⟨2, List.replicate 16 false, 0⟩,
    led := { banks := [⟨[.bank 0 0, .snapEnd], 0, false⟩, ⟨[], 0, false⟩], active := 0, slots := [⟨[], 0, true⟩, ⟨[], 0, true⟩],
             busy := [], retries := 0, readOnly := false, events := [], oldestAt := none, recovered := false, wornAt := [] },
    fuses := ⟨0, [], false⟩,
    sys := { stopped := false, exiting := false, standbyByD3 := false, reeveRuns := true, porLow := false, rstLow := false,
             inReset := false, resetDue := none, thermLatch := false, powered := true, rejected := none, recovery := [],
             bufferedImage := false, imageSvn := 0, remapped := false, sram := [], working := [], standby := false, pwrWarned := false },
    therm := ⟨List.replicate 24 0, 0, 0, none, none, none⟩ }

end Sys2Proof.Machine
end

