-- ==== Sys2Proof/Machine/Store.lean ====
section
/-!
DEFINITION. Sparse stores: reading, writing and the canonical form of every memory and table of the model.

A store lists only the keys whose value differs from the default of that key, in strictly rising order of key, so equal
contents are equal lists.
-/
namespace Sys2Proof

/-- What key `k` holds: its listed value, else the default `d k`. -/
def storeGet {α : Type} (d : Nat → α) : Store α → Nat → α
  | [], k => d k
  | (j, v) :: m, k => if j = k then v else storeGet d m k

/-- Put the pair (k, v) at its place in rising order, replacing what key `k` held. -/
def storePut {α : Type} (k : Nat) (v : α) : Store α → Store α
  | [] => [(k, v)]
  | (j, w) :: m =>
    if k < j then (k, v) :: (j, w) :: m
    else if k = j then (k, v) :: m
    else (j, w) :: storePut k v m

/-- Drop key `k`, which then holds its default. -/
def storeDrop {α : Type} (k : Nat) : Store α → Store α
  | [] => []
  | (j, w) :: m => if j = k then m else (j, w) :: storeDrop k m

/-- Write value `v` to key `k`: writing the default takes the entry out, so the form stays canonical. -/
def storeSet {α : Type} [DecidableEq α] (d : Nat → α) (m : Store α) (k : Nat) (v : α) : Store α :=
  if v = d k then storeDrop k m else storePut k v m

/-- Change every listed value; one that becomes its default is no longer listed. -/
def storeMap {α : Type} [DecidableEq α] (d : Nat → α) (f : α → α) (m : Store α) : Store α :=
  (m.map fun kv => (kv.1, f kv.2)).filter fun kv => kv.2 ≠ d kv.1

/-- A key is above a bound, where there is one. -/
def aboveKey (b : Option Nat) (k : Nat) : Bool :=
  match b with | none => true | some j => j < k

/-- Every key of the store is above `b`, keys strictly rise, and no entry equals its default. -/
def storeWfFrom {α : Type} [DecidableEq α] (d : Nat → α) : Option Nat → Store α → Bool
  | _, [] => true
  | b, (k, v) :: m => aboveKey b k && v ≠ d k && storeWfFrom d (some k) m

/-- Keys strictly rise, all above `b`. -/
def storeSorted {α : Type} : Option Nat → Store α → Bool
  | _, [] => true
  | b, (k, _) :: m => aboveKey b k && storeSorted (some k) m

/-- The canonical form of a store. -/
def storeWf {α : Type} [DecidableEq α] (d : Nat → α) (m : Store α) : Bool := storeWfFrom d none m

/-- Write the values of `vs` to the keys from `k` on. -/
def storeSetList {α : Type} [DecidableEq α] (d : Nat → α) : Store α → Nat → List α → Store α
  | m, _, [] => m
  | m, k, v :: vs => storeSetList d (storeSet d m k v) (k + 1) vs

/-- The values of the `n` keys from `k` on. -/
def storeGetList {α : Type} (d : Nat → α) (m : Store α) (k n : Nat) : List α :=
  (List.range n).map fun i => storeGet d m (k + i)

end Sys2Proof
end

