-- ==== Sys2Proof/Machine/Ops.lean ====
section
/-!
DEFINITION. The named operations over the register file, the host's memory, the event rings, the interrupts and the Crier word.
-/
namespace Sys2Proof.Machine

/-- The stored payload of a register. -/
def regOf (r : Reg) (s : State) : Payload := storeGet (fun _ => r.reset) s.regs r.offset

/-- The state with a register's payload stored. -/
def setReg (r : Reg) (v : Payload) (s : State) : State :=
  { s with regs := storeSet (fun _ => r.reset) s.regs r.offset v }

/-- A field of a register. -/
def getF (f : Fld) (r : Reg) (s : State) : Nat := fld f (regOf r s)

/-- The state with one field of a register stored. -/
def setF (f : Fld) (r : Reg) (v : Nat) (s : State) : State := setReg r (setFld f v (regOf r s)) s

/-- A counter advanced by `n`, modulo 2^48 (R61). -/
def bump (c : Counter) (n : Nat) (s : State) : State :=
  setReg (.cnt c) (BitVec.ofNat 48 ((regOf (.cnt c) s).toNat + n)) s

/-- The device does nothing: it is unpowered or held in reset, or its clocks are stopped in SHUTDOWN (R386, R387, R401). -/
def held (s : State) : Bool :=
  s.sys.porLow || s.sys.inReset || !s.sys.powered || getF fSysThermStatusState .sysThermStatus s = 3

/-- A command's effect, unless the device is held (log 16). -/
def act (f : State → State) (s : State) : Host.Outcome State Fault Refusal := .next (if held s then s else f s)

/-- The next free value: plain data drawn in order (log 4). -/
def freeNat (s : State) : Nat × State := (Config.freeValue s.free, { s with free := s.free + 1 })

/-- Something leaves the device. -/
def emit (o : Out) (s : State) : State := { s with out := o :: s.out }

/-- A byte of host memory. -/
def hostByte (s : State) (a : Nat) : Byte := storeGet (fun _ => 0) s.hostMem a

/-- `n` bytes of host memory from address `a`. -/
def hostRead (a n : Nat) (s : State) : List Byte := storeGetList (fun _ => 0) s.hostMem a n

/-- The link carries the device's writes: it is up and the function is in D0 (R287, R403). -/
def hostOpen (s : State) : Bool := s.hif.linkUp && !s.hif.d3hot

/-- A device write to host memory; it stops while the link is down (Table 12-2). -/
def hostWrite (a : Nat) (bs : List Byte) (s : State) : State :=
  if hostOpen s then { s with hostMem := storeSetList (fun _ => 0) s.hostMem a bs } else s

/-- The ring context of a ring beside its registers. -/
def ringCtx (n : Nat) (s : State) : RingCtx := storeGet (fun _ => ⟨0, 0, 0, 0, none⟩) s.hif.rings n

/-- The state with a ring's context stored. -/
def setRingCtx (n : Nat) (c : RingCtx) (s : State) : State :=
  { s with hif := { s.hif with rings := storeSet (fun _ => ⟨0, 0, 0, 0, none⟩) s.hif.rings n c } }

/-- A field of a ring's configuration. -/
def ringF (f : Fld) (n : Fin 16384) (s : State) : Nat := getF f (.ringCfg n) s

/-- The enabled rings, in rising order: a ring out of reset is disabled, so every enabled one is listed. -/
def enabledRings (s : State) : List (Fin 16384) :=
  s.regs.filterMap fun kv =>
    match famIdx 0x800008 32 16384 kv.1 with
    | some n => if fld fRingCfgEn kv.2 = 1 then some n else none
    | none => none

/-- The enabled rings of one TYPE (Table 12-3). -/
def ringsOfType (t : Nat) (s : State) : List (Fin 16384) :=
  (enabledRings s).filter fun n => ringF fRingCfgType n s = t

/-- Bytes of an entry of a ring: 64 in SUB rings, 32 in CPL and EVT rings, a slot in DATA rings (R289). -/
def ringEntryBytes (n : Fin 16384) (s : State) : Nat :=
  match ringF fRingCfgType n s with
  | 0 => 64
  | 1 => 32
  | 2 => 32
  | _ => 2 ^ (11 + ringF fRingCfgSlotLog2 n s)

/-- The number of entries of a ring. -/
def ringSize (n : Fin 16384) (s : State) : Nat := 2 ^ ringF fRingCfgLog2 n s

/-- Host address of entry `x` of a ring (R291). -/
def ringAddr (n : Fin 16384) (x : Nat) (s : State) : Nat :=
  (regOf (.ringBase n) s).toNat * 4096 + (x % ringSize n s) * ringEntryBytes n s

/-- The device's index of a ring: next to fetch (SUB) or next to write. -/
def ringIdx (n : Fin 16384) (s : State) : Nat := getF fRingIdxIdx (.ringIdx n) s

/-- PHASE of entry `x` (R291). -/
def ringPhase (n : Fin 16384) (x : Nat) (s : State) : Nat := 1 - (x / ringSize n s) % 2

/-- Entries written and not yet returned by the host, modulo 2^32 (R296). -/
def ringUsed (n : Fin 16384) (s : State) : Nat := (ringIdx n s + 2 ^ 32 - (ringCtx n.val s).cons) % 2 ^ 32

/-- EVPEND: entries written to all EVT rings and not yet returned, saturating at 255 (R307). -/
def evPend (s : State) : Nat :=
  min 255 ((ringsOfType 2 s).foldl (fun n r => n + ringUsed r s) 0)

/-- ATTN.FENCE (R262 to R264): a partition is fenced or fence-pending, or the trigger master was. -/
def fenceShown (s : State) : Bool := regOf .bellFence s ≠ 0 || s.bell.fence0.isSome

/-- The highest severity of the conditions present (R312, log 18): fences, the stopped state, SHUTDOWN, an ID conflict, a
pseudo-channel that awaits retirement and a failed Ledger are faults; low time quality, heat, muting, a lost source and a thin slot
margin degrade. -/
def presentSev (s : State) : Nat :=
  if fenceShown s || s.sys.stopped || s.bell.idConflict || s.hbm.relayout || s.led.readOnly then 3
  else if s.hif.timeq || getF fSysThermStatusState .sysThermStatus s ≠ 0 || s.bell.muted || s.time.holdover ||
      s.bell.margins.any (· < 5000) || s.dep.voltageLow then 2
  else 0

/-- The Crier word ATTN[15:0] (R312, Table 12-15): SEV is never below the severity of a condition still present. -/
def attnNat (s : State) : Nat :=
  (if s.hif.hb then 2 ^ 15 else 0) + max s.hif.sev (presentSev s) * 2 ^ 13 +
  (if fenceShown s then 2 ^ 12 else 0) +
  (if s.hif.timeq then 2 ^ 11 else 0) +
  (if getF fSysThermStatusState .sysThermStatus s ≠ 0 then 2 ^ 10 else 0) +
  (if s.hif.withheld then 2 ^ 9 else 0) +
  (if s.led.busy ≠ [] then 2 ^ 8 else 0) + evPend s

/-- The gap of IRQ_MOD since a vector's last raising still runs (R313). -/
def irqGap (v : Nat) (s : State) : Bool :=
  let last := storeGet (fun _ => 0) s.hif.irqLast v
  last ≠ 0 && s.tick + 1 < last + getF fHifPollIrqMod .hifPoll s * 400

/-- Raise an MSI-X vector, or defer it while the gap of IRQ_MOD since its last raising runs (R313). -/
def raiseVec (v : Nat) (s : State) : State :=
  if !hostOpen s then s
  else if irqGap v s then
    { s with hif := { s.hif with irqDeferred := if v ∈ s.hif.irqDeferred then s.hif.irqDeferred else s.hif.irqDeferred ++ [v] } }
  else emit (.irq v) { s with hif := { s.hif with irqLast := storeSet (fun _ => 0) s.hif.irqLast v (s.tick + 1) } }

/-- Whether FENCE, TIMEQ, THERM or WITHHELD rises or SEV increases from one Crier word to the next (Table 12-16). -/
def attnRises (a b : Nat) : Bool :=
  bitsOf b 14 13 > bitsOf a 14 13 || (!bitOf a 12 && bitOf b 12) || (!bitOf a 11 && bitOf b 11) ||
  (!bitOf a 10 && bitOf b 10) || (!bitOf a 9 && bitOf b 9)

/-- After a change of the Crier word: raise HIF_ATTN_VEC.VEC when it is enabled and a bit it watches rose. -/
def noteAttn (old new : State) : State :=
  if getF fHifAttnVecEn .hifAttnVec new = 1 && attnRises (attnNat old) (attnNat new) then
    raiseVec (getF fHifAttnVecVec .hifAttnVec new) new
  else new

/-- ATTN.WITHHELD set: a product was withheld or dropped (R312). -/
def setWithheld (s : State) : State := noteAttn s { s with hif := { s.hif with withheld := true } }

/-- Local time as completion Q3 carries it: NS in bits [61:32], SEC in bits [31:0] (Table 12-10). -/
def timeWord (s : State) : Nat := (s.time.sub / 2 ^ 32) * 2 ^ 32 + s.time.sec % 2 ^ 32

/-- The EVT ring that takes an event of ring group `g`: the lowest-numbered enabled one (R307). -/
def evtRingOf (g : Nat) (s : State) : Option (Fin 16384) :=
  (ringsOfType 2 s).find? fun n => ringF fRingCfgGroup n s = g

/-- The EVT ring for an event of a partition, or of the device: its own group's, else group 8's (R307). -/
def evtRingFor (part : Option (Fin 8)) (s : State) : Option (Fin 16384) :=
  match part with
  | none => evtRingOf 8 s
  | some p => match evtRingOf p.val s with
    | some n => some n
    | none => evtRingOf 8 s

/-- The four qwords of an event entry (Table 12-12). -/
def eventEntry (e : Event) (part : Option (Fin 8)) (a0 a1 phase lost attn time : Nat) : List Byte :=
  let q0 := phase * 2 ^ 63 + (saturateNat 16 lost) * 2 ^ 32 + attn * 2 ^ 16 +
    (match part with | some p => 2 ^ 15 + p.val * 2 ^ 12 | none => 0) + e.sev * 2 ^ 9 + e.id
  leBytes 8 q0 ++ leBytes 8 a0 ++ leBytes 8 a1 ++ leBytes 8 time

/-- After entries are written to a ring: its vector, when IRQ_EN or the caller asks for it (R313). -/
def ringIrq (n : Fin 16384) (force : Bool) (s : State) : State :=
  if ringF fRingCfgIrqEn n s = 1 || force then raiseVec (ringF fRingCfgVec n s) s else s

/-- Write an event to its ring, or count it dropped (R307); in D3hot, in which the host interface stops, as with the link down (R403,
log 68). -/
def postEvent (e : Event) (part : Option (Fin 8)) (a0 a1 : Nat) (s : State) : State :=
  match (if hostOpen s then evtRingFor part s else none) with
  | none => bump .hifEvtDrop 1 s
  | some n =>
    let c := ringCtx n.val s
    if ringUsed n s ≥ ringSize n s then
      setRingCtx n.val { c with lost := c.lost + 1 } (bump .hifEvtDrop 1 s)
    else
      let x := ringIdx n s
      let s := hostWrite (ringAddr n x s) (eventEntry e part a0 a1 (ringPhase n x s) c.lost (attnNat s) (timeWord s)) s
      let s := setRingCtx n.val { c with lost := 0 } s
      ringIrq n false (setF fRingIdxIdx (.ringIdx n) (x + 1) s)

/-- Raise an event (R338): its severity enters ATTN.SEV (R312), severities d and f enter the Ledger's event log (R395), and it
is written to its EVT ring or counted dropped (R307). -/
def raise (e : Event) (part : Option (Fin 8)) (a0 a1 : Nat) (s : State) : State :=
  let s1 := { s with hif := { s.hif with sev := max s.hif.sev e.sev } }
  let s2 := if e.sev ≥ 2 then
      { s1 with led := { s1.led with events := s1.led.events ++ [⟨e.id, part, a0, a1, timeWord s1⟩],
                                                oldestAt := some (s1.led.oldestAt.getD s1.tick) } }
    else s1
  noteAttn s (postEvent e part a0 a1 s2)

/-- ARG0 of an event: object, secondary index and cause (R338). -/
def arg0 (obj second cause : Nat) : Nat := obj % 65536 + (second % 65536) * 65536 + cause * 2 ^ 32

/-- The split-write latch discarded by another access or a link event (R286). -/
def dropLatch (s : State) : State :=
  match s.hif.latch with
  | none => s
  | some _ => raise .hifSplitDiscard none 0 0 { s with hif := { s.hif with latch := none } }

/-- A master's interface takes no new request while its class drains (R36); the monitor's accesses do not cross the fabric. -/
def barred (m : Master) (s : State) : Bool :=
  match m with
  | .host => .hostIn ∈ s.fab.draining
  | .reeve => .reeve ∈ s.fab.draining
  | .monitor => false

/-- The effect of an access a master makes, unless the device is held or the master's interface drains (R36). -/
def actFrom (m : Master) (f : State → State) (s : State) : Host.Outcome State Fault Refusal :=
  act (fun s => if barred m s then s else f s) s

/-- The effect of a register access a master makes: one of the host's drops the split-write latch (R286). -/
def actBy (m : Master) (f : State → State) (s : State) : Host.Outcome State Fault Refusal :=
  actFrom m (fun s => f (if m = .host then dropLatch s else s)) s

/-- An operation waits for the Ledger's flash (R394); ATTN.LEDGER is set while any does. A read-only Ledger takes none (R397). -/
def ledgerQueue (o : LedOp) (s : State) : State :=
  if s.led.readOnly then s else noteAttn s { s with led := { s.led with busy := s.led.busy ++ [o] } }

/-- THROTTLE: the capture reader, DMA channels 0 to 27 and the Stewards are paused (Table 16-6). -/
def throttled (s : State) : Bool := getF fSysThermStatusState .sysThermStatus s = 2

/-- STAGE of boot: 4 is DONE (Table 16-8). -/
def bootStage (s : State) : Nat := getF fSysBootStatusStage .sysBootStatus s

/-- The output pins are the device's own: STAGE has reached FIRMWARE (R414). -/
def pinsLive (s : State) : Bool := bootStage s = 3 || bootStage s = 4

/-- A pulse on an output pin, held low before FIRMWARE (R414). -/
def pulse (pin ns : Nat) (s : State) : State := if pinsLive s then emit (.pulse pin ns) s else s

/-- THERM_ALERT_N is driven low: in THROTTLE and in SHUTDOWN, but never before FIRMWARE (R399, R414, R416). -/
def thermAlertLow (s : State) : Bool :=
  getF fSysThermStatusState .sysThermStatus s ≥ 2 && (pinsLive s || getF fSysThermStatusState .sysThermStatus s = 3)

end Sys2Proof.Machine
end

