-- ==== Sys2Proof/Machine/DescOps.lean ====
section
/-!
DEFINITION. Descriptors in flight: which one a command runs, the checks every descriptor makes, and its completion.
-/
namespace Sys2Proof.Machine

/-- A qword of a descriptor's body (R297). -/
def Desc.qw (d : Desc) (i : Nat) : Nat := d.q.getD i 0

/-- OPCODE of the header (Table 12-6). -/
def Desc.opcode (d : Desc) : Nat := bitsOf (d.qw 0) 7 0

/-- PART of the header. -/
def Desc.part (d : Desc) : Fin 8 := Fin.ofNat 8 (bitsOf (d.qw 0) 14 12)

/-- FENCE of the header. -/
def Desc.fence (d : Desc) : Bool := bitOf (d.qw 0) 8

/-- QUIET of the header. -/
def Desc.quiet (d : Desc) : Bool := bitOf (d.qw 0) 9

/-- IRQ of the header. -/
def Desc.irq (d : Desc) : Bool := bitOf (d.qw 0) 10

/-- The record of a tag: none has carried it after reset (R288). -/
def tagRec (t : Nat) (s : State) : TagRec := storeGet (fun _ => ⟨false, 0, 0, false⟩) s.hif.tags t

/-- The state with a tag's record stored. -/
def setTagRec (t : Nat) (r : TagRec) (s : State) : State :=
  { s with hif := { s.hif with tags := storeSet (fun _ => ⟨false, 0, 0, false⟩) s.hif.tags t r } }

/-- One check a descriptor makes: whether it fails, its status code, and RESULT0 and RESULT1 when it does. -/
structure Check where
  fails : Bool
  code : Nat
  r0 : Nat
  r1 : Nat
  deriving DecidableEq, Repr

/-- A check with no results. -/
def chk (fails : Bool) (code : Nat) : Check := ⟨fails, code, 0, 0⟩

/-- The failing check of lowest code, the first of them when codes are equal (R305). -/
def firstFail : List Check → Option Check
  | [] => none
  | c :: cs =>
    match firstFail cs with
    | none => if c.fails then some c else none
    | some d => if c.fails && c.code ≤ d.code then some c else some d

/-- The first 8 B of a completion carry SUB_RING, TAG, ATTN, OPCODE and STATUS; Q3 carries PHASE and the time (Table 12-10). -/
def completionEntry (d : Desc) (status r0 r1 phase attn time : Nat) : List Byte :=
  leBytes 8 (d.ring * 2 ^ 50 + d.tag * 2 ^ 32 + attn * 2 ^ 16 + d.opcode * 2 ^ 8 + status) ++
  leBytes 8 r0 ++ leBytes 8 r1 ++ leBytes 8 (phase * 2 ^ 63 + time)

/-- A reserved entry of a CPL ring given back (R299). -/
def releaseCpl (n : Nat) (s : State) : State :=
  let c := ringCtx n s
  setRingCtx n { c with reserved := c.reserved - 1 } s

/-- Write a completion to its CPL ring, or discard it when the ring is disabled or the link is down (R287, R290, R304). -/
def writeCompletion (d : Desc) (status r0 r1 : Nat) (s : State) : State :=
  let n := Fin.ofNat 16384 d.cpl
  if d.orphan || !hostOpen s || ringF fRingCfgEn n s = 0 || ringF fRingCfgType n s ≠ 1 then
    setTagRec d.tag ⟨true, status, d.opcode, false⟩ s
  else
    let x := ringIdx n s
    let s := hostWrite (ringAddr n x s) (completionEntry d status r0 r1 (ringPhase n x s) (attnNat s) (timeWord s)) s
    let s := setF fRingIdxIdx (.ringIdx n) (x + 1) s
    ringIrq n d.irq (setTagRec d.tag ⟨true, status, d.opcode, true⟩ s)

/-- The descriptor leaves flight. -/
def dropDesc (d : Desc) (s : State) : State :=
  { s with hif := { s.hif with inflight := s.hif.inflight.filter fun e => !(e.tag = d.tag && e.ring = d.ring) } }

/-- A completion that waits: any while the Reeve is stopped, for its restart (R329); for the exit from STANDBY that of a START, or of a
CAPTURE_CONFIG with ENABLE = 1, that succeeds (R403). -/
def waitsForExit (d : Desc) (status : Nat) (s : State) : Bool :=
  !s.sys.reeveRuns || (s.sys.exiting && status = 0 && (d.opcode = 0x01 || (d.opcode = 0x06 && bitOf (d.qw 1) 0)))

/-- A descriptor has ended and its completion waits. -/
def Desc.waits (d : Desc) (s : State) : Bool := s.hif.waiting.any fun w => w.desc.tag = d.tag && w.desc.ring = d.ring

/-- A descriptor ends: it leaves flight, its tag's status is recorded, and its completion is written, or discarded under QUIET; one
that waits stays in flight (R288, R298, R304, R329, R403). -/
def complete (d : Desc) (status r0 r1 : Nat) (s : State) : State :=
  if d.waits s then s
  else if waitsForExit d status s then { s with hif := { s.hif with waiting := s.hif.waiting ++ [⟨d, status, r0, r1⟩] } }
  else
    let s := releaseCpl d.cpl (dropDesc d s)
    if d.quiet && status = 0 then setTagRec d.tag ⟨true, status, d.opcode, false⟩ s
    else writeCompletion d status r0 r1 s

/-- The completions that waited come, but for those that wait on. -/
def completeWaiting (s : State) : State :=
  s.hif.waiting.foldl (fun s c => complete c.desc c.status c.r0 c.r1 s) { s with hif := { s.hif with waiting := [] } }

/-- The body bits of an opcode that are not RSVD, Q1 to Q7 (Tables 12-7 and 12-8). -/
def bodyMask (op : Nat) : List Nat :=
  match op with
  | 0x01 | 0x02 => [2 ^ 56 - 1, 2 ^ 55 - 1, 2 ^ 56 - 1, 2 ^ 29 - 1, 2 ^ 64 - 1, 2 ^ 30 - 1, 2 ^ 64 - 1]
  | 0x04 => [2 ^ 61 - 1, 2 ^ 49 - 1, 2 ^ 64 - 1, 2 ^ 32 - 1, 0, 0, 0]
  | 0x05 => [2 ^ 64 - 1, 2 ^ 64 - 1, 0, 0, 0, 0, 0]
  | 0x06 => [2 ^ 56 - 1, 0, 0, 0, 0, 0, 0]
  | 0x07 => [2 ^ 45 - 1, 2 ^ 64 - 1, 2 ^ 64 - 1, 0, 0, 0, 0]
  | 0x08 => [2 ^ 24 - 1, 2 ^ 64 - 1, 0, 0, 0, 0, 0]
  | 0x09 => [0x3FFF0000 + 0xFF, 2 ^ 49 - 1, 2 ^ 64 - 1, 2 ^ 32 - 1, 0, 0, 0]
  | 0x0A => [7, 2 ^ 48 - 1, 2 ^ 32 - 1, 2 ^ 64 - 1, 2 ^ 64 - 1, 0, 0]
  | 0x0B => [2 ^ 63 - 1, 0, 0, 0, 0, 0, 0]
  | 0x0C => [0xFF, 0, 0, 0, 0, 0, 0]
  | 0x0D => [2 ^ 32 - 1 - 0xF0, 2 ^ 64 - 1, 2 ^ 32 - 1, 0, 0, 0, 0]
  | 0x0E => [0x3FFF0007, 0, 0, 0, 0, 0, 0]
  | 0x0F => [7, 0, 0, 0, 0, 0, 0]
  | 0x10 => [2 ^ 32 - 1, 2 ^ 64 - 1, 2 ^ 32 - 1, 0, 0, 0, 0]
  | 0x11 => [2 ^ 17 - 1, 0, 0, 0, 0, 0, 0]
  | _ => [0, 0, 0, 0, 0, 0, 0]

/-- An RSVD bit of the header or the body is nonzero (R10, R297). -/
def rsvdSet (d : Desc) : Bool :=
  bitsOf (d.qw 0) 63 33 ≠ 0 || bitOf (d.qw 0) 15 || bitOf (d.qw 0) 11 ||
  ((bodyMask d.opcode).zip (d.q.drop 1)).any fun mq => Nat.land mq.2 mq.1 ≠ mq.2

/-- Opcodes accepted only from a ring of group 8: the scope "device" of Table 12-7. -/
def deviceScope (op : Nat) : Bool :=
  op = 0x06 || op = 0x07 || op = 0x08 || (0x0A ≤ op && op ≤ 0x10)

/-- Opcodes of Table 12-7. -/
def opcodeDefined (op : Nat) : Bool := op ≤ 0x11

/-- NOP, QUERY and STATS_READ run in the stopped state (R314). -/
def runsStopped (op : Nat) : Bool := op = 0x00 || op = 0x11 || op = 0x09

/-- The checks every descriptor makes: RSVD (R10), the ring's group and scope (R292), the stopped state (R314). -/
def headChecks (d : Desc) (s : State) : List Check :=
  let g := ringF fRingCfgGroup (Fin.ofNat 16384 d.ring) s
  [chk (rsvdSet d) 0x11,
   chk (g ≠ 8 && (d.part.val ≠ g || deviceScope d.opcode)) 0x14,
   chk (s.sys.stopped && !runsStopped d.opcode) 0x52]

/-- The descriptors of the same ring that were fetched before this one and are still in flight. -/
def earlierOf (d : Desc) (s : State) : List Desc :=
  (s.hif.inflight.takeWhile fun e => !(e.tag = d.tag && e.ring = d.ring)).filter fun e => e.ring = d.ring

/-- A fetched descriptor may begin: the Reeve runs, every earlier one of its ring has begun, and under FENCE none is left
(R297, R306, R329). -/
def mayBegin (d : Desc) (s : State) : Bool :=
  s.sys.reeveRuns && !d.begun && (earlierOf d s).all (·.begun) && (!d.fence || (earlierOf d s).isEmpty)

/-- The descriptor in flight that carries a tag. -/
def descOf (tag : Nat) (s : State) : Option Desc := s.hif.inflight.find? fun d => d.tag = tag

/-- The descriptor marked begun. -/
def markBegun (d : Desc) (s : State) : State :=
  { s with hif := { s.hif with inflight := s.hif.inflight.map fun e =>
      if e.tag = d.tag && e.ring = d.ring then { e with begun := true } else e } }

/-- Run the descriptor of this opcode in flight under `tag`, when it may begin: the head's checks and its own decide between a
refusal with the lowest failing code and its effect (R299, R305). A command whose descriptor is not there changes nothing. -/
def runDesc (op : Nat → Bool) (tag : Nat) (checks : Desc → State → List Check) (effect : Desc → State → State) (s : State) :
    State :=
  match descOf tag s with
  | none => s
  | some d =>
    if op d.opcode && mayBegin d s then
      let s := markBegun d s
      match firstFail (headChecks d s ++ checks d s) with
      | some c => complete d c.code c.r0 c.r1 s
      | none => effect d s
    else s

end Sys2Proof.Machine
end

