-- ==== Sys2Proof/Machine/CoreOps.lean ====
section
/-!
DEFINITION. Steward cores as the rest of the device reaches them: interrupts, faults, and the memories from outside.
-/
namespace Sys2Proof.Machine

/-- A core. -/
def coreOf (c : Nat) (s : State) : Core := s.stw.cores.getD c Core.idle

/-- The state with a core stored. -/
def setCore (c : Nat) (x : Core) (s : State) : State := { s with stw := { s.stw with cores := s.stw.cores.set c x } }

/-- The state with a core changed. -/
def onCore (c : Nat) (f : Core → Core) (s : State) : State := setCore c (f (coreOf c s)) s

/-- A core's running states: RUNNING and WAITING. -/
def Core.active (x : Core) : Bool := x.state = 1 || x.state = 2

/-- An interrupt source becomes pending; a core in WAIT wakes when it is enabled (R348, R351). -/
def Core.pend (k : Nat) (x : Core) : Core :=
  if x.active then
    let ip := putBits x.ip k k 1
    { x with ip := ip, state := if x.state = 2 && Nat.land ip x.ie ≠ 0 then 1 else x.state }
  else x

/-- RING (R351): a ring of Table 14-7 received an entry. -/
def ringNotify (k : Nat) (s : State) : State :=
  if k < 4 then { s with stw := { s.stw with cores := s.stw.cores.map fun x => if x.ringsel = k then x.pend 1 else x } } else s

/-- SUBINT (R351): the first batch of a sub-integration of the bound partition opened. -/
def subNotify (p : Fin 8) (sub : Nat) (s : State) : State :=
  { s with stw := { s.stw with cores := s.stw.cores.map fun x =>
      if x.part = p && x.active then { x.pend 2 with subno := wrap 48 sub } else x } }

/-- A 32-bit container of data memory, as fabric masters see it (R340). -/
def Core.container (x : Core) (a : Nat) : Nat := storeGet (fun _ => 0) x.data (a % 65536)

/-- A container written. -/
def Core.putContainer (a v : Nat) (x : Core) : Core := { x with data := storeSet (fun _ => 0) x.data (a % 65536) (v % 2 ^ 32) }

/-- A word read by the core: bits [23:0] of the container (R340). -/
def Core.load (x : Core) (a : Nat) : W24 := BitVec.ofNat 24 (x.container a)

/-- A word written by the core: sign-extended to 32 bits (R340). -/
def Core.store (a : Nat) (v : W24) (x : Core) : Core := x.putContainer a (unsignedOf 32 (signedOf 24 v.toNat))

/-- A fault (R353): the core stops FAULTED, a transfer that has started keeps its result to write, the rest are discarded. A STW_STOP that
waits goes on waiting for its core's boundary (R356). -/
def coreFault (c cause : Nat) (s : State) : State :=
  let x := coreOf c s
  let s := setCore c { x with state := 3, cause := cause, rep := none, xfers := (x.xfers.take 1).filter (·.result.isSome) } s
  raise .stwFault (some x.part) (arg0 c x.part.val cause) x.pc s

end Sys2Proof.Machine
end

