-- ==== Sys2Proof/Machine/LineCode.lean ====
section
/-!
DEFINITION. The line code of Viros mode (R272, R273): start marker, scrambler, Gray coding, stuffing, and what the receiver makes of them.
-/
namespace Sys2Proof.Machine

/-- The start marker of R272, its first bit first. -/
def startMarker : List Nat := (List.range 64).map fun i => 0xF0E1D2C3B4A59687 / 2 ^ (63 - i) % 2

/-- The scrambler's state at the last unit interval of a start marker. -/
def allOnes : Nat := 2 ^ 31 - 1

/-- Bits XORed with the additive scrambler x^31 + x^28 + 1, and its state after them; descrambling is the same (R272, log 154). -/
def scramble : Nat → List Nat → List Nat × Nat
  | r, [] => ([], r)
  | r, x :: xs =>
    let b := (r / 2 ^ 30 + r / 2 ^ 27) % 2
    let (ys, r') := scramble ((r * 2 + b) % 2 ^ 31) xs
    ((x + b) % 2 :: ys, r')

/-- The bits of bytes, most significant first. -/
def bitsOfBytes (bs : List Byte) : List Nat := bs.flatMap fun b => (List.range 8).map fun i => b.toNat / 2 ^ (7 - i) % 2

/-- The whole bytes of bits. -/
def bytesOfBits : List Nat → List Byte
  | a :: b :: c :: d :: e :: f :: g :: h :: r =>
    BitVec.ofNat 8 (a * 128 + b * 64 + c * 32 + d * 16 + e * 8 + f * 4 + g * 2 + h) :: bytesOfBits r
  | _ => []

/-- Bits as PAM4 levels 0 to 3 under Gray coding, the earlier bit the most significant (R272). -/
def pamLevels : List Nat → List Nat
  | a :: b :: r => (2 * a + (a + b) % 2) :: pamLevels r
  | _ => []

/-- The bits of a lane's symbols. -/
def symbolBits (pam : Bool) (xs : List Nat) : List Nat := if pam then xs.flatMap fun x => [x / 2, (x + x / 2) % 2] else xs

/-- A lane's symbols of bits. -/
def bitSymbols (pam : Bool) (bs : List Nat) : List Nat := if pam then pamLevels bs else bs

/-- The stuff symbol after a run of `x` (R273): the complementary bit, or the opposite outer level. -/
def stuffSymbol (pam : Bool) (x : Nat) : Nat := if pam then (if x / 2 = 0 then 3 else 0) else 1 - x

/-- The run a symbol continues or begins. -/
def runOn (last run x : Nat) : Nat := if x = last then run + 1 else 1

/-- A stuff symbol after every run of 63 identical symbols (R273); the last symbol and its run go on. -/
def stuff (pam : Bool) : Nat → Nat → List Nat → List Nat × Nat × Nat
  | last, run, [] => ([], last, run)
  | last, run, x :: xs =>
    if runOn last run x = 63 then
      let (ys, e) := stuff pam (stuffSymbol pam x) 1 xs
      (x :: stuffSymbol pam x :: ys, e)
    else
      let (ys, e) := stuff pam x (runOn last run x) xs
      (x :: ys, e)

/-- The symbol after every run of 63 deleted (R273). -/
def unstuff : Nat → Nat → List Nat → List Nat × Nat × Nat
  | last, run, [] => ([], last, run)
  | last, run, x :: xs =>
    if run = 63 then unstuff x 1 xs
    else
      let (ys, e) := unstuff x (runOn last run x) xs
      (x :: ys, e)

/-- The bits after the first start marker. -/
def afterMarker : List Nat → Option (List Nat)
  | [] => none
  | x :: xs => if (x :: xs).take 64 = startMarker then some ((x :: xs).drop 64) else afterMarker xs

/-- The symbols of a frame after `fill` bits of fill, and the line after them (R272, R273, R279). -/
def LineSt.send (l : LineSt) (pam : Bool) (fill : Nat) (bs : List Byte) : List Nat × LineSt :=
  let body := scramble allOnes (bitsOfBytes bs)
  let bits := (scramble l.scr (List.replicate fill 0)).1 ++ startMarker ++ body.1
  let (ys, last, run) := stuff pam l.last l.run (bitSymbols pam bits)
  (ys, ⟨body.2, last, run⟩)

/-- The bytes after the start marker of symbols received, and the line after them (R272, R273). -/
def LineSt.receive (l : LineSt) (pam : Bool) (xs : List Nat) : Option (List Byte) × LineSt :=
  let (ys, last, run) := unstuff l.last l.run xs
  match afterMarker (symbolBits pam ys) with
  | none => (none, ⟨l.scr, last, run⟩)
  | some bits =>
    let body := scramble allOnes bits
    (some (bytesOfBits body.1), ⟨body.2, last, run⟩)

end Sys2Proof.Machine
end

