-- ==== Sys2Proof/Machine/LaneOps.lean ====
section
/-!
DEFINITION. Lanes and ports: states, Viros link frames with their replay, and what a port carries (R268 to R281).
-/
namespace Sys2Proof.Machine

/-- A lane's number among the 68: Bell lanes follow the data lanes. -/
def laneNo : Lane → Nat
  | .data l => l.val
  | .bell l => 64 + l.val

/-- The status register of a lane (Table 11-9). -/
def laneReg (n : Nat) : Reg := if n < 64 then .laneStatus (Fin.ofNat 64 n) else .laneBellStatus (Fin.ofNat 4 n)

/-- A lane beside its status register. -/
def laneOf (n : Nat) (s : State) : LaneSt := storeGet (fun _ => LaneSt.idle) s.lanes.lanes n

/-- The state with a lane changed. -/
def onLane (n : Nat) (f : LaneSt → LaneSt) (s : State) : State :=
  { s with lanes := { s.lanes with lanes := storeSet (fun _ => LaneSt.idle) s.lanes.lanes n (f (laneOf n s)) } }

/-- A port. -/
def portOf (g : Nat) (s : State) : PortSt := storeGet (fun _ => PortSt.idle) s.lanes.ports g

/-- The state with a port changed. -/
def onPort (g : Nat) (f : PortSt → PortSt) (s : State) : State :=
  { s with lanes := { s.lanes with ports := storeSet (fun _ => PortSt.idle) s.lanes.ports g (f (portOf g s)) } }

/-- STATE of a lane: 0 DOWN, 1 NEG, 2 STEP, 3 TRAIN, 4 ACTIVE, 5 SLEEP, 6 EIDLE, 7 LOOP. -/
def laneState (n : Nat) (s : State) : Nat := getF fLaneStatusState (laneReg n) s

/-- RATE of a lane. -/
def laneRate (n : Nat) (s : State) : Nat := getF fLaneStatusRate (laneReg n) s

/-- FAILED of a lane. -/
def laneFailed (n : Nat) (s : State) : Bool := getF fLaneStatusFailed (laneReg n) s = 1

/-- GMODE of a group. -/
def gmode (g : Nat) (s : State) : Nat := getF fLaneGroupCfgGmode (.laneGroupCfg (Fin.ofNat 8 g)) s

/-- The lanes a group's port mode uses (Table 11-1). -/
def portLanes (g : Nat) (s : State) : List Nat :=
  let n := match gmode g s with
    | 0 => 0
    | 3 => 8
    | 5 => 8
    | 6 => getF fLaneGroupCfgVlanes (.laneGroupCfg (Fin.ofNat 8 g)) s
    | 7 => 0
    | _ => 4
  (List.range n).map (8 * g + ·)

/-- The lane is a data lane of a Viros port. -/
def isViros (n : Nat) (s : State) : Bool := n < 64 && gmode (n / 8) s = 6 && n ∈ portLanes (n / 8) s

/-- The ACTIVE lanes of a port. -/
def activeLanes (g : Nat) (s : State) : List Nat := (portLanes g s).filter fun n => laneState n s = 4

/-- The port carries frames: it has an ACTIVE lane, and an Ethernet port is up (R281). -/
def portUp (g : Nat) (s : State) : Bool := activeLanes g s ≠ [] && (gmode g s = 6 || (portOf g s).ethUp)

/-- Line rate of a port in Gb/s: the mode's, or the sum of its ACTIVE lanes' rates (Tables 11-1 and 11-2). -/
def portRate (g : Nat) (s : State) : ℚ :=
  match gmode g s with
  | 1 => if portUp g s then 100 else 0
  | 2 => if portUp g s then 200 else 0
  | 3 => if portUp g s then 400 else 0
  | 4 => if portUp g s then 400 else 0
  | 5 => if portUp g s then 800 else 0
  | 6 => ((activeLanes g s).map fun n =>
      match laneRate n s with
      | 0 => (5 / 4 : ℚ) | 1 => 5 / 2 | 2 => 5 | 3 => 10 | 4 => 25 | 5 => 28 | 6 => 56 | _ => 112).foldl (· + ·) 0
  | _ => 0

/-- A Bell lane that is not ACTIVE carries no valid frames: its direction is missing, and its bit of LINKS_UP or TRUNK_UP clears
(R246, Table 10-8). -/
def bellLaneStops (l : Nat) (s : State) : State :=
  let k := l / 2
  let r := s.bell.rings.getD k BellRingSt.idle
  let s := { s with bell := { s.bell with rings := s.bell.rings.set k { r with missing := r.missing.set (l % 2) 3 } } }
  let f := if k = 0 then fBellStatusLinksUp else fBellStatusTrunkUp
  setF f .bellStatus (putBits (getF f .bellStatus s) (l % 2) (l % 2) 0) s

/-- A lane enters a state: LANE_UP on each entry to ACTIVE, LANE_DOWN on each to DOWN (R274). -/
def laneEnter (n st : Nat) (s : State) : State :=
  let old := laneState n s
  let s := setF fLaneStatusState (laneReg n) st s
  let s := if 64 ≤ n && st ≠ 4 then bellLaneStops (n - 64) s else s
  if old = st then s
  else if st = 4 then raise .laneUp none (arg0 (n % 64) (if n < 64 then n / 8 else 8) 0) 0 s
  else if st = 0 then raise .laneDown none (arg0 (n % 64) (if n < 64 then n / 8 else 8) 0) 0 s
  else s

/-- The lanes of an Ethernet port change state together, but for those in a loopback; R274's events are a Viros lane's, and the port has
its own. -/
def ethLanes (g st : Nat) (s : State) : State :=
  (portLanes g s).foldl (fun s n => if laneState n s = 7 then s else setF fLaneStatusState (laneReg n) st s) s

/-- The rate of a lane set. -/
def setRate (n r : Nat) (s : State) : State := setF fLaneStatusRate (laneReg n) r s

/-- A lane sends PAM4: a data lane at rate index 6 or 7 (Table 11-2). -/
def lanePam (n : Nat) (s : State) : Bool := n < 64 && laneRate n s ≥ 6

/-- The symbols of a lane with its polarity inverted (Table 11-8). -/
def polarity (inv pam : Bool) (xs : List Nat) : List Nat := if inv then xs.map fun x => (if pam then 3 else 1) - x else xs

/-- TX_INV or RX_INV of a data lane. -/
def laneInv (f : Fld) (n : Nat) (s : State) : Bool := n < 64 && getF f (.laneCfg (Fin.ofNat 64 n)) s = 1

/-- A frame's bytes as the symbols the lane sends: fill since the last frame, whose length no row gives (free, log 154), the start marker
and the scrambled bytes, all stuffed (R272, R273). -/
def lineSend (n : Nat) (bs : List Byte) (s : State) : List Nat × State :=
  let (u, s) := freeNat s
  let pam := lanePam n s
  let (xs, l) := (s.lanes.tx.getD n LineSt.idle).send pam (if pam then 2 * u else u) bs
  (polarity (laneInv fLaneCfgTxInv n s) pam xs, { s with lanes := { s.lanes with tx := s.lanes.tx.set n l } })

/-- The bytes of the frame that the symbols received on a lane hold: stuff symbols deleted, the start marker found, the rest
descrambled (R272, R273). -/
def lineReceive (n : Nat) (xs : List Nat) (s : State) : Option (List Byte) × State :=
  let pam := lanePam n s
  let (bs, l) := (s.lanes.rx.getD n LineSt.idle).receive pam (polarity (laneInv fLaneCfgRxInv n s) pam xs)
  (bs, { s with lanes := { s.lanes with rx := s.lanes.rx.set n l } })

/-- Send a link frame on a lane. -/
def linkSend (n kind : Nat) (bs : List Byte) (s : State) : State :=
  let (xs, s) := lineSend n bs s
  emit (.link n kind bs xs) s

/-- A Viros link frame (Table 11-4) with its CRC-32C. -/
def linkFrame (kind seq ack : Nat) (nak sof eof : Bool) (body : List Byte) : List Byte :=
  let h := kind * 2 ^ 60 + seq * 2 ^ 48 + ack * 2 ^ 36 + (if nak then 2 ^ 35 else 0) + (if sof then 2 ^ 34 else 0) +
    (if eof then 2 ^ 33 else 0) + body.length * 2 ^ 20
  let bs := beBytes 8 h ++ body
  bs ++ beBytes 4 (crcLsb 32 0x1EDC6F41 (2 ^ 32 - 1) (2 ^ 32 - 1) bs)

/-- Send a DATA frame on the port's next ACTIVE lane (R276). -/
def sendLink (g : Nat) (f : LinkFrame) (s : State) : State :=
  match activeLanes g s with
  | [] => s
  | l0 :: ls =>
    let p := portOf g s
    let l := (l0 :: ls).getD (p.nextLane % (ls.length + 1)) l0
    linkSend l 2 (linkFrame 1 f.seq p.lastGot false f.sof f.eof f.body) (onPort g (fun p => { p with nextLane := p.nextLane + 1 }) s)

/-- Bytes the replay buffer holds. -/
def replayBytes (p : PortSt) : Nat := (p.unacked.map fun f => f.body.length).foldl (· + ·) 0

/-- Send the frames that wait while the replay buffer has room: 512 frames, 1 MiB (R277). -/
def drainWaiting (g : Nat) : Nat → State → State
  | 0, s => s
  | k + 1, s =>
    let p := portOf g s
    match p.waiting with
    | [] => s
    | f :: rest =>
      if p.unacked.length ≥ 512 || replayBytes p + f.body.length > 1048576 || activeLanes g s = [] then s
      else
        let f := { f with seq := p.txSeq }
        drainWaiting g k (sendLink g f (onPort g (fun p => { p with waiting := rest, unacked := p.unacked ++ [f],
                                                                    txSeq := (p.txSeq + 1) % 4096 }) s))

/-- An Ethernet frame cut into link frames of at most 2,048 B (R276). -/
def cutFrame (fuel : Nat) (first : Bool) (bs : List Byte) : List LinkFrame :=
  match fuel with
  | 0 => []
  | k + 1 =>
    if bs.length ≤ 2048 then [⟨0, first, true, bs⟩]
    else ⟨0, first, false, bs.take 2048⟩ :: cutFrame k false (bs.drop 2048)

/-- Send an Ethernet frame, whole with its FCS, over a Viros port (R276). -/
def virosSend (g : Nat) (frame : List Byte) (s : State) : State :=
  let fs := cutFrame 8 true (frame ++ leBytes 4 (crc32 frame))
  let s := onPort g (fun p => { p with waiting := p.waiting ++ fs }) s
  drainWaiting g ((portOf g s).waiting.length) s

/-- Send an Ethernet frame of the device's own on a port that carries frames. -/
def portFrame (g : Nat) (frame : List Byte) (s : State) : State :=
  if !portUp g s then s
  else if gmode g s = 6 then virosSend g frame s
  else emit (.frame g (frame ++ leBytes 4 (crc32 frame))) s

/-- A CTRL frame with this receiver's ACK_SEQ (R277). -/
def sendCtrl (g : Nat) (nak : Bool) (s : State) : State :=
  match activeLanes g s with
  | [] => s
  | l :: _ => linkSend l 3 (linkFrame 2 0 (portOf g s).lastGot nak false false []) s

/-- A lane that fails is removed from its port until its group is configured again (R278). -/
def failLane (n : Nat) (s : State) : State :=
  let s := laneEnter n 0 (setF fLaneStatusFailed (laneReg n) 1 s)
  let s := raise .laneFailed none (arg0 (n % 64) (n / 8) 0) 0 s
  if isViros n s && activeLanes (n / 8) s ≠ [] then raise .lanePortDegraded none (arg0 (n % 64) (n / 8) 0) 0 s else s

/-- LANE_RETRAIN (R278): a lasting error retrains a Viros lane; the third within 60 s fails it. -/
def retrainLane (n : Nat) (s : State) : State :=
  let recent := s.tick :: (laneOf n s).retrains.filter fun t => s.tick < t + 24000000000
  let s := onLane n (fun x => { x with retrains := recent, replays := [], failSeq := (0, 0), readyRun := 0 }) s
  if recent.length ≥ 3 && n < 64 then failLane n s
  else
    let s := if n < 64 then bump (.laneRetrain (Fin.ofNat 64 n)) 1 s else s
    raise .laneRetrain none (arg0 (n % 64) (if n < 64 then n / 8 else 8) 0) 0 (laneEnter n 3 s)

/-- A frame begins on a Bell lane: the 256 of R278 are counted in these. -/
def bellFrame (l : Nat) (s : State) : State := onLane (64 + l) (fun x => { x with bellFrames := x.bellFrames + 1 }) s

/-- A CRC failure on a Bell lane (R278): 16 within 256 frames retrain it. -/
def bellLaneFail (l : Nat) (s : State) : State :=
  let x := laneOf (64 + l) s
  let fails := x.bellFrames :: x.bellFails.filter fun k => x.bellFrames < k + 256
  let s := onLane (64 + l) (fun x => { x with bellFails := if fails.length ≥ 16 then [] else fails }) s
  if fails.length ≥ 16 && laneState (64 + l) s = 4 then retrainLane (64 + l) s else s

/-- A CTRL frame that asks the partner for a low-power state of the lane, or for its exit (R280); where it stands in the payload is the
model's choice (log 92). -/
def sendLowPower (n k : Nat) (s : State) : State :=
  linkSend n 3 (linkFrame 2 0 (portOf (n / 8) s).lastGot false false false (beBytes 1 k)) s

/-- A direction of a lane goes to sleep, or the lane to electrical idle (R280). -/
def sleepLane (n : Nat) (f : LowPower → LowPower) (s : State) : State :=
  let s := onLane n (fun x => { x with asleep := f x.asleep }) s
  laneEnter n (if (laneOf n s).asleep.eidle then 6 else 5) s

/-- The low-power states a lane wants and has not asked for, once its port's replay buffer is empty (R280): a lane whose transmitter
sleeps can ask for none, and electrical idle is entered from ACTIVE. -/
def askLowPower (n : Nat) (s : State) : State :=
  let w := (laneOf n s).wants
  let awake := fun s : State => (laneState n s = 4 || laneState n s = 5) && !(laneOf n s).asleep.tx
  let s := if w.rx && awake s then
      sleepLane n (fun a => { a with rx := true }) (sendLowPower n 2 (onLane n (fun x => { x with wants := { x.wants with rx := false } }) s))
    else s
  let s := if w.eidle && laneState n s = 4 then
      sleepLane n (fun a => { a with eidle := true })
        (sendLowPower n 3 (onLane n (fun x => { x with wants := { x.wants with eidle := false } }) s))
    else s
  if w.tx && awake s then
    sleepLane n (fun a => { a with tx := true }) (sendLowPower n 1 (onLane n (fun x => { x with wants := { x.wants with tx := false } }) s))
  else s

/-- The lanes of a port enter the low-power states that waited for its replay buffer (R280). -/
def settleLowPower (g : Nat) (s : State) : State :=
  if (portOf g s).unacked ≠ [] then s else (portLanes g s).foldl (fun s n => askLowPower n s) s

/-- A sleeping direction of a lane wakes (R280): the lane trains at its rate. -/
def wakeLane (n : Nat) (f : LowPower → LowPower) (s : State) : State :=
  laneEnter n 3 (onLane n (fun x => { x with asleep := f x.asleep, readyRun := 0 }) s)

/-- A lane leaves electrical idle (R280): TRAIN frames with the stored taps for 1 µs, and ACTIVE again. -/
def leaveIdle (n : Nat) (s : State) : State :=
  emit (.trainBurst n 1000) (laneEnter n 4 (onLane n (fun x => { x with asleep := { x.asleep with eidle := false } }) s))

/-- LANE_LOW_POWER_EXIT (R280): the states that are no longer wanted are left, the partner asked to leave them too. -/
def exitLowPower (n : Nat) (keep : LowPower) (s : State) : State :=
  let s := onLane n (fun x => { x with wants := ⟨x.wants.tx && keep.tx, x.wants.rx && keep.rx, x.wants.eidle && keep.eidle⟩ }) s
  let a := (laneOf n s).asleep
  let s := if a.tx && !keep.tx then sendLowPower n 4 (wakeLane n (fun a => { a with tx := false }) s) else s
  let s := if a.rx && !keep.rx then
      wakeLane n (fun a => { a with rx := false }) (if (laneOf n s).asleep.tx then s else sendLowPower n 5 s)
    else s
  if a.eidle && !keep.eidle then leaveIdle n (sendLowPower n 6 s) else s

/-- ACK_SEQ and NAK of a frame received on lane `l` (R277): what is acknowledged leaves the buffer, a NAK replays the rest. -/
def takeAck (g l ack : Nat) (nak : Bool) (s : State) : State :=
  let p := portOf g s
  let known := p.unacked.any fun f => f.seq = ack
  let rest := if known then (p.unacked.dropWhile fun f => f.seq ≠ ack).drop 1 else p.unacked
  let s := onPort g (fun p => { p with unacked := rest }) s
  let s := if nak && rest ≠ [] then
      let recent := s.tick :: (laneOf l s).replays.filter fun t => s.tick < t + 400000
      let s := rest.foldl (fun s f => sendLink g f s) (bump (.laneReplay (Fin.ofNat 64 l)) 1 s)
      let s := onLane l (fun x => { x with replays := recent }) s
      if recent.length > 64 then retrainLane l s else s
    else s
  settleLowPower g (drainWaiting g ((portOf g s).waiting.length) s)

end Sys2Proof.Machine
end

