-- ==== Sys2Proof/Machine/PartOps.lean ====
section
/-!
DEFINITION. Partitions: configuration, sub-integrations, ordinals, integration numbers and the tasks of a batch.
-/
namespace Sys2Proof.Machine

/-- The partition. -/
def partOf (p : Fin 8) (s : State) : Part := storeGet (fun _ => Part.idle) s.parts p.val

/-- The state with a partition stored. -/
def setPart (p : Fin 8) (x : Part) (s : State) : State :=
  { s with parts := storeSet (fun _ => Part.idle) s.parts p.val x }

/-- Apply a change to a partition. -/
def onPart (p : Fin 8) (f : Part → Part) (s : State) : State := setPart p (f (partOf p s)) s

/-- k = ceil(N/64) (R67). -/
def PartCfg.k (c : PartCfg) : Nat := ceilDiv c.inputs 64

/-- Bytes of a sample: 2 in 8-bit mode, 1 in 4-bit mode. -/
def PartCfg.bytes (c : PartCfg) : Nat := if c.width4 then 1 else 2

/-- w_p of R87: samples per MCLK cycle. -/
def PartCfg.w (c : PartCfg) : Nat := if c.width4 then 2 else 1

/-- Granules per input per batch, T/16. -/
def PartCfg.grans (c : PartCfg) : Nat := c.t / 16

/-- Visibilities of a channel, N(N+1)/2 (R92). -/
def PartCfg.vis (c : PartCfg) : Nat := c.inputs * (c.inputs + 1) / 2

/-- Segments of a task, T/256 (R79). -/
def PartCfg.segs (c : PartCfg) : Nat := c.t / 256

/-- MCLK cycles of a segment (R79). -/
def PartCfg.segCycles (c : PartCfg) : Nat := if c.width4 then 128 else 256

/-- Bytes of the staging region, S_p (R72). -/
def PartCfg.region (c : PartCfg) : Nat := 4 * ceilDiv c.k 4 * 64 * c.t * c.bytes * c.g

/-- X tasks of a batch, X_p (Table 03-2). -/
def PartCfg.xCount (c : PartCfg) : Nat :=
  if c.shape = 2 then
    let k2 := ceilDiv c.inputs 128
    let m := ceilDiv c.inputs 16
    k2 * m - 4 * k2 * (k2 - 1)
  else c.k * (c.k + 1)

/-- The index of the task that forms the pair (i, j), i ≤ j (Table 04-3). -/
def PartCfg.taskOf (c : PartCfg) (i j : Nat) : Nat :=
  let m := ceilDiv c.inputs 16
  match c.shape with
  | 0 => let r := i / 64; 2 * c.k * r - r * r - r + j / 32
  | 1 => let u := i / 32; u * c.k - (u - 1) * (u - 1) / 4 + j / 64 - u / 2
  | _ => let r := i / 128; m * r - 4 * r * (r - 1) + j / 16 - 8 * r

/-- The pairs (i, j), i ≤ j < N, in visibility order v = j(j+1)/2 + i (R92). -/
def PartCfg.pairs (c : PartCfg) : List (Nat × Nat) :=
  (List.range c.inputs).flatMap fun j => (List.range (j + 1)).map fun i => (i, j)

/-- o_p of R105 for the channel at position `pos`. -/
def PartCfg.offset (c : PartCfg) (pos : Nat) : Nat := if c.staggered then pos * c.nInt / c.chanCount else 0

/-- The channel is one of the partition's. -/
def PartCfg.hasChan (c : PartCfg) (chan : Nat) : Bool := c.chanFirst ≤ chan && chan < c.chanFirst + c.chanCount

/-- Ordinal of the batch of a channel and a sub-integration (R76). -/
def PartCfg.ordOf (c : PartCfg) (chan sub : Nat) : Nat := sub * c.chanCount + (chan - c.chanFirst)

/-- Decode the body of START and CONFIGURE (Table 12-8). -/
def decodeCfg (d : Desc) : PartCfg :=
  let q2 := d.qw 2
  let subint := bitsOf q2 33 18
  let ints := bitsOf (d.qw 3) 55 32
  { inputs := bitsOf q2 12 0, width4 := bitOf q2 13, shape := bitsOf q2 15 14, bshape := bitsOf q2 17 16,
    t := if subint = 0 then 65536 else subint, g := 2 ^ bitsOf q2 36 34, compact := bitOf q2 37, staggered := bitOf q2 38,
    visRoute := bitsOf q2 46 39, tqMin := bitsOf q2 54 47, declRate := bitsOf (d.qw 3) 31 0,
    nInt := if ints = 0 then 2 ^ 24 else ints, chanFirst := bitsOf (d.qw 4) 13 0, chanCount := bitsOf (d.qw 4) 28 14,
    originS := bitsOf (d.qw 5) 47 0, originFrac := bitsOf (d.qw 5) 63 48, originNs := bitsOf (d.qw 6) 29 0,
    period := bitsOf (d.qw 7) 63 0 }

/-- The position of a channel in a configuration (R76). -/
def PartCfg.pos (c : PartCfg) (chan : Nat) : Nat := chan - c.chanFirst

/-- The configuration of an epoch of a partition, in force, past or accepted. -/
def Part.cfgOf (x : Part) (serial : Nat) : PartCfg :=
  match (x.epochs ++ x.pending).find? fun e => e.serial = serial with
  | some e => e.cfg
  | none => x.cfg

/-- The serial number of the epoch START made. -/
def Part.firstEpoch (x : Part) : Nat := (x.epochs.getLast?.map (·.serial)).getD 0

/-- I of R105 and R424 for sub-integration `sub` under an anchor, with offset `o`; a sub-integration before s_a lies in the integration
below I_0. -/
def intUnder (nInt o : Nat) (a : Anchor) (sub : Nat) : Nat :=
  if sub < a.sa then a.i0 - 1 else a.i0 + (sub + o) / nInt - (a.sa + o) / nInt

/-- The first sub-integration of integration `int` under an anchor (R115, R424). -/
def firstSubUnder (nInt o : Nat) (a : Anchor) (int : Nat) : Nat :=
  max a.sa ((int - a.i0 + (a.sa + o) / nInt) * nInt - o)

/-- The partition integration of a sub-integration (R423): p = 0 with o_p = 0. -/
def Part.partInt (x : Part) (sub : Nat) : Nat := intUnder (x.cfgOf x.partAnchor.epoch).nInt 0 x.partAnchor sub

/-- The first sub-integration of partition integration `int` under the partition's present anchor. -/
def Part.firstSubOf (x : Part) (int : Nat) : Nat := firstSubUnder (x.cfgOf x.partAnchor.epoch).nInt 0 x.partAnchor int

/-- The fields that change staging (R77): any of Table 03-4, WIDTH, INPUTS, BSHAPE or the channel range. -/
def stagingChange (a b : PartCfg) : Bool :=
  a.inputs ≠ b.inputs || a.width4 ≠ b.width4 || a.shape ≠ b.shape || a.t ≠ b.t || a.g ≠ b.g || a.declRate ≠ b.declRate ||
  a.bshape ≠ b.bshape || a.chanFirst ≠ b.chanFirst || a.chanCount ≠ b.chanCount

/-- The fields that re-anchor integration numbers (R424). -/
def anchorChange (a b : PartCfg) : Bool :=
  a.t ≠ b.t || a.nInt ≠ b.nInt || a.staggered ≠ b.staggered || a.inputs ≠ b.inputs || a.chanFirst ≠ b.chanFirst ||
  a.chanCount ≠ b.chanCount

/-- The last sample of the latest batch of a channel whose buffer had opened at a frontier (R301); none before one had. -/
def Part.begunSample (x : Part) (frontier : Option (Nat × Nat)) (chan : Nat) : Option Nat :=
  match frontier with
  | none => none
  | some (serial, q) =>
    let c := x.cfgOf serial
    if q ≤ c.pos chan then none else some (((q - c.pos chan - 1) / c.chanCount + 1) * c.t - 1)

/-- A channel's anchor for the batch that holds sample `t` (R423, R424), through the configurations accepted since START in the order
of the integrations they name. `c` and `pa` are the configuration and the partition's anchor so far, `a` the channel's. A change of
staging ends the channel's integration at the switch batch, unless that is where the channel's next integration begins; any other
applies at the channel's own integration EFF_INT, or the earliest it had not begun (R301). `held` says that one of these waits, and
those that follow it wait behind it until a change of staging. -/
def Part.numberLine (x : Part) (chan t : Nat) : List Epoch → PartCfg → Anchor → Bool → Anchor → Anchor
  | [], _, _, _, a => a
  | e :: es, c, pa, held, a =>
    let point := firstSubUnder c.nInt 0 pa e.effInt
    let ac := x.cfgOf a.epoch
    let o := ac.offset (ac.pos chan)
    if stagingChange c e.cfg then
      let sub := ceilDiv (point * c.t) e.cfg.t
      let int := intUnder ac.nInt o a point
      let i0 := if !c.hasChan chan then e.effInt else if firstSubUnder ac.nInt o a int = point then int else int + 1
      let a' : Anchor := if anchorChange ac e.cfg || !c.hasChan chan then ⟨e.serial, i0, sub⟩ else { a with epoch := e.serial }
      if point * c.t ≤ t then x.numberLine chan t es e.cfg ⟨e.serial, e.effInt, sub⟩ false a' else a
    else
      let begun := match x.begunSample e.ordAt chan with | none => 0 | some z => intUnder ac.nInt o a (z / ac.t) + 1
      let eff := max (max a.i0 e.eff) begun
      let sub := firstSubUnder ac.nInt o a eff
      let a' : Anchor := if anchorChange ac e.cfg then ⟨e.serial, eff, sub⟩ else { a with epoch := e.serial }
      let wait := held || decide (t < sub * ac.t)
      x.numberLine chan t es e.cfg ⟨e.serial, e.effInt, point⟩ wait (if wait then a else a')

/-- The anchor of a channel for the batch that holds sample `t`: from START I_0 = 0 and s_a = 0 (R424). -/
def Part.anchorAt (x : Part) (chan t : Nat) : Anchor :=
  let a : Anchor := ⟨x.firstEpoch, 0, 0⟩
  x.numberLine chan t (x.epochs.reverse.drop 1 ++ x.pending) (x.cfgOf x.firstEpoch) a false a

/-- The integration of a channel that holds sample `t`, under the channel's own settings (R105, R423, R424). -/
def Part.intAt (x : Part) (chan t : Nat) : Nat :=
  let a := x.anchorAt chan t
  let c := x.cfgOf a.epoch
  intUnder c.nInt (c.offset (c.pos chan)) a (t / c.t)

/-- The integration of a batch of an epoch, for its channel. -/
def Part.intOf (x : Part) (serial chan sub : Nat) : Nat := x.intAt chan (sub * (x.cfgOf serial).t)

/-- The first sub-integration whose buffer has not opened for filling. -/
def Part.nextSub (x : Part) : Nat := match x.nextOrd with | none => 0 | some q => q / x.cfg.chanCount

/-- The next partition integration whose first batch's buffer has not opened (R301). -/
def Part.nextInt (x : Part) : Nat :=
  match x.nextOrd with
  | none => 0
  | some q => if q % x.cfg.chanCount = 0 ∧ x.firstSubOf (x.partInt (q / x.cfg.chanCount)) = q / x.cfg.chanCount
      then x.partInt (q / x.cfg.chanCount) else x.partInt (q / x.cfg.chanCount) + 1

/-- The frontier now: the configuration in force and its first ordinal whose buffer has not opened. -/
def Part.frontier (x : Part) : Option (Nat × Nat) := x.nextOrd.map fun q => (x.serial, q)

/-- The integration a channel had begun at a frontier, none before a buffer of it opened (R301). -/
def Part.begunAt (x : Part) (frontier : Option (Nat × Nat)) (chan : Nat) : Option Nat := (x.begunSample frontier chan).map (x.intAt chan)

/-- The integration a channel has begun. -/
def Part.begunOf (x : Part) (chan : Nat) : Option Nat := x.begunAt x.frontier chan

/-- The channels of a configuration. -/
def PartCfg.chans (c : PartCfg) : List Nat := (List.range c.chanCount).map (c.chanFirst + ·)

/-- The integration each channel must reach before a per-channel change named for `eff` applies to it, and the highest of them
(R301): a channel that has begun `eff` changes at the earliest integration it has not begun. -/
def Part.effApplied (x : Part) (eff : Nat) : Nat :=
  (x.cfg.chans.map fun ch => match x.begunOf ch with | none => eff | some i => max eff (i + 1)).foldl max eff

/-- A copy's batch by ordinal. -/
def Copy.batch (c : Copy) (ord : Nat) : Option Batch := c.batches.find? fun b => b.ord = ord

/-- Change a batch of a copy. -/
def Copy.onBatch (ord : Nat) (f : Batch → Batch) (c : Copy) : Copy :=
  { c with batches := c.batches.map fun b => if b.ord = ord then f b else b }

/-- Change a batch of a partition in whichever copy holds it in epoch `e`. -/
def Part.onBatch (e ord : Nat) (f : Batch → Batch) (x : Part) : Part :=
  let g := fun c : Copy => if c.epoch = e then c.onBatch ord f else c
  { x with fill := x.fill.map g, comp := x.comp.map g, ret := x.ret.map g, passed := x.passed.map g }

/-- The copies that hold closed batches: the computing one and the retained one. -/
def Part.closed (x : Part) : List Copy := x.comp.toList ++ x.ret.toList

/-- The copies that hold batches Harvest may still add: the closed ones, and those rotated on with verified batches (R69, R104). -/
def Part.held (x : Part) : List Copy := x.closed ++ x.passed

/-- The closed copy and batch of an ordinal, the oldest that Harvest has still to reach, else the newest of that ordinal. -/
def Part.findClosed (x : Part) (ord : Nat) : Option (Copy × Batch) :=
  let l := (x.passed ++ x.ret.toList ++ x.comp.toList).filterMap fun c => (c.batch ord).map fun b => (c, b)
  match l.find? fun cb => !(cb.2.withheld || cb.2.harvested) with
  | some cb => some cb
  | none => l.getLast?

/-- Granule `g` of slot `i` of a batch is flagged: absent, or flagged as it arrived or closed (R57). -/
def Batch.flagged (b : Batch) (i g : Nat) : Bool :=
  match storeGet (fun _ => none) b.grans (i * 4096 + g) with
  | none => true
  | some x => x.flag

/-- The sample at `t` of slot `i`; zero where the granule is flagged (R58). -/
def Batch.sample (b : Batch) (i t : Nat) : Int × Int :=
  match storeGet (fun _ => none) b.grans (i * 4096 + t / 16) with
  | none => (0, 0)
  | some x => if x.flag then (0, 0) else x.samples.getD (t % 16) (0, 0)

/-- The input map entry of a slot in a copy. -/
def Copy.slotOf (c : Copy) (i : Nat) : Option SlotMap := c.slots.find? fun m => m.slot = i

/-- The X-work valid bit of a slot and granule (R71): not flagged, and its entry has CORR_EN = 1. -/
def Copy.xValid (c : Copy) (b : Batch) (i g : Nat) : Bool :=
  (match c.slotOf i with | some m => m.corrEn | none => false) && !b.flagged i g

/-- The X-work operand of a slot at time `t`: zero under CORR_EN = 0 (R71). -/
def Copy.xSample (c : Copy) (b : Batch) (i t : Nat) : Int × Int :=
  match c.slotOf i with
  | some m => if m.corrEn then b.sample i t else (0, 0)
  | none => (0, 0)

/-- The product x_i × conj(x_j) of R62. -/
def cmul (x y : Int × Int) : Int × Int := (x.1 * y.1 + x.2 * y.2, x.2 * y.1 - x.1 * y.2)

/-- The sums a cell forms over the samples from `t0`, `n` of them, in ascending time (R62, R100). -/
def Copy.cellSum (c : Copy) (b : Batch) (i j t0 n : Nat) : Int × Int :=
  (List.range n).foldl (fun a k => let p := cmul (c.xSample b i (t0 + k)) (c.xSample b j (t0 + k)); (a.1 + p.1, a.2 + p.2)) (0, 0)

/-- The tile sum of the pair (i, j) over a batch: the segments' partial sums added in ascending order (R66, R82). -/
def Copy.tileSum (c : Copy) (b : Batch) (t i j : Nat) : Int × Int :=
  (List.range (t / 256)).foldl (fun a g => let p := c.cellSum b i j (g * 256) 256; (a.1 + p.1, a.2 + p.2)) (0, 0)

/-- GCNT of the pair (i, j): granules valid in both inputs (R70). -/
def Copy.gcnt (c : Copy) (b : Batch) (grans i j : Nat) : Nat :=
  ((List.range grans).filter fun g => c.xValid b i g && c.xValid b j g).length

/-- The tile sum record of a pair over `n` segments of a task from the first (R62, R66, R70). -/
def Copy.pieceSum (c : Copy) (b : Batch) (i j first n : Nat) : TileSum :=
  (List.range n).foldl (fun a k =>
    let p := c.cellSum b i j ((first + k) * 256) 256
    let gs := (List.range 16).filter fun g => c.xValid b i (16 * (first + k) + g) && c.xValid b j (16 * (first + k) + g)
    ⟨a.re + p.1, a.im + p.2, a.gcnt + gs.length⟩) ⟨0, 0, 0⟩

/-- The 80 bits of a tile sum record (Table 03-1). -/
def TileSum.word (r : TileSum) : Nat := r.gcnt % 2 ^ 13 * 2 ^ 64 + unsignedOf 32 r.im * 2 ^ 32 + unsignedOf 32 r.re

/-- The record a word holds. -/
def TileSum.ofWord (w : Nat) : TileSum := ⟨signedOf 32 (w % 2 ^ 32), signedOf 32 (w / 2 ^ 32 % 2 ^ 32), w / 2 ^ 64 % 2 ^ 13⟩

/-- The record of a pair that the combiner holds of a batch. -/
def Batch.record (b : Batch) (v : Nat) : TileSum := storeGet (fun _ => ⟨0, 0, 0⟩) b.sums v

/-- The records of a drained piece reach the combiner (R66, R69, R82): those of the task's pairs i ≤ j < N, each added to what earlier
pieces of a split task gave. -/
def Copy.combine (c : Copy) (cfg : PartCfg) (task first n : Nat) (b : Batch) : Batch :=
  if task < cfg.xCount then
    let mine := cfg.pairs.filter fun ij => cfg.taskOf ij.1 ij.2 = task
    { b with sums := mine.foldl (fun m ij =>
        let v := ij.2 * (ij.2 + 1) / 2 + ij.1
        let r := TileSum.ofWord (c.pieceSum b ij.1 ij.2 first n).word
        let a := storeGet (fun _ => (⟨0, 0, 0⟩ : TileSum)) m v
        storeSet (fun _ => ⟨0, 0, 0⟩) m v ⟨a.re + r.re, a.im + r.im, a.gcnt + r.gcnt⟩) b.sums }
  else b

/-- f_i of R93: granules of slot `i` whose X-work valid bit is 0. -/
def Copy.flagCount (c : Copy) (b : Batch) (grans i : Nat) : Nat :=
  ((List.range grans).filter fun g => !c.xValid b i g).length

/-- c of R93: granules flagged in every slot below N. -/
def Copy.commonCount (c : Copy) (b : Batch) (grans n : Nat) : Nat :=
  ((List.range grans).filter fun g => (List.range n).all fun i => !c.xValid b i g).length

/-- The partition's role epoch: BELL_ROLE_p.EPOCH (R114, R260). -/
def roleEpoch (p : Fin 8) (s : State) : Nat := getF fBellRoleEpoch (.bellRole p) s

end Sys2Proof.Machine
end

