-- ==== Sys2Proof/Machine/Loads.lean ====
section
/-!
DEFINITION. SRAM tables, output routes, beam and chain entries, and what the accepted configurations load the egress ports with (R309,
R310): the shares of R311 follow it.
-/
namespace Sys2Proof.Machine

/-- Where the table store keeps entry `i` of a table and bank (Table 12-9). -/
def tabKey (table bank i : Nat) : Nat := (table * 2 + bank) * 2 ^ 32 + i

/-- A table entry as a little-endian number. -/
def tabGet (table bank i : Nat) (s : State) : Nat := storeGet (fun _ => 0) s.tables (tabKey table bank i)

/-- The state with a table entry stored. -/
def tabSet (table bank i v : Nat) (s : State) : State :=
  { s with tables := storeSet (fun _ => 0) s.tables (tabKey table bank i) v }

/-- An output route entry, decoded (Table 12-13). -/
structure Route where
  valid : Bool
  v6 : Bool
  vlan : Bool
  toRing : Bool
  mtu : Nat
  ports : Nat
  ring : Nat
  deriving DecidableEq, Repr

/-- Byte field of an entry held as a little-endian number. -/
def entryBytes (e i n : Nat) : Nat := (e / 256 ^ i) % 256 ^ n

/-- Decode a route entry (Table 12-13). -/
def decodeRoute (e : Nat) : Route :=
  let b28 := entryBytes e 28 1
  { valid := bitOf b28 0, v6 := bitOf b28 1, vlan := bitOf b28 2, toRing := bitOf b28 3, mtu := entryBytes e 26 2,
    ports := entryBytes e 32 1, ring := entryBytes e 33 2 % 16384 }

/-- The route a product is sent on. -/
def routeOf (r : Nat) (s : State) : Route := decodeRoute (tabGet 7 0 r s)

/-- H of R310: header bytes per packet on the wire. -/
def Route.overhead (r : Route) : Nat := (if r.v6 then 86 else 66) + (if r.vlan then 4 else 0)

/-- The ports a route names, in rising order. -/
def Route.portList (r : Route) : List Nat := (List.range 8).filter fun g => bitOf r.ports g

/-- The entry of a per-channel table that the last accepted write leaves, whatever its integration: what admission counts. -/
def entryLast (table i : Nat) (s : State) : Nat :=
  match (s.tabPending.filter fun e => e.table = table && e.index = i).getLast? with
  | some e => e.entry
  | none => tabGet table 0 i s

/-- A beam control entry, decoded (Table 05-3). -/
structure BeamCtl where
  valid : Bool
  part : Nat
  mode : Nat
  fine : Bool
  feed : Bool
  route : Nat
  gain : Nat
  rqShift : Nat
  pShift : Nat
  spp : Nat
  deriving DecidableEq, Repr

/-- Decode a beam control entry (Table 05-3). -/
def decodeBeam (e : Nat) : BeamCtl :=
  { valid := bitOf e 0, part := bitsOf e 3 1, mode := bitsOf e 5 4, fine := bitOf e 6, feed := bitOf e 7, route := bitsOf e 15 8,
    gain := bitsOf e 31 16, rqShift := bitsOf e 37 32, pShift := bitsOf e 43 38, spp := bitsOf e 47 44 }

/-- Stokes parameters the beam's chain takes (Table 06-1): 4, 1 or 0. -/
def BeamCtl.stokes (b : BeamCtl) : Nat := if b.mode = 3 then 4 else if b.mode = 2 || b.feed then 1 else 0

/-- A chain entry, decoded (Table 06-4). -/
structure ChainEntry where
  valid : Bool
  order : Nat
  dm : Nat
  ratio : Nat
  range : Nat
  pkDecay : Nat
  envAttack : Nat
  envDecay : Nat
  rmsLog2 : Nat
  monPart : Nat
  monSlot : Nat
  monChan : Nat
  hold : Nat
  deriving DecidableEq, Repr

/-- Decode a chain entry (Table 06-4). -/
def decodeChain (e : Nat) : ChainEntry :=
  { valid := bitOf e 0, order := 3 + bitsOf e 22 21, dm := 1 + bitsOf e 23 23, ratio := bitsOf e 40 24, range := bitsOf e 46 41,
    pkDecay := bitsOf e 50 47, envAttack := bitsOf e 54 51, envDecay := bitsOf e 58 55, rmsLog2 := bitsOf e 63 59,
    monPart := bitsOf e 69 67, monSlot := bitsOf e 81 70, monChan := bitsOf e 95 82, hold := bitsOf e 103 96 }

/-- The configuration a partition has accepted last. -/
def Part.lastCfg (x : Part) : PartCfg := ((x.pending.getLast?).map (·.cfg)).getD x.cfg

/-- What admission counts: each started partition under its last accepted configuration, the beams in use, the chain entries, the
capture configurations in force and accepted (R163), and the sum of the allotments' RATE. -/
structure Plan where
  parts : List (Fin 8 × PartCfg)
  beams : List (Nat × BeamCtl)
  chain : Nat → ChainEntry
  capts : List CaptCfg
  rates : Nat

/-- The loads as they stand, every accepted change counted. -/
def planNow (s : State) : Plan :=
  { parts := (List.finRange 8).filterMap fun p => let x := partOf p s; if x.started then some (p, x.lastCfg) else none,
    beams := (List.range 1024).filterMap fun b => let c := decodeBeam (entryLast 4 b s); if c.valid then some (b, c) else none,
    chain := fun b => decodeChain (entryLast 5 b s),
    capts := s.trig.capt.toList ++ (s.trig.accepted.map (·.2)).filter (·.enable),
    rates := ((List.finRange 3).map fun m => getF fMemAllotRate (.memAllot m) s).foldl (· + ·) 0 }

/-- A plan with one partition's configuration put in. -/
def Plan.withPart (p : Fin 8) (c : PartCfg) (l : Plan) : Plan :=
  { l with parts := (p, c) :: l.parts.filter fun x => x.1 ≠ p }

/-- The beams of a partition. -/
def Plan.beamsOf (l : Plan) (p : Fin 8) : List (Nat × BeamCtl) := l.beams.filter fun b => b.2.part = p.val

/-- Batches a second of a partition. -/
def PartCfg.batchRate (c : PartCfg) : ℚ := (c.declRate : ℚ) / c.t

/-- Bytes a second of a partition's visibilities on the wire (R113, R310). -/
def visLoad (c : PartCfg) (r : Route) : ℚ :=
  let bo : ℚ := if c.compact then 16 else 24
  let mu : ℚ := if c.staggered then (ceilDiv c.chanCount c.nInt : ℚ) / c.chanCount else 1
  let pay := (c.vis : ℚ) * bo * c.batchRate * mu * (1 + 8 * c.inputs / (c.vis * bo))
  pay + pay / ((r.mtu : ℚ) - 72) * (72 + r.overhead)

/-- Outputs a power packet holds at most (R150). -/
def powerPer (mtu stokes : Nat) : Nat := min (2048 / stokes) ((mtu - 64) / (4 * stokes))

/-- Bytes a second of a beam's packets on the wire (R140, R141, R150, R310). -/
def beamLoad (c : PartCfg) (b : BeamCtl) (ratio : Nat) (r : Route) : ℚ :=
  match b.mode with
  | 0 => 0
  | 1 => (c.declRate : ℚ) / (2 ^ b.spp : Nat) * (64 + 4 * 2 ^ b.spp + r.overhead : Nat)
  | _ =>
    let f := c.t / ratio
    let phi : ℚ := ((c.t % ratio : Nat) : ℚ) / ratio
    let n := powerPer r.mtu b.stokes
    let packets := (1 - phi) * (ceilDiv f n : Nat) + phi * (ceilDiv (f + 1) n : Nat)
    (c.declRate : ℚ) / ratio * (b.stokes * 4 : Nat) + c.batchRate * packets * (64 + r.overhead : Nat)

/-- The products admission counts: each one's route number, the route, and bytes a second (R310). -/
def Plan.products (l : Plan) (s : State) : List (Nat × Route × ℚ) :=
  (l.parts.flatMap fun x =>
    let r := routeOf x.2.visRoute s
    (x.2.visRoute, r, visLoad x.2 r) :: (l.beamsOf x.1).map fun b =>
      let q := routeOf b.2.route s
      (b.2.route, q, beamLoad x.2 b.2 (l.chain b.1).ratio q)).filter fun x => x.2.1.valid

/-- What products load egress budget `k` with: ports 0 to 7, then 8 for the DATA rings (R304, R310). -/
def portLoad (l : List (Nat × Route × ℚ)) (k : Nat) : ℚ :=
  (l.map fun x =>
    if x.2.1.toRing then (if k = 8 then x.2.2 else 0)
    else if k < 8 && bitOf x.2.1.ports k then x.2.2 / x.2.1.portList.length else 0).foldl (· + ·) 0

/-- The load on egress budget `k` (R304, R310). -/
def Plan.egress (l : Plan) (s : State) (k : Nat) : ℚ := portLoad (l.products s) k

/-- Table 12-14 in bytes per second at x16. -/
def dataRate (r : PcieRate) : ℚ :=
  match r with
  | .gt2_5 => 3000000000 | .gt5 => 6000000000 | .gt8 => 12500000000 | .gt16 => 25000000000 | .gt32 => 50000000000 | .gt64 => 100000000000

/-- Lanes of a trained width. -/
def lanesOf (w : PcieWidth) : Nat := match w with | .x1 => 1 | .x2 => 2 | .x4 => 4 | .x8 => 8 | .x16 => 16

/-- An egress budget in bytes per second (R310). -/
def egressBudget (k : Nat) (s : State) : ℚ :=
  if k = 8 then (if s.hif.linkUp then dataRate s.hif.rate * lanesOf s.hif.width / 16 else 0)
  else portRate k s * 1000000000 / 8 * 99 / 100

/-- The bytes a second that a route may send through egress budget `k` while its capacity is short of the admitted load (R311): a share
of the capacity in proportion to the route's own load. None while the capacity suffices. -/
def shortShare (route k : Nat) (s : State) : Option ℚ :=
  let l := (planNow s).products s
  let all := portLoad l k
  let cap := egressBudget k s
  if all ≤ cap then none else some (cap * portLoad (l.filter fun x => x.1 = route) k / all)

end Sys2Proof.Machine
end

