-- ==== Sys2Proof/Machine/Egress.lean ====
section
/-!
DEFINITION. The egress engine: every product packet's header, gate, port or DATA slot.
-/
namespace Sys2Proof.Machine

/-- UNIT_ID of this unit. -/
def unitId (s : State) : Nat := getF fBellCfgUnitId .bellCfg s

/-- The Woruf egress header (Table 04-7). -/
def egressHeader (typ unit part epoch seq sec ns : Nat) : List Byte :=
  beBytes 2 0x5745 ++ beBytes 1 0x14 ++ beBytes 1 typ ++ beBytes 2 unit ++ beBytes 1 part ++ beBytes 1 0 ++
  beBytes 4 epoch ++ beBytes 4 seq ++ beBytes 8 ((sec % 2 ^ 34) * 2 ^ 30 + ns) ++ beBytes 8 0

/-- A partition is fenced or fence-pending (R262, R263). -/
def fenceShut (p : Fin 8) (s : State) : Bool :=
  bitOf (getF fBellFenceFenced .bellFence s) p.val || bitOf (getF fBellFencePending .bellFence s) p.val

/-- The egress gate is closed for a partition: the device is stopped, or the partition is fenced or fence-pending (R114, R262, R263, R314). -/
def gateClosed (p : Fin 8) (s : State) : Bool := s.sys.stopped || fenceShut p s

/-- A packet of `n` bytes on the wire may leave through egress budget `k`: while the capacity is short, its route sends no more than its
share, met over any second (R311, log 114); when the capacity suffices again the shortage is over. -/
def shareTake (route k n : Nat) (s : State) : Bool × State :=
  match shortShare route k s with
  | none => (true, { s with egr := { s.egr with short := s.egr.short.filter (· ≠ k) } })
  | some q =>
    let r := q.num.toNat / q.den
    let key := route * 16 + k
    let c := storeGet (fun _ => (0, 0)) s.egr.credit key
    let have' := min (r * 400000000) (c.2 + r * (s.tick - c.1))
    let fits := n * 400000000 ≤ have'
    (fits, { s with egr := { s.egr with
      credit := storeSet (fun _ => (0, 0)) s.egr.credit key (s.tick, if fits then have' - n * 400000000 else have') } })

/-- A packet discarded for want of capacity: WITHHELD, and HIF_EGRESS_SHORT once for each shortage (R311). -/
def egressShort (k : Nat) (s : State) : State :=
  let s := setWithheld (if k < 8 then bump (.hifEgressDrop (Fin.ofNat 8 k)) 1 s else s)
  if k ∈ s.egr.short then s
  else raise .hifEgressShort none (arg0 0 k 0) 0 { s with egr := { s.egr with short := s.egr.short ++ [k] } }

/-- A product packet that a DATA ring loses: counted for the next slot and in all, WITHHELD set (R308). -/
def slotLost (n : Fin 16384) (s : State) : State :=
  let c := ringCtx n.val s
  setWithheld (bump .hifDataDrop 1 (setRingCtx n.val { c with lost := c.lost + 1 } s))

/-- A product packet dropped at a DATA ring, the event at most once a second per ring (R308). -/
def dataDrop (n : Fin 16384) (s : State) : State :=
  let s := slotLost n s
  let c := ringCtx n.val s
  let due := match c.overrunAt with | none => true | some t => s.tick ≥ t + 400000000
  let s := setRingCtx n.val { c with overrunAt := if due then some s.tick else c.overrunAt } s
  if due then raise .hifDataOverrun none (arg0 n.val 0 0) 0 s else s

/-- Write a product packet to a slot of a DATA ring, or drop it when there is none (R308). -/
def dataSlot (route : Nat) (n : Fin 16384) (typ : Nat) (payload : List Byte) (s : State) : State :=
  if !hostOpen s || ringF fRingCfgEn n s = 0 || ringF fRingCfgType n s ≠ 3 || ringUsed n s ≥ ringSize n s then dataDrop n s
  else
    let x := ringIdx n s
    let c := ringCtx n.val s
    let q0 := payload.length + attnNat s * 2 ^ 32 + typ * 2 ^ 48 + ringPhase n x s * 2 ^ 63
    let q1 := route + saturateNat 16 c.lost * 2 ^ 16
    let s := hostWrite (ringAddr n x s) (leBytes 8 q0 ++ leBytes 8 q1 ++ leBytes 8 0 ++ leBytes 8 0 ++ payload) s
    let s := setRingCtx n.val { c with lost := 0 } s
    let s := setF fRingIdxIdx (.ringIdx n) (x + 1) s
    ringIrq n false (emit (.packet route none typ payload) s)

/-- A product packet as an Ethernet frame by its route entry (Table 12-13); the header fields the entry does not give as log 162 says. -/
def routeFrame (route g : Nat) (payload : List Byte) (s : State) : List Byte :=
  let e := tabGet 7 0 route s
  let bytesOf := fun i n => leBytes n (entryBytes e i n)
  let p := portOf g s
  let n := 8 + payload.length
  let udp := beBytes 2 (entryBytes e 24 2) ++ beBytes 2 (entryBytes e 22 2) ++ beBytes 2 n
  let dscp := entryBytes e 29 1 % 64
  let tag := if (routeOf route s).vlan then beBytes 2 0x8100 ++ beBytes 2 (entryBytes e 30 2) else []
  if (routeOf route s).v6 then
    let body := fun c : Nat => udp ++ beBytes 2 c ++ payload
    let sum := 0xFFFF - onesSum (beBytes 16 p.ip6 ++ bytesOf 0 16 ++ beBytes 4 n ++ beBytes 4 17 ++ body 0)
    bytesOf 16 6 ++ beBytes 6 p.mac ++ tag ++ beBytes 2 0x86DD ++ beBytes 4 (0x60000000 + dscp * 2 ^ 22) ++ beBytes 2 n ++
      beBytes 2 0x11FF ++ beBytes 16 p.ip6 ++ bytesOf 0 16 ++ body (if sum = 0 then 0xFFFF else sum)
  else
    let h := fun c : Nat => beBytes 1 0x45 ++ beBytes 1 (dscp * 4) ++ beBytes 2 (20 + n) ++ beBytes 4 0x4000 ++ beBytes 2 0xFF11 ++
      beBytes 2 c ++ beBytes 4 p.ip4 ++ bytesOf 0 4
    bytesOf 16 6 ++ beBytes 6 p.mac ++ tag ++ beBytes 2 0x0800 ++ h (0xFFFF - onesSum (h 0)) ++ udp ++ beBytes 2 0 ++ payload

/-- Send a packet on the next port of its route, or discard it whole when that port carries nothing or its capacity is short (R309,
R311). -/
def portSend (route : Nat) (typ : Nat) (payload : List Byte) (s : State) : State :=
  let r := routeOf route s
  match r.portList with
  | [] => setWithheld s
  | g0 :: gs =>
    let ports := g0 :: gs
    let k := storeGet (fun _ => 0) s.egr.rotate route
    let g := ports.getD (k % ports.length) g0
    let s := { s with egr := { s.egr with rotate := storeSet (fun _ => 0) s.egr.rotate route (k + 1) } }
    if !portUp g s then egressShort g s
    else
      let (fits, s) := shareTake route g (payload.length + r.overhead) s
      if !fits then egressShort g s
      else
        let s := emit (.packet route (some g) typ payload) s
        if gmode g s = 6 then virosSend g (routeFrame route g payload s) s else s

/-- A product packet of partition `p` leaves through the egress engine (R114): it takes its SEQ when it is formed, is blocked at a
closed gate, and otherwise goes to its route's port or DATA ring. -/
def sendProductAs (epoch : Nat) (p : Fin 8) (typ route : Nat) (body : List Byte) (s : State) : State :=
  let x := partOf p s
  let seq := storeGet (fun _ => 0) x.seqs typ
  let s := setPart p { x with seqs := storeSet (fun _ => 0) x.seqs typ (wrap 32 (seq + 1)) } s
  if gateClosed p s then
    setWithheld (if fenceShut p s then bump .bellFenceDrop 1 s else s)
  else
    let payload := egressHeader typ (unitId s) p.val epoch seq s.time.sec (s.time.sub / 2 ^ 32) ++ body
    let r := routeOf route s
    if !r.valid then setWithheld s
    else if r.toRing then
      let (fits, s) := shareTake route 8 (payload.length + r.overhead) s
      if fits then dataSlot route (Fin.ofNat 16384 r.ring) typ payload s
      else egressShort 8 (if s.hif.linkUp then slotLost (Fin.ofNat 16384 r.ring) s else dataDrop (Fin.ofNat 16384 r.ring) s)
    else portSend route typ payload s

/-- A product packet with the partition's role epoch (R114). -/
def sendProduct (p : Fin 8) (typ route : Nat) (body : List Byte) (s : State) : State :=
  sendProductAs (roleEpoch p s) p typ route body s

/-- Bytes of one entry of a ring of the system region: flag summary, detector report, Thresher statistics, trigger log, Bell
message, event log. -/
def sysRingBytes (k : Nat) : Nat :=
  match k with | 0 => 64 | 2 => 16 | _ => 32

/-- Entries of a ring of the system region (R191). -/
def sysRingSize (k : Nat) : Nat :=
  match k with | 0 => 524288 | 1 => 524288 | 2 => 262144 | _ => 131072

/-- A ring of the system region. -/
def sysRing (k : Nat) (s : State) : SysRing := storeGet (fun _ => ⟨[], 0, []⟩) s.rings k

/-- The state with a ring of the system region stored. -/
def setSysRing (k : Nat) (r : SysRing) (s : State) : State :=
  { s with rings := storeSet (fun _ => ⟨[], 0, []⟩) s.rings k r }

/-- Append an entry to a ring of the system region; the entry it overwrites is lost (R303). -/
def ringAppend (k : Nat) (bs : List Byte) (s : State) : State :=
  let r := sysRing k s
  ringNotify k (setSysRing k { r with entries := storeSet (fun _ => []) r.entries (r.next % sysRingSize k) bs, next := r.next + 1 } s)

/-- The position reader `i` (0 the host, 1 + c Steward core c) has read a ring of the system region to. -/
def SysRing.readAt (r : SysRing) (i : Nat) : Nat := r.reads.getD i 0

/-- The oldest unread entries for a reader, at most `n`: the entries, the new position, and how many were overwritten unread. -/
def SysRing.take (r : SysRing) (k i n : Nat) : List (List Byte) × Nat × Nat :=
  let pos := r.readAt i
  let lo := max pos (r.next - sysRingSize k)
  let m := min n (r.next - lo)
  (((List.range m).map fun j => storeGet (fun _ => []) r.entries ((lo + j) % sysRingSize k)).filter (· ≠ []), lo + m, lo - pos)

/-- A reader's position advanced. -/
def SysRing.seek (r : SysRing) (i pos : Nat) : SysRing :=
  { r with reads := (List.range 9).map fun j => if j = i then pos else r.readAt j }

end Sys2Proof.Machine
end

