-- ==== Sys2Proof/Machine/MemOps.lean ====
section
/-!
DEFINITION. The layout of HBM: active pseudo-channels, regions, the address interleave and the guaranteed budget.
-/
namespace Sys2Proof.Machine

/-- The active pseudo-channels, in ascending number (R189, R206). -/
def activePcs (s : State) : List Nat := (List.range 128).filter fun n => n ∉ s.hbm.retired

/-- P_a (R188). -/
def pa (s : State) : Nat := (activePcs s).length

/-- MiB per pseudo-channel of the capture region. -/
def captMib (s : State) : Nat := 1152 - getF fMemLayoutSysMib .memLayout s - getF fMemLayoutGranMib .memLayout s

/-- Bytes of the Granary (R188). -/
def granRegion (s : State) : Nat := getF fMemLayoutGranMib .memLayout s * 1048576 * pa s

/-- Bytes of the capture region (R188). -/
def captRegion (s : State) : Nat := captMib s * 1048576 * pa s

/-- A place in HBM: pseudo-channel, PC-local address, and the DRAM coordinates of the address (R189). -/
structure HbmPlace where
  pc : Nat
  addr : Nat
  col : Nat
  bg : Nat
  bank : Nat
  sid : Nat
  row : Nat
  deriving DecidableEq, Repr

/-- The interleave of R189: the byte at offset `o` of a region with this grain and base. -/
def interleave (active : List Nat) (grain baseMib o : Nat) : HbmPlace :=
  let p := active.length
  let g := 2 ^ (8 + grain)
  let n := o / g
  let a := baseMib * 2 ^ 20 + (n / p) * g + o % g
  let b := (a / 1024) % 48
  ⟨active.getD (n % p) 0, a, bitsOf a 9 5, b % 4, (b / 4) % 4, b / 16, a / 49152⟩

/-- The three regions of a pseudo-channel (R188). -/
inductive HbmRegion where
  | sys | gran | capt
  deriving DecidableEq, Repr

/-- A region's grain field (R189). -/
def regionGrain (r : HbmRegion) (s : State) : Nat :=
  match r with
  | .sys => getF fMemLayoutSysGrain .memLayout s
  | .gran => getF fMemLayoutGranGrain .memLayout s
  | .capt => getF fMemLayoutCaptGrain .memLayout s

/-- The MiB at which a region begins in each pseudo-channel (R188). -/
def regionBase (r : HbmRegion) (s : State) : Nat :=
  match r with
  | .sys => 0
  | .gran => getF fMemLayoutSysMib .memLayout s
  | .capt => getF fMemLayoutSysMib .memLayout s + getF fMemLayoutGranMib .memLayout s

/-- Where a byte of a region lies (R189). -/
def placeOf (r : HbmRegion) (o : Nat) (s : State) : HbmPlace := interleave (activePcs s) (regionGrain r s) (regionBase r s) o

/-- The region that holds an address of an active pseudo-channel, and the offset in it: R189 read backwards. -/
def regionOf (pc a : Nat) (s : State) : Option (HbmRegion × Nat) :=
  match (activePcs s).idxOf? pc with
  | none => none
  | some ps =>
    let r := if a < regionBase .gran s * 1048576 then .sys else if a < regionBase .capt s * 1048576 then .gran else .capt
    let g := 2 ^ (8 + regionGrain r s)
    some (r, ((a - regionBase r s * 1048576) / g * pa s + ps) * g + a % g)

/-- The HBM target port of a pseudo-channel and the address at it (R16, R186). -/
def portAddr (pl : HbmPlace) : Nat × Nat := (pl.pc / 2, pl.pc % 2 * 2 ^ 31 + pl.addr)

/-- Where the structures of Table 08-1 begin in the system region: one after the other in the table's order, the scratch window after
them (log 139). -/
def delayBase : Nat := 1536 * 1048576
def chanStateBase : Nat := 1664 * 1048576
def chainBase : Nat := 2176 * 1048576
def ringsBase : Nat := 3200 * 1048576
def shadowBase : Nat := 3264 * 1048576
def scratchBase (s : State) : Nat := shadowBase + captMib s * 8192 * pa s

/-- How many transactions the issue buffer of a slice holds (R197): slices 0 to 3 are Harvest's, 4 to 7 the capture writer's, 8 the
ingress writer's. -/
def issueHeld (m : Nat) (s : State) : Nat :=
  s.fab.issue.foldl (fun n kv => if kv.1 / 128 = m then n + kv.2.length else n) 0

/-- An issue buffer of one of four slices holds more than 256 transactions (R197). -/
def issueLate (first : Nat) (s : State) : Bool := (List.range 4).any fun i => issueHeld (first + i) s > 256

/-- B_G in bytes per second (R194). -/
def budget (s : State) : Nat := pa s * 30078125000

/-- Whether MEM_LAYOUT with these sizes leaves the system region its need (R191), with `p` active pseudo-channels. -/
def systemFits (sys gran p : Nat) : Bool := sys * p * 128 ≥ 3264 * 128 + (1152 - sys - gran) * p

end Sys2Proof.Machine
end

