-- ==== Sys2Proof/Machine/CaptureOps.lean ====
section
/-!
DEFINITION. The capture memory: crib length, captured slots, the capture writer, and sealing (R159 to R165, R176, R181).
-/
namespace Sys2Proof.Machine

/-- A crib. -/
def cribOf (c : Nat) (s : State) : Crib := storeGet (fun _ => Crib.free) s.trig.cribs c

/-- The state with a crib stored. -/
def setCrib (c : Nat) (x : Crib) (s : State) : State :=
  { s with trig := { s.trig with cribs := storeSet (fun _ => Crib.free) s.trig.cribs c x } }

/-- Bytes of a crib, K of R160. -/
def CaptCfg.cribBytes (c : CaptCfg) (region : Nat) : Nat := 2097152 * (region / (c.cribs * 2097152))

/-- L_c of R160: samples of a crib. -/
def CaptCfg.length (c : CaptCfg) (region bytes : Nat) : Nat :=
  16 * (c.cribBytes region / (16 * c.chanCount * c.inputs * bytes))

/-- The crib length of a capture configuration now. -/
def cribLength (c : CaptCfg) (s : State) : Nat := c.length (captRegion s) (partOf c.part s).cfg.bytes

/-- The capture configuration in force, when the writer records (ENABLE = 1). -/
def capturing (s : State) : Option CaptCfg := s.trig.capt

/-- The crib in a state, the lowest-numbered (R164). -/
def cribIn (st : Nat) (c : CaptCfg) (s : State) : Option Nat :=
  (List.range c.cribs).find? fun k => (cribOf k s).state = st

/-- Where a crib keeps the granule of a channel and slot that starts at sample 16 × n. -/
def granKey (chan slot n : Nat) : Nat := (chan * 4096 + slot) * 2 ^ 60 + n

/-- The captured slots of a copy (R161): usable entries with CAPT_EN in ascending slot order, the lowest N_c of them. -/
def captSlots (c : CaptCfg) (slots : List SlotMap) : List CaptSlot :=
  let all := ((List.range 4096).filterMap fun i => slots.find? fun m => m.slot = i).filter fun m => m.captEn
  (all.take c.inputs).map fun m => ⟨m.slot, m.label⟩

/-- More slots qualify than the configuration reserves (R161). -/
def captOverflow (c : CaptCfg) (slots : List SlotMap) : Bool := (slots.filter fun m => m.captEn).length > c.inputs

/-- The crib that takes the granule at sample `t`: a sealing one up to its S_last, else the one recording (R162). -/
def cribFor (c : CaptCfg) (t : Nat) (s : State) : Option Nat :=
  let holds := fun k => match (cribOf k s).s0 with | none => false | some z => z ≤ t
  match (List.range c.cribs).find? fun k => (cribOf k s).state = 2 && holds k && t ≤ (cribOf k s).sLast with
  | some k => some k
  | none => (List.range c.cribs).find? fun k => (cribOf k s).state = 1 && holds k

/-- A granule the writer cannot place: readout presents it flagged (R197). -/
def Gran.missed : Gran := ⟨List.replicate 16 (0, 0), 0, 0, false, true⟩

/-- The capture writer records a granule of a captured slot (R162); with an issue buffer above 256 transactions it skips the granule and
sets its flag bit (R197). In the stopped state the writer stops (R314). -/
def captureGranule (p : Fin 8) (chan slot t : Nat) (g : Gran) (s : State) : State :=
  match capturing s with
  | none => s
  | some c =>
    if !s.sys.stopped && c.part = p && c.chanFirst ≤ chan && chan < c.chanFirst + c.chanCount then
      match cribFor c t s with
      | none => s
      | some k =>
        let x := cribOf k s
        if ((x.slots.getD []).any fun m => m.slot = slot) then
          let g := if issueLate 4 s then Gran.missed else g
          let s := { s with trig := { s.trig with placedMax := max s.trig.placedMax (t + 16) } }
          setCrib k { x with grans := storeSet (fun _ => none) x.grans (granKey chan slot (t / 16)) (some g), lastGran := some (max (x.lastGran.getD 0) (t + 15)) } s
        else s
    else s

/-- A granule of a slot stands at its ring position, where it overwrote the one L_c earlier (R162). Until its batch closes the earlier one is
kept: a STOP may discard the filling copy, of which the writer then has recorded nothing (R181). -/
def captureRing (p : Fin 8) (chan slot t : Nat) (g : Gran) (s : State) : State :=
  let s := captureGranule p chan slot t g s
  match (capturing s).bind fun c => (cribFor c t s).map fun k => (c, k) with
  | some (c, k) =>
    if cribLength c s ≤ t then
      let x := cribOf k s
      setCrib k { x with grans := storeSet (fun _ => none) x.grans (granKey chan slot (t / 16 - cribLength c s / 16)) none } s
    else s
  | none => s

/-- When a batch closes, the granules its crib's slots miss are written as zero and every granule's final flag bit is recorded (R162). -/
def captureClose (p : Fin 8) (t : Nat) (b : Batch) (flagOf : Nat → Nat → Bool) (s : State) : State :=
  match capturing s with
  | none => s
  | some c =>
    if !s.sys.stopped && c.part = p && c.chanFirst ≤ b.chan && b.chan < c.chanFirst + c.chanCount then
      (List.range (t / 16)).foldl (fun s g =>
        let at' := b.sub * t + 16 * g
        let slots := ((cribFor c at' s).bind fun k => (cribOf k s).slots).getD []
        slots.foldl (fun s m =>
          let x := match storeGet (fun _ => none) b.grans (m.slot * 4096 + g) with
            | some x => { x with flag := flagOf m.slot g }
            | none => Gran.missed
          captureRing p b.chan m.slot at' x s) s) s
    else s

/-- A crib that is FREE again, its last event still shown (Table 07-11). -/
def Crib.cleared (x : Crib) : Crib := 
  { Crib.free with id := x.id, seq := x.seq, preShort := x.preShort, pos := x.pos, packets := x.packets }

/-- The lowest-numbered FREE crib becomes RECORDING when none records (R164), from sample `s0` on where it is known. -/
def startCrib (c : CaptCfg) (s0 : Option Nat) (slots : Option (List CaptSlot)) (s : State) : State :=
  match cribIn 1 c s, cribIn 0 c s with
  | none, some k => setCrib k { (cribOf k s).cleared with state := 1, s0 := s0, slots := slots } s
  | _, _ => s

/-- A crib becomes FREE, and records at once when none does (R164). -/
def freeCrib (k : Nat) (s : State) : State :=
  let x := cribOf k s
  let s := setCrib k x.cleared s
  match capturing s with
  | none => s
  | some c => if (partOf c.part s).started && !(partOf c.part s).stopped then startCrib c none none s else s

/-- When a batch group of CAPT_PART opens, a RECORDING or SEALING crib without a recording start takes it and its slots from
that copy (R161, R165); one that took over at a seal point takes the slots of the copy that holds it. -/
def captureOpen (p : Fin 8) (first ends : Nat) (slots : List SlotMap) (s : State) : State :=
  match capturing s with
  | none => s
  | some c =>
    if !s.sys.stopped && c.part = p then
      (List.range c.cribs).foldl (fun s k =>
        let x := cribOf k s
        if (x.state = 1 || x.state = 2) && (x.s0 = none || (x.slots = none && x.s0.getD 0 < ends)) then
          let s := setCrib k { x with s0 := some (x.s0.getD first), slots := some (captSlots c slots) } s
          if captOverflow c slots then raise .trgCaptOverflow (some p) (arg0 k 0 0) 0 s else s
        else s) s
    else s

/-- The ordinal from which no batch of a partition has closed. -/
def Part.firstOpen (x : Part) : Nat :=
  match x.fill with
  | some c => match c.ords with | q :: _ => q | [] => x.nextOrd.getD 0
  | none => x.nextOrd.getD 0

/-- Every batch of the captured channels that holds a sample up to `last` has closed (R164). -/
def closedUpTo (c : CaptCfg) (last : Nat) (s : State) : Bool :=
  let x := partOf c.part s
  if !x.started then true
  else if x.nextOrd = none then false
  else ((List.range c.chanCount).map (c.chanFirst + ·)).all fun ch =>
    let pos := ch - x.cfg.chanFirst
    let q := x.firstOpen
    last < ((q + x.cfg.chanCount - 1 - pos) / x.cfg.chanCount) * x.cfg.t

/-- Sealing cribs whose batches have closed become HELD (R164, R179). -/
def cribsHeld (s : State) : State :=
  match capturing s with
  | none => s
  | some c =>
    (List.range c.cribs).foldl (fun s k =>
      let x := cribOf k s
      if x.state = 2 && (match x.s0 with | none => false | some z => z > x.sLast || closedUpTo c x.sLast s) then
        setCrib k { x with state := 3, epoch := roleEpoch c.part s, width4 := (partOf c.part s).cfg.width4 } s
      else s) s

/-- A crib without the granules of a discarded copy whose batches hold `t` samples (R181). -/
def Crib.without (x : Crib) (fill : Option Copy) (t : Nat) : Crib :=
  let gone := fun (kv : Nat × Option Gran) =>
    ((fill.map (·.batches)).getD []).any fun b => kv.1 / 2 ^ 60 / 4096 = b.chan && kv.1 % 2 ^ 60 * 16 / t = b.sub
  let grans := x.grans.filter fun kv => !gone kv
  { x with grans := grans, lastGran := (grans.map fun kv => kv.1 % 2 ^ 60 * 16 + 15).max? }

/-- A stop of CAPT_PART takes effect (R181), the filling copy `fill` discarded: the ARM is cleared, a recording crib is freed, sealing
cribs seal at once, and the epoch of what is sealed is fixed. -/
def captureStop (p : Fin 8) (fill : Option Copy) (s : State) : State :=
  match capturing s with
  | none => s
  | some c =>
    if c.part = p then
      let armed := s.trig.armed.isSome || s.trig.armPending ≠ []
      let s := { s with trig := { s.trig with armed := none, armPending := [] } }
      let s := if armed then raise .trgArmRefused (some p) (arg0 0 p.val 0x30) 0 s else s
      (List.range c.cribs).foldl (fun s k =>
        let x := cribOf k s
        if x.state = 1 then setCrib k x.cleared s
        else if x.state ≥ 3 then setCrib k { x with frozen := true } s
        else if x.state = 2 then
          let x := x.without fill (partOf p s).cfg.t
          setCrib k { x with state := 3, frozen := true, sealedShort := some (x.lastGran.getD 0), epoch := roleEpoch p s, width4 := (partOf p s).cfg.width4 } s
        else s) s
    else s

end Sys2Proof.Machine
end

