-- ==== Sys2Proof/Machine/Fabric.lean ====
section
/-!
DEFINITION. The internal fabric: target ports, quality of service, ageing, allotments, and masters that drain (R24 to R39, R198).
-/
namespace Sys2Proof.Machine

/-- The number of a target port. -/
def targetKey : FabTarget → Nat
  | .hbm n => n.val
  | .staging b => 64 + b.val
  | .sysSram => 68
  | .stwMem c => 69 + c.val
  | .regSpace => 77
  | .hostOut => 78
  | .egressIn => 79

/-- The number by which arguments name a master class: its row in Table 01-3, from 0 (log 137; the spec gives no code). -/
def classNo : MasterClass → Nat
  | .harvest => 0
  | .captureWriter => 1
  | .ingress => 2
  | .reeve => 3
  | .stewards => 4
  | .dma => 5
  | .hostIn => 6
  | .captureReader => 7

/-- A target port: nothing waits at first. -/
def targetOf (k : Nat) (s : State) : TargetPort := storeGet (fun _ => ⟨[], [], 0, 0⟩) s.fab.ports k

/-- The state with a target port stored. -/
def setTarget (k : Nat) (p : TargetPort) (s : State) : State :=
  { s with fab := { s.fab with ports := storeSet (fun _ => ⟨[], [], 0, 0⟩) s.fab.ports k p } }

/-- QoS at issue (Table 01-3, R26, R30). -/
def issueQos (r : FabRequest) (s : State) : Nat :=
  match r.cls with
  | .harvest => 15
  | .captureWriter => 15
  | .ingress => 14
  | .reeve => 12
  | .stewards => getF fSysFabricQosStwQos .sysFabricQos s
  | .dma => getF fDmaCtlQos (.dmaCtl r.chan) s
  | .hostIn => getF fSysFabricQosHostQos .sysFabricQos s
  | .captureReader => getF fSysFabricQosCaprdQos .sysFabricQos s

/-- The allotment that regulates a class at HBM (R198). -/
def allotOf (c : MasterClass) : Option (Fin 3) :=
  match c with
  | .stewards => some 0
  | .dma => some 1
  | .hostIn => some 2
  | _ => none

/-- Tokens of an allotment. -/
def tokensOf (m : Nat) (s : State) : Nat := storeGet (fun _ => 0) s.fab.tokens m

/-- The state with an allotment's tokens stored. -/
def setTokens (m n : Nat) (s : State) : State :=
  { s with fab := { s.fab with tokens := storeSet (fun _ => 0) s.fab.tokens m n } }

/-- The slice that keeps issue queues for a request aimed at HBM (R195): Harvest's and the capture writer's by quadrant, the ingress
writer's. -/
def issueSlice (r : FabRequest) : Option Nat :=
  match r.cls with
  | .harvest => some (r.chan.val % 4)
  | .captureWriter => some (4 + r.chan.val % 4)
  | .ingress => some 8
  | _ => none

/-- The pseudo-channel of an address at HBM port `k`: each port serves two (R16, R186). -/
def portPc (k addr : Nat) : Nat := 2 * k + addr / 2 ^ 31 % 2

/-- The pieces of a burst: cut at every 256 B boundary (R34). -/
def fabPieces (r : FabRequest) : List FabRequest :=
  (List.range ((r.addr % 256 + r.len + 255) / 256)).map fun i =>
    let lo := max r.addr ((r.addr / 256 + i) * 256)
    let hi := min (r.addr + r.len) ((r.addr / 256 + i + 1) * 256)
    { r with addr := lo, len := hi - lo, data := (r.data.drop (lo - r.addr)).take (hi - lo) }

/-- A piece issued: it waits for an entry of the port's queue with the QoS of its issue (R24, R26). -/
def issueReq (k : Nat) (r : FabRequest) (s : State) : State :=
  let p := targetOf k s
  setTarget k { p with waiting := p.waiting ++ [⟨s.fab.serial, r, issueQos r s⟩] }
    { s with fab := { s.fab with serial := s.fab.serial + 1 } }

/-- The requests of an issue queue. -/
def issueOf (m pc : Nat) (s : State) : List FabRequest := storeGet (fun _ => []) s.fab.issue (m * 128 + pc)

/-- The state with an issue queue stored. -/
def setIssue (m pc : Nat) (l : List FabRequest) (s : State) : State :=
  { s with fab := { s.fab with issue := storeSet (fun _ => []) s.fab.issue (m * 128 + pc) l } }

/-- A request joins its slice's issue queue; MEM_GUARANTEE_MISS when Harvest's or the capture writer's buffer comes to hold more than 256
(R197). -/
def issuePut (m pc : Nat) (r : FabRequest) (s : State) : State :=
  let s1 := setIssue m pc (issueOf m pc s ++ [r]) s
  if m < 8 && issueHeld m s ≤ 256 && issueHeld m s1 > 256 then raise .memGuaranteeMiss none (arg0 m 0 0) (issueHeld m s1) s1 else s1

/-- A burst whose data is whole enters the fabric piece by piece: through an issue queue where its source keeps one (R195), else at
its port. -/
def raiseReq (k : Nat) (r : FabRequest) (s : State) : State :=
  (fabPieces r).foldl (fun s r =>
    match (if k < 64 then issueSlice r else none) with
    | some m => issuePut m (portPc k r.addr) r s
    | none => issueReq k r s) s

/-- What arrives at the interfaces for a port: a draining class takes none (R36); a write waits at its interface until all of its data
has come (R35). -/
def arrive (k : Nat) (a : FabArrival) (s : State) : State :=
  match a with
  | .request r =>
    if r.cls ∈ s.fab.draining then s
    else if r.write && r.data.length < r.len then { s with fab := { s.fab with short := s.fab.short ++ [(k, r)] } }
    else raiseReq k r s
  | .data c ch bs =>
    match s.fab.short.find? fun x => x.2.cls = c && x.2.chan = ch with
    | none => s
    | some x =>
      let r := { x.2 with data := (x.2.data ++ bs).take x.2.len }
      if r.data.length < r.len then { s with fab := { s.fab with short := s.fab.short.map fun y => if y = x then (x.1, r) else y } }
      else raiseReq x.1 r { s with fab := { s.fab with short := s.fab.short.erase x } }

/-- The pseudo-channel a slice issues for next: the first from where its rotation stands that has a request (R195). -/
def issueNext (m : Nat) (s : State) : Option Nat :=
  let t := storeGet (fun _ => 0) s.fab.turn m
  ((List.range 128).map fun i => (t + i) % 128).find? fun pc => issueOf m pc s ≠ []

/-- A slice issues one request, of the next pseudo-channel in its rotation (R195). -/
def issueOne (m : Nat) (s : State) : State :=
  match issueNext m s with
  | none => s
  | some pc =>
    match issueOf m pc s with
    | [] => s
    | r :: rs =>
      issueReq (pc / 2) r (setIssue m pc rs { s with fab := { s.fab with turn := storeSet (fun _ => 0) s.fab.turn m ((pc + 1) % 128) } })

/-- Every slice issues one request (R195). -/
def issueAll (s : State) : State := (List.range 9).foldl (fun s m => issueOne m s) s

/-- The queue of a port has room for a transaction: 8 entries for level 15, 56 for the rest (R27). -/
def hasRoom (p : TargetPort) (t : Txn) : Bool :=
  if t.qos = 15 then (p.queue.filter fun x => x.qos = 15).length < 8 else (p.queue.filter fun x => x.qos ≠ 15).length < 56

/-- A transaction may enter: room, and tokens where an allotment regulates its class at HBM (R198). -/
def mayEnter (k : Nat) (p : TargetPort) (t : Txn) (s : State) : Bool :=
  hasRoom p t && (k ≥ 64 || match allotOf t.req.cls with
    | none => true
    | some m => tokensOf m.val s ≥ t.req.len)

/-- The classes in round-robin order from `r` (R27). -/
def classesFrom (r : Nat) : List Nat := (List.range 8).map fun i => (r + i) % 8

/-- The next transaction to enter: each interface offers its oldest, and the interfaces take turns. -/
def nextEntry (k : Nat) (p : TargetPort) (s : State) : Option Txn :=
  ((classesFrom p.robin).filterMap fun c => p.waiting.find? fun t => classNo t.req.cls = c).find? fun t => mayEnter k p t s

/-- Transactions enter the queue while they may. A shared entry moves the turn on to the next interface; a reserved one does not
(R27). -/
def fillQueue (k : Nat) : Nat → State → State
  | 0, s => s
  | n + 1, s =>
    let p := targetOf k s
    match nextEntry k p s with
    | none => s
    | some t =>
      let s := if k < 64 then match allotOf t.req.cls with
          | none => s
          | some m => setTokens m.val (tokensOf m.val s - t.req.len) s
        else s
      fillQueue k n (setTarget k { p with queue := p.queue ++ [t], waiting := p.waiting.filter (·.serial ≠ t.serial),
                                          robin := if t.qos = 15 then p.robin else (classNo t.req.cls + 1) % 8 } s)

/-- The first transaction of highest QoS of a list (R28). -/
def topOf (ts : List Txn) : Option Txn :=
  ts.foldl (fun b t => match b with | none => some t | some x => if t.qos > x.qos then some t else b) none

/-- The transaction granted: highest QoS, oldest entry, but after seven level-15 grants in a row one below 15 that waits (R28). -/
def grantOf (p : TargetPort) : Option Txn :=
  let low := p.queue.filter fun t => t.qos ≠ 15
  if p.streak ≥ 7 && low ≠ [] then topOf low else topOf p.queue

/-- A grant leaves the queue; the streak counts level-15 grants while others wait (R28). -/
def afterGrant (p : TargetPort) (t : Txn) : TargetPort :=
  let low := p.queue.filter fun t => t.qos ≠ 15
  { p with queue := p.queue.filter (·.serial ≠ t.serial), streak := if t.qos = 15 && low ≠ [] then p.streak + 1 else 0 }

/-- QOS_AGEING (R29): one level more, up to 14; level 15 is not touched. -/
def qosAgeing (k serial : Nat) (s : State) : State :=
  let p := targetOf k s
  setTarget k { p with queue := p.queue.map fun t =>
    if t.serial = serial && t.qos < 14 then { t with qos := t.qos + 1 } else t } s

/-- QOS_AGEING (R29). -/
def execQosAgeing (port : FabTarget) (serial : Nat) (s : State) : Host.Outcome State Fault Refusal :=
  act (qosAgeing (targetKey port) serial) s

/-- A channel has a burst or a descriptor fetch in flight. -/
def DmaChan.inFlight (c : DmaChan) : Bool := c.reads ≠ [] || c.writes ≠ [] || c.fetchNo.isSome

/-- Transactions of a class are outstanding (R36): at a port, in an issue queue, or as a response a DMA channel has not taken. -/
def outstanding (c : MasterClass) (s : State) : Bool :=
  (s.fab.ports.any fun kp => (kp.2.queue ++ kp.2.waiting).any fun t => t.req.cls = c) ||
  (s.fab.issue.any fun kv => kv.2.any fun r => r.cls = c) ||
  (c = .dma && s.dma.any fun kv => match kv.2 with | some x => x.inFlight | none => false)

/-- MASTER_RESET (R35, R36): a write whose data has not all come is discarded (that of one channel or core where only it is reset);
what has been issued goes on, and the interface takes nothing new until it has drained. -/
def masterReset (c : MasterClass) (ch : Option Nat) (s : State) : State :=
  let mine := fun r : FabRequest => r.cls = c && (match ch with | none => true | some k => r.chan.val = k)
  { s with fab := { s.fab with short := s.fab.short.filter fun x => !mine x.2,
                               draining := if c ∈ s.fab.draining then s.fab.draining else s.fab.draining ++ [c] } }

/-- Cribs whose readout the emergency stop cancelled become FREE once the capture reader has drained (R183). -/
def freeCancelled (c : MasterClass) (s : State) : State :=
  if c = .captureReader && s.sys.stopped then
    (List.range 4).foldl (fun s k => if (cribOf k s).state = 4 then setCrib k (cribOf k s).cleared s else s) s
  else s

/-- ALLOTMENT_REFILL (R198): every bucket gains its rate, up to its depth. -/
def allotmentRefill (s : State) : State :=
  (List.finRange 3).foldl (fun s m => setTokens m.val
    (min (tokensOf m.val s + 16 * getF fMemAllotRate (.memAllot m) s) (256 * getF fMemAllotBurst (.memAllot m) s)) s) s

/-- ALLOTMENT_REFILL (R198). -/
def execAllotmentRefill (s : State) : Host.Outcome State Fault Refusal := act allotmentRefill s

end Sys2Proof.Machine
end

