-- ==== Sys2Proof/Machine/Hif.lean ====
section
/-!
DEFINITION. The host interface's commands: rings, polling, descriptor fetch, link events, the Crier word and interrupts
(R283 to R299, R306, R312, R313, R387, R403).
-/
namespace Sys2Proof.Machine

/-- A ring configuration may not be enabled (R290). -/
def ringEnableBad (v : Payload) (s : State) : Bool :=
  let l := fld fRingCfgLog2 v
  let c := Fin.ofNat 16384 (fld fRingCfgCplRing v)
  l < 4 || l > 16 || fld fRingCfgSlotLog2 v > 5 || fld fRingCfgGroup v > 8 ||
  (fld fRingCfgType v = 0 && !(ringF fRingCfgEn c s = 1 && ringF fRingCfgType c s = 1))

/-- A write refused: HIF_RING_CFG_REFUSED (R290). -/
def ringRefused (n : Fin 16384) (s : State) : State := raise .hifRingCfgRefused none (arg0 n.val 0 0) 0 s

/-- A write of HIF_RING_n_CFG (R290). -/
def ringCfgWrite (n : Fin 16384) (v : Payload) (s : State) : State :=
  let r := Reg.ringCfg n
  let v := v &&& BitVec.ofNat 48 0xFFFFFFFFFF80
  let old := regOf r s
  if fld fRingCfgEn old = 1 then
    let s1 := if setFld fRingCfgEn 1 v = old then s else ringRefused n s
    if fld fRingCfgEn v = 1 then s1 else setF fRingCfgEn r 0 s1
  else if fld fRingCfgEn v = 1 && ringEnableBad v s then ringRefused n (setReg r (setFld fRingCfgEn 0 v) s)
  else setReg r v s

/-- A write of one of a ring's registers (R289, R290). -/
def ringWrite (n : Fin 16384) (which : RingRegister) (v : Payload) (s : State) : State :=
  let on := ringF fRingCfgEn n s = 1
  match which with
  | .cfg => ringCfgWrite n v s
  | .base => if on then ringRefused n s else setReg (.ringBase n) v s
  | .idx =>
    if on then ringRefused n s
    else
      let x := fld fRingIdxIdx v
      setRingCtx n.val { ringCtx n.val s with prod := x, cons := x } (setF fRingIdxIdx (.ringIdx n) x s)

/-- HIF_RING_CFG_WRITE (R289, R290). -/
def execHifRingCfgWrite (m : Master) (ring : Fin 16384) (which : RingRegister) (value : Payload) (s : State) :
    Host.Outcome State Fault Refusal :=
  actBy m (ringWrite ring which value) s

/-- A doorbell's INDEX taken by its ring, or an overrun that stops the ring (R296). -/
def takeDoorbell (n : Fin 16384) (s : State) : State :=
  if ringF fRingCfgEn n s = 0 then s
  else
    let x := leAt (hostRead ((regOf .hifDbBase s).toNat * 4096 + 8 * n.val) 4 s) 0 4
    let idx := ringIdx n s
    let sub := ringF fRingCfgType n s = 0
    let d := if sub then (x + 2 ^ 32 - idx) % 2 ^ 32 else (idx + 2 ^ 32 - x) % 2 ^ 32
    if d > ringSize n s then
      raise .hifRingOverrun none (arg0 n.val 0 0) 0 (setF fRingCfgEn (.ringCfg n) 0 s)
    else if sub then setRingCtx n.val { ringCtx n.val s with prod := x } s
    else setRingCtx n.val { ringCtx n.val s with cons := x } s

/-- The rings whose bits are set in the summary bitmap, in rising order. -/
def summaryRings (s : State) : List (Fin 16384) :=
  let base := (regOf .hifSumBase s).toNat * 4096
  s.hostMem.flatMap fun kv =>
    if base ≤ kv.1 && kv.1 < base + 2048 then
      (List.range 8).filterMap fun b => if bitOf kv.2.toNat b then some (Fin.ofNat 16384 ((kv.1 - base) * 8 + b)) else none
    else []

/-- The bitmap swapped with zeros. -/
def clearSummary (s : State) : State :=
  let base := (regOf .hifSumBase s).toNat * 4096
  { s with hostMem := s.hostMem.filter fun kv => !(base ≤ kv.1 && kv.1 < base + 2048) }

/-- The device polls: it booted, the Reeve runs, the host can be read, and polling is enabled or nudged (R294, R295, R329, R390). -/
def mayPoll (s : State) : Bool :=
  bootStage s = 4 && s.sys.reeveRuns && hostOpen s && (getF fHifPollEn .hifPoll s = 1 || s.hif.nudge)

/-- HIF_POLL_TICK (R294): summary words swapped and their doorbells read, or every enabled ring's doorbell in scan mode. -/
def pollTick (s : State) : State :=
  if !mayPoll s then s
  else
    let s := { s with hif := { s.hif with nudge := false } }
    if getF fHifPollScan .hifPoll s = 1 then (enabledRings s).foldl (fun s n => takeDoorbell n s) s
    else
      let rs := summaryRings s
      rs.foldl (fun s n => takeDoorbell n s) (clearSummary s)

/-- HIF_POLL_TICK (R294). -/
def execHifPollTick (s : State) : Host.Outcome State Fault Refusal := act pollTick s

/-- HIF_NUDGE (R295, R390): one poll, ignored before boot is done. -/
def nudge (s : State) : State := if bootStage s = 4 then { s with hif := { s.hif with nudge := true } } else s

/-- HIF_NUDGE (R295). -/
def execHifNudge (m : Master) (_value : Payload) (s : State) : Host.Outcome State Fault Refusal := actBy m nudge s

/-- A free entry of a CPL ring beyond those reserved (R299). -/
def cplFree (c : Fin 16384) (s : State) : Bool :=
  ringF fRingCfgEn c s = 1 && ringF fRingCfgType c s = 1 && ringUsed c s + (ringCtx c.val s).reserved < ringSize c s

/-- A SUB ring with a descriptor to fetch and a free completion entry. -/
def fetchable (n : Fin 16384) (s : State) : Bool :=
  ringF fRingCfgEn n s = 1 && ringF fRingCfgType n s = 0 && (ringCtx n.val s).prod ≠ ringIdx n s &&
  cplFree (Fin.ofNat 16384 (ringF fRingCfgCplRing n s)) s

/-- The ring served next, in round-robin order of ring number (R306). -/
def nextRing (s : State) : Option (Fin 16384) :=
  let rs := (ringsOfType 0 s).filter fun n => fetchable n s
  match rs.find? fun n => s.hif.robin ≤ n.val with
  | some n => some n
  | none => rs.head?

/-- The status a descriptor meets at its fetch (R298, R299, R305): an undefined opcode and a set RSVD come before a busy tag. -/
def busyStatus (d : Desc) : Nat := if !opcodeDefined d.opcode then 0x10 else if rsvdSet d then 0x11 else 0x12

/-- DESC_FETCH (R288, R297 to R299, R306): the next ring's next descriptor takes flight with its completion entry reserved; one
whose tag is in flight is refused unrecorded, and one that cannot be read completes with BUS_ERROR, unrecorded, under a tag no one knows
(free, log 17). -/
def descFetch (n : Fin 16384) (readOk : Bool) (s : State) : State :=
  if bootStage s ≠ 4 || !s.sys.reeveRuns || !hostOpen s || s.hif.inflight.length ≥ 131072 || nextRing s ≠ some n then s
  else
    let cpl := ringF fRingCfgCplRing n s
    let x := ringIdx n s
    let bs := hostRead (ringAddr n x s) 64 s
    let c := ringCtx cpl s
    let s := setRingCtx cpl { c with reserved := c.reserved + 1 } s
    let s := setF fRingIdxIdx (.ringIdx n) (x + 1) { s with hif := { s.hif with robin := (n.val + 1) % 16384 } }
    if !readOk then
      let (t, s) := freeNat s
      let d : Desc := ⟨n.val, cpl, t % 131072, List.replicate 8 0, false, false⟩
      setTagRec d.tag (tagRec d.tag s) (writeCompletion d 0x50 0 0 (releaseCpl cpl s))
    else
      let q := (List.range 8).map fun i => leAt bs (8 * i) 8
      let d : Desc := ⟨n.val, cpl, bitsOf (q.getD 0 0) 32 16, q, false, false⟩
      if s.hif.inflight.any (·.tag = d.tag) then
        let old := tagRec d.tag s
        setTagRec d.tag old (writeCompletion d (busyStatus d) 0 0 (releaseCpl cpl s))
      else
        setTagRec d.tag ⟨true, 0, d.opcode, false⟩ { s with hif := { s.hif with inflight := s.hif.inflight ++ [d] } }

/-- DESC_FETCH (R298). -/
def execDescFetch (ring : Fin 16384) (readOk : Bool) (s : State) : Host.Outcome State Fault Refusal :=
  act (descFetch ring readOk) s

/-- NOP (R297, R299): it completes. -/
def execNop (tag : BitVec 17) (s : State) : Host.Outcome State Fault Refusal :=
  act (runDesc (· = 0x00) tag.toNat (fun _ _ => []) (fun d s => complete d 0 0 0 s)) s

/-- QUERY (R288): the record of a tag in RESULT0. -/
def queryResult (t : Nat) (s : State) : Nat :=
  let r := tagRec t s
  if r.carried then r.status + r.opcode * 256 + (if r.written then 65536 else 0) else 131072

/-- QUERY (R288). -/
def execQuery (tag : BitVec 17) (s : State) : Host.Outcome State Fault Refusal :=
  act (runDesc (· = 0x11) tag.toNat (fun _ _ => []) (fun d s => complete d 0 (queryResult (bitsOf (d.qw 1) 16 0) s) 0 s)) s

/-- BAD_OPCODE (R299): an opcode the catalogue does not define. -/
def execBadOpcode (tag : BitVec 17) (s : State) : Host.Outcome State Fault Refusal :=
  act (runDesc (fun op => !opcodeDefined op) tag.toNat (fun _ _ => [chk true 0x10]) (fun _ s => s)) s

/-- Descriptors at a link event (Table 12-2): those not begun are discarded ABORTED, those begun lose their completion. -/
def abortDescs (s : State) : State :=
  let s1 := (s.hif.inflight.filter fun d => !d.begun).foldl
    (fun s d => setTagRec d.tag ⟨true, 0x51, d.opcode, false⟩ (releaseCpl d.cpl (dropDesc d s))) s
  { s1 with hif := { s1.hif with inflight := s1.hif.inflight.map fun d => { d with orphan := true },
                                   waiting := s1.hif.waiting.map fun c => { c with desc := { c.desc with orphan := true } } } }

/-- Every ring disabled, its indices kept (Table 12-2). -/
def disableRings (s : State) : State :=
  (enabledRings s).foldl (fun s n => setRingCtx n.val { ringCtx n.val s with prod := ringIdx n s }
    (setF fRingCfgEn (.ringCfg n) 0 s)) s

/-- The outcome of a hot reset, an FLR or a link-down (R286, R287, Table 12-2). -/
def linkEvent (stays : Bool) (s : State) : State :=
  let s := dropLatch s
  let s := { s with hif := { s.hif with linkUp := s.hif.linkUp && stays, d3hot := false, nudge := false, irqDeferred := [] } }
  let s := masterReset .hostIn none (disableRings (abortDescs s))
  raise .hifLinkDown none 0 0 s

/-- PCIE_LINK_RESET (R287). -/
def execPcieLinkReset (kind : LinkReset) (s : State) : Host.Outcome State Fault Refusal := act (linkEvent (kind = .flr)) s

/-- The registers of the host interface: HIF_ set-up, ring contexts and HIF_ counters. -/
def isHifOffset (o : Nat) : Bool :=
  (0x10000 ≤ o && o < 0x11000) || (famIdx 0x800000 32 16384 o).isSome || (famIdx 0x800008 32 16384 o).isSome ||
  (famIdx 0x800010 32 16384 o).isSome

/-- The host interface right after a reset of its own (R387, R388): registers, ring contexts and tag records gone. -/
def resetHif (s : State) : State :=
  { s with regs := s.regs.filter fun kv => !isHifOffset kv.1,
           hif := { s.hif with latch := none, rings := [], inflight := [], tags := [], waiting := [], irqLast := [], irqDeferred := [],
                               robin := 0, nudge := false } }

/-- PERST_N (R387, Table 16-2): a link-down, and every HIF_ register and record at its reset value. -/
def execPerstN (s : State) : Host.Outcome State Fault Refusal := act (fun s => resetHif (linkEvent false s)) s

/-- PCIE_LINK_UP (R283, R390): the link has trained. -/
def execPcieLinkUp (rate : PcieRate) (width : PcieWidth) (s : State) : Host.Outcome State Fault Refusal :=
  act (fun s => { s with hif := { s.hif with linkUp := true, rate := rate, width := width } }) s

/-- The device is IDLE: no partition started, capture disabled, not in STANDBY (R403). -/
def isIdle (s : State) : Bool :=
  !s.sys.standby && s.trig.capt.isNone && s.parts.all fun kp => !kp.2.started

/-- STANDBY entered (R403, Table 16-7): data lanes powered down, LANE_DOWN for each lane of a Viros port and each Ethernet port (R274). -/
def enterStandby (s : State) : State :=
  let s := (List.range 8).foldl (fun s g =>
    if gmode g s = 6 then (portLanes g s).foldl (fun s n => laneEnter n 0 s) s
    else if (portOf g s).ethUp then raise .laneDown none (arg0 (8 * g) g 0) 0 s else s) s
  let s := (List.range 64).foldl (fun s n => setReg (.laneStatus (Fin.ofNat 64 n)) 0 s) s
  { s with sys := { s.sys with standby := true },
           lanes := { s.lanes with ports := s.lanes.ports.map fun kp => (kp.1, { kp.2 with ethUp := false }) } }

/-- STANDBY left (R403): REQ clears, and the exit's 20 ms begin. -/
def leaveStandby (s : State) : State :=
  if s.sys.standby then
    setF fSysPowerReq .sysPower 0 { s with sys := { s.sys with standby := false, standbyByD3 := false, exiting := true } }
  else s

/-- A write of SYS_POWER (R403): REQ = 1 while IDLE enters STANDBY, REQ = 0 leaves it, anything else is ignored. -/
def sysPowerWrite (v : Payload) (s : State) : State :=
  if fld fSysPowerReq v = 1 then (if isIdle s then setF fSysPowerReq .sysPower 1 (enterStandby s) else s) else leaveStandby s

/-- STANDBY_REQUEST (R403). -/
def execStandbyRequest (m : Master) (value : Payload) (s : State) : Host.Outcome State Fault Refusal := actBy m (sysPowerWrite value) s

/-- STANDBY_EXIT_REQUEST (R403). -/
def execStandbyExitRequest (m : Master) (value : Payload) (s : State) : Host.Outcome State Fault Refusal :=
  actBy m (sysPowerWrite value) s

/-- STANDBY_EXIT_DONE (R403): the descriptors that waited complete. -/
def standbyExitDone (s : State) : State :=
  if !s.sys.exiting then s
  else
    completeWaiting { s with sys := { s.sys with exiting := false } }

/-- STANDBY_EXIT_DONE (R403). -/
def execStandbyExitDone (s : State) : Host.Outcome State Fault Refusal := act standbyExitDone s

/-- PCIE_D3HOT (R403): STANDBY if the device is IDLE, else only the host interface stops. -/
def execPcieD3hot (s : State) : Host.Outcome State Fault Refusal :=
  act (fun s =>
    let s1 := if isIdle s then
        let s := enterStandby s
        { s with sys := { s.sys with standbyByD3 := true } }
      else s
    { s1 with hif := { s1.hif with d3hot := true } }) s

/-- PCIE_D0 (R403): a STANDBY entered by D3hot is left. -/
def execPcieD0 (s : State) : Host.Outcome State Fault Refusal :=
  act (fun s =>
    let s1 := { s with hif := { s.hif with d3hot := false } }
    if s1.sys.standbyByD3 then leaveStandby s1 else s1) s

/-- A write of HIF_ATTN_CLR (R312). -/
def attnClr (v : Payload) (s : State) : State :=
  let s := if fld fHifAttnClrWithheld v = 1 then { s with hif := { s.hif with withheld := false } } else s
  if fld fHifAttnClrSev v = 1 then { s with hif := { s.hif with sev := presentSev s } } else s

/-- ATTN_CLR_WITHHELD (R312). -/
def execAttnClrWithheld (m : Master) (value : Payload) (s : State) : Host.Outcome State Fault Refusal := actBy m (attnClr value) s

/-- ATTN_CLR_SEV (R312). -/
def execAttnClrSev (m : Master) (value : Payload) (s : State) : Host.Outcome State Fault Refusal := actBy m (attnClr value) s

/-- HB_TOGGLE (R312, R329): from boot's end, while the Reeve runs. -/
def execHbToggle (s : State) : Host.Outcome State Fault Refusal :=
  act (fun s => if bootStage s = 4 && s.sys.reeveRuns then { s with hif := { s.hif with hb := !s.hif.hb } } else s) s

/-- IRQ_MOD_EXPIRE (R313): a raising the gap deferred happens once the gap has ended. -/
def irqExpire (v : Nat) (s : State) : State :=
  if v ∈ s.hif.irqDeferred && hostOpen s && !irqGap v s then
    emit (.irq v) { s with hif := { s.hif with irqDeferred := s.hif.irqDeferred.filter (· ≠ v),
                                               irqLast := storeSet (fun _ => 0) s.hif.irqLast v (s.tick + 1) } }
  else s

/-- IRQ_MOD_EXPIRE (R313). -/
def execIrqModExpire (vec : BitVec 11) (s : State) : Host.Outcome State Fault Refusal := act (irqExpire vec.toNat) s

end Sys2Proof.Machine
end

