-- ==== Sys2Proof/Machine/Time.lean ====
section
/-!
DEFINITION. Local time, its sources and the servo, the references, the TDC and its engine, PPS and the timestamp queue
(R208 to R236).
-/
namespace Sys2Proof.Machine

/-- Units of 2^-32 ns in a second. -/
def secUnits : Nat := 1000000000 * 2 ^ 32

/-- Local time as one number of 2^-32 ns. -/
def localQ (s : State) : Nat := s.time.sec * secUnits + s.time.sub

/-- Local time set to a number of 2^-32 ns, seconds modulo 2^48 (R208). -/
def setLocalQ (q : Int) (s : State) : State :=
  let q := (q % (2 ^ 48 * secUnits : Nat)).toNat
  { s with time := { s.time with sec := q / secUnits, sub := q % secUnits } }

/-- TIME_CTL.SOURCE: 0 Bell, 1 PPS, 2 PTP, 3 HOST. -/
def timeSource (s : State) : Nat := getF fTimeCtlSource .timeCtl s

/-- ADJ, signed (R209). -/
def adj (s : State) : Int := signedOf 32 (getF fTimeRateAdj .timeRate s)

/-- The increment of R208 in units of 2^-32 ns. -/
def increment (s : State) : Int := 10737418240 + adj s

/-- TQ_LOCAL for an error bound `e` in units of 2.5 × 10^-6 ps, of which 400,000 are a picosecond (R212). -/
def tqOf (e : Nat) : Nat :=
  if e < 400000 then 255
  else match (List.range 249).find? fun n => 2 ^ n * 400000 ^ 8 ≥ e ^ 8 with
    | some n => 255 - n
    | none => 0

/-- TQ_LOCAL (R212, R214): what the host declared under SOURCE = HOST, else what E gives, 0 until local time is set. -/
def tqLocal (s : State) : Nat :=
  if timeSource s = 3 then s.time.hostTq else if s.time.everSet then tqOf s.time.e else 0

/-- The conditions of ATTN.TIMEQ (R213). -/
def timeqDue (s : State) : Bool :=
  tqLocal s < getF fTimeCtlTqReq .timeCtl s || s.time.settling || s.time.bins.isNone

/-- ATTN.TIMEQ follows its conditions; a change raises its event (R213). -/
def updateTimeq (s : State) : State :=
  let d := timeqDue s
  if d = s.hif.timeq then s
  else
    let t := noteAttn s { s with hif := { s.hif with timeq := d } }
    raise (if d then .timeQualityLow else .timeQualityOk) none 0 0 t

/-- The slew's step on a TCLK edge (R211). -/
def slewStep (left : Int) : Int := clampInt (-1073741) 1073741 left

/-- Load TIME_SET into the timebase, or void the step (R211). -/
def loadStep (s : State) : State :=
  let s1 := setF fTimeCtlStep .timeCtl 0 s
  let ns := getF fTimeSetNsNs .timeSetNs s
  if ns ≥ 1000000000 then raise .timeSetRefused none 0 0 s1
  else
    let q : Nat := getF fTimeSetSSec .timeSetS s * secUnits + ns * 2 ^ 32 + getF fTimeSetNsFrac .timeSetNs s * 2 ^ 16
    updateTimeq (raise .timeStepped none 0 0 (setLocalQ q { s1 with time := { s1.time with everSet := true } }))

/-- What a run says the timebase is at tick `n`. -/
def runAt (r : Nat × Nat × Int) (n : Nat) : Int := (r.2.1 + ((n : Int) - r.1) * r.2.2) % (2 ^ 48 * secUnits : Nat)

/-- The timebase at the edge that begins tick `n`, after a step of `d` from the edge before: it continues the newest run, or begins one.
Runs past the reach of a stamp go. -/
def noteRun (n : Nat) (d : Int) (s : State) : State :=
  if s.time.runs.head?.any fun r => runAt r n = localQ s then s
  else { s with time := { s.time with runs := (n, localQ s, d) :: s.time.runs.filter fun r => n < r.1 + 2 ^ 38 } }

/-- A TCLK edge (R208, R211, R215): the increment, the slew's step, a step that waits for the edge, and the growth of E in
holdover. -/
def timeTick (s : State) : State :=
  let st := slewStep s.time.slewLeft
  let d := increment s + st
  let s1 := setLocalQ (localQ s + d) s
  let u := if (s.time.pll = 1 && s.time.refA.qual = 3) || (s.time.pll = 2 && s.time.refB.qual = 3) then 1
    else max 1 (getF fTimeXoCfgHoldUnc .timeXoCfg s)
  let s2 := { s1 with time := { s1.time with slewLeft := s.time.slewLeft - st,
                                             e := if s.time.holdover then s.time.e + u else s.time.e } }
  let s3 := if getF fTimeCtlStep .timeCtl s2 = 1 && getF fTimeCtlStepAtPps .timeCtl s2 = 0 then loadStep s2 else s2
  let s4 := noteRun (s.tick + 1) d s3
  if s4.time.holdover then updateTimeq s4 else s4

/-- TIME_NOW_S read by a master: SEC, with NS and FRAC latched for that master (R210). -/
def masterKey (m : Master) : Nat := match m with | .host => 0 | .reeve => 1 | .monitor => 2

/-- The 64-bit value of a read: the Crier word over the payload (R12). -/
def readWord (v : Payload) (s : State) : Qword := BitVec.ofNat 64 (attnNat s * 2 ^ 48 + v.toNat)

/-- The read of TIME_NOW_S (R210): seconds returned, NS and FRAC latched for the master. -/
def timeNowLatch (m : Master) (s : State) : State :=
  { s with time := { s.time with latches := storeSet (fun _ => 0) s.time.latches (masterKey m) (s.time.sub / 2 ^ 16) } }

/-- TIME_NOW_S_READ (R210). -/
def execTimeNowSRead (m : Master) (s : State) : Host.Outcome State Fault Refusal :=
  actBy m (fun s => emit (.readData m (readWord (BitVec.ofNat 48 s.time.sec) s)) (timeNowLatch m s)) s

/-- The write is not the servo's and SOURCE is not HOST (R209, R211). -/
def timeRefused (m : Master) (s : State) : Bool := timeSource s ≠ 3 && m ≠ .reeve

/-- A write of TIME_RATE: ADJ clamped to ±1,000 ppm (R209). -/
def timeRateWrite (m : Master) (v : Payload) (s : State) : State :=
  if timeRefused m s then raise .timeSetRefused none 0 0 s
  else setF fTimeRateAdj .timeRate (unsignedOf 32 (clampInt (-10737418) 10737418 (signedOf 32 (fld fTimeRateAdj v)))) s

/-- TIME_RATE_WRITE (R209). -/
def execTimeRateWrite (m : Master) (value : Payload) (s : State) : Host.Outcome State Fault Refusal :=
  actBy m (timeRateWrite m value) s

/-- A write of TIME_CTL, taken as a whole (R211, Table 09-2). -/
def timeCtlWrite (m : Master) (v : Payload) (s : State) : State :=
  let s := setF fTimeCtlTqReq .timeCtl (fld fTimeCtlTqReq v) s
  let s := setF fTimeCtlSource .timeCtl (fld fTimeCtlSource v) s
  let s := if fld fTimeCtlSource v = 1 then s else { s with time := { s.time with ppsLocked := false } }
  let s := setF fTimeCtlTauLog2 .timeCtl (min 10 (fld fTimeCtlTauLog2 v)) s
  let s := setF fTimeCtlStepAtPps .timeCtl (fld fTimeCtlStepAtPps v) s
  let s := updateTimeq s
  if fld fTimeCtlStep v = 0 then s
  else if timeRefused m s then raise .timeSetRefused none 0 0 s
  else if getF fTimeSetNsNs .timeSetNs s ≥ 1000000000 then
    raise .timeSetRefused none 0 0 (setF fTimeCtlStep .timeCtl 0 s)
  else setF fTimeCtlStep .timeCtl 1 s

/-- TIME_STEP (R211): the load follows at the next TCLK edge, or at the next accepted PPS_IN edge. -/
def execTimeStep (m : Master) (value : Payload) (s : State) : Host.Outcome State Fault Refusal :=
  actBy m (timeCtlWrite m value) s

/-- A write of TIME_SLEW replaces what is left of an earlier slew (R211). -/
def timeSlewWrite (m : Master) (v : Payload) (s : State) : State :=
  if timeRefused m s then raise .timeSetRefused none 0 0 s
  else { s with time := { s.time with slewLeft := signedOf 40 (fld fTimeSlewOffset v) * 2 ^ 24 } }

/-- TIME_SLEW_WRITE (R211). -/
def execTimeSlewWrite (m : Master) (value : Payload) (s : State) : Host.Outcome State Fault Refusal :=
  actBy m (timeSlewWrite m value) s

/-- F(code) in units of 2^-8 ps (R226, R227). -/
def fineTime (bins : Option (List Nat)) (c : Nat) : Nat :=
  match bins with
  | none => 625 * c + 312
  | some w => (w.take c).foldl (· + ·) 0 + w.getD c 0 / 2

/-- A stamp in units of 2^-8 ps, its wraps counted (R224). -/
def rawValue (bins : Option (List Nat)) (x : RawStamp) : Int :=
  160000 * (x.wraps.toNat * 2 ^ 40 + x.coarse.toNat : Nat) + fineTime bins x.code.toNat

/-- The timebase at the TCLK edge that began tick `n`: as its run says; before the runs kept, and at edges to come, by present
increments (log 12). -/
def timeAt (n : Int) (s : State) : Int :=
  match s.time.runs.find? fun r => (r.1 : Int) ≤ n with
  | some r => if n ≤ s.tick then runAt r n.toNat else localQ s + (n - s.tick) * increment s
  | none => localQ s + (n - s.tick) * increment s

/-- The local time in units of 2^-32 ns at coarse count `c` and `f` units of 2^-8 ps (R225): the timebase at the TCLK edge at count
4 × floor(c/4), plus the rest scaled by the present increment. -/
def countTime (c f : Nat) (s : State) : Int :=
  let d := signedOf 38 (s.tick + 2 ^ 38 - c % 2 ^ 40 / 4)
  let v : Int := ((c % 4) * 160000 + f : Nat)
  timeAt (s.tick - d) s + v * 2 ^ 24 * increment s / (1000 * 10737418240)

/-- The local time of a stamp (R225). -/
def stampTime (x : RawStamp) (s : State) : Int := countTime x.coarse.toNat (fineTime s.time.bins x.code.toNat) s

/-- A stamp offered to the timestamp queue: stored, or dropped when it is full (R235, R236). -/
def tsqOffer (q : Int) (id source msg : Nat) (s : State) : State :=
  let n := wrap 16 (s.time.qseq + 1)
  let s1 := { s with time := { s.time with qseq := n } }
  if s.time.tsq.length ≥ 256 then
    let s2 := { s1 with time := { s1.time with drops := min 65535 (s.time.drops + 1), overflowed := true } }
    if s.time.overflowed then s2 else raise .timeTsqOverflow none 0 0 s2
  else
    let u := (q % (2 ^ 48 * secUnits : Nat)).toNat
    { s1 with time := { s1.time with tsq := s.time.tsq ++ [⟨u / secUnits, (u % secUnits) / 2 ^ 16, wrap 16 id, s.time.qseq, source, msg⟩] } }

/-- The prescaler of a TDC channel (Tables 09-8, 09-9): PRESCALE + 1 on channels 2 to 5 and 15. -/
def prescaler (ch : Nat) (s : State) : Nat :=
  if (2 ≤ ch && ch ≤ 5) || ch = 15 then getF fTimeTdcCtlPrescale .timeTdcCtl s + 1 else 1

/-- The interval of a pair of stamps in units of 2^-8 ps, none when 2^40 counts or more lie between them (R224, R228). -/
def interval (bins : Option (List Nat)) (p : RawStamp × RawStamp) : Option Int :=
  let c : RawStamp → Nat := fun x => x.wraps.toNat * 2 ^ 40 + x.coarse.toNat
  let d : Nat := (c p.2 + 2 ^ 48 - c p.1) % 2 ^ 48
  if d ≥ 2 ^ 40 then none else some (160000 * (d : Int) + fineTime bins p.2.code.toNat - fineTime bins p.1.code.toNat : Int)

/-- The measurement takes a sample between two stamps (R224, R228). -/
def takeSample (a b : RawStamp) (bins : Option (List Nat)) (e : TdcEngine) : TdcEngine :=
  match interval bins (a, b) with
  | some x => { e with taken := e.taken + 1, xs := e.xs ++ [x] }
  | none => { e with taken := e.taken + 1, excluded := e.excluded + 1 }

/-- A measurement in progress sees a stamp of a channel (R228): in interval mode the first START_CH edge after a sample opens an interval and
the first STOP_CH edge after it closes it; in period mode each START_CH stamp ends a sample and begins the next. -/
def engineEdge (ch : Nat) (x : RawStamp) (s : State) : State :=
  let e := s.time.engine
  let start := getF fTimeTdcCtlStartCh .timeTdcCtl s
  let stop := getF fTimeTdcCtlStopCh .timeTdcCtl s
  if !s.time.busy || e.taken ≥ getF fTimeTdcCtlCountM1 .timeTdcCtl s + 1 then s
  else
    let put := fun e => { s with time := { s.time with engine := e } }
    if getF fTimeTdcCtlMode .timeTdcCtl s = 1 then
      if ch ≠ start then s
      else match e.opened with
        | none => put { e with opened := some x }
        | some a => put { takeSample a x s.time.bins e with opened := some x }
    else match e.opened with
      | none => if ch = start then put { e with opened := some x } else s
      | some a => if ch = stop then put { takeSample a x s.time.bins e with opened := none } else s

/-- A measurement in progress uses a channel (R228). -/
def engineUses (ch : Nat) (s : State) : Bool :=
  s.time.busy && (ch = getF fTimeTdcCtlStartCh .timeTdcCtl s ||
    (getF fTimeTdcCtlMode .timeTdcCtl s = 0 && ch = getF fTimeTdcCtlStopCh .timeTdcCtl s))

/-- Fewer than 5 ns lie between two stamps of a channel (R223), in units of 2^-8 ps, modulo the wraps of the count. -/
def tooSoon (last : Option Nat) (v : Nat) : Bool :=
  match last with
  | some l => (v + 2 ^ 48 * 160000 - l) % (2 ^ 48 * 160000) < 1280000
  | none => false

/-- An edge on a TDC channel (R223, R228, R235): counted by its prescaler; past it, one within 5 ns of the last stamp is dropped and
MISSED, any other is stamped, given to the measurement and offered to the queue where its channel is enabled. -/
def tdcEdge (ch : Nat) (x : RawStamp) (s : State) : State :=
  let k := storeGet (fun _ => 0) s.time.presc ch + 1
  if k < prescaler ch s then { s with time := { s.time with presc := storeSet (fun _ => 0) s.time.presc ch k } }
  else
    let n := storeGet (fun _ => 0) s.time.edges ch + 1
    let v := (rawValue s.time.bins x).toNat
    let s1 := { s with time := { s.time with presc := storeSet (fun _ => 0) s.time.presc ch 0,
                                             edges := storeSet (fun _ => 0) s.time.edges ch n } }
    if tooSoon (storeGet (fun _ => none) s.time.lastStamp ch) v then
      (if engineUses ch s then { s1 with time := { s1.time with missed := true } } else s1)
    else
      let s2 := engineEdge ch x { s1 with time := { s1.time with lastStamp := storeSet (fun _ => none) s1.time.lastStamp ch (some v) } }
      if bitOf (getF fTimeTsqCfgChEn .timeTsqCfg s) ch then tsqOffer (stampTime x s) n ch 0 s2 else s2

/-- The TDC channel of a source (Table 09-8). -/
def tdcChannel : TdcSource → Nat
  | .refA => 3
  | .refB => 4
  | .crystal => 5
  | .pcs _ => 15
  | .general => 15

/-- An edge on channel 3, 4, 5 or 15; of the PCS clock the stamps feed the fit of R234. -/
def tdcArrive (a : TdcArrival) (s : State) : State :=
  let s := tdcEdge (tdcChannel a.source) a.stamp s
  match a.source with
  | .pcs c => { s with time := { s.time with pcs := ((c, rawValue s.time.bins a.stamp) :: s.time.pcs).take 2 } }
  | _ => s

/-- 3 × the rms of the residuals in ps, rounded up. -/
def rms3 (rs : List Int) : Nat :=
  match rs with
  | [] => 0
  | _ => isqrtFrom 128 (9 * ((rs.map fun r => (r * r).toNat).foldl (· + ·) 0) / rs.length) 0 + 1

/-- The servo takes an offset in units of 2^-32 ns (R214): a step beyond 100 µs, else a new ADJ within ±100 ppm whose value the
spec leaves to the loop (free, log 14). E is then the larger of 150 ps and 3 rms, plus the source's declared uncertainty (free). -/
def servoUpdate (th : Int) (s : State) : State :=
  let s0 := { s with time := { s.time with holdover := false, everSet := true } }
  let ps := divRound (th * 1000) (2 ^ 32)
  if th.natAbs > 100000 * 2 ^ 32 then
    let (u, s0) := freeNat s0
    updateTimeq (raise .timeStepped none 0 0
      (setLocalQ (localQ s - th) { s0 with time := { s0.time with residuals := [], e := (150 + u) * 400000 } }))
  else
    let (a, s1) := freeNat s0
    let (u, s2) := freeNat s1
    let rs := (ps :: s.time.residuals).take 16
    let s3 := setF fTimeRateAdj .timeRate (unsignedOf 32 (clampInt (-1073741) 1073741 (signedOf 32 a))) s2
    updateTimeq { s3 with time := { s3.time with residuals := rs, e := (max 150 (rms3 rs) + u) * 400000 } }

/-- The part of a time beyond the nearest second boundary, signed. -/
def offSecond (q : Int) : Int :=
  let r := q % (secUnits : Int)
  if 2 * r > (secUnits : Int) then r - secUnits else r

/-- PPS_IN_EDGE (R230): stamped on channel 0, accepted or ignored, as within 0.5 s of the last accepted edge by the TDC's own count; an
accepted edge applies a step that waits for PPS, or gives the servo its offset. -/
def ppsInEdge (x : RawStamp) (s : State) : State :=
  let q := stampTime x s
  let v := (rawValue s.time.bins x).toNat
  let s := tdcEdge 0 x s
  let early := match s.time.ppsLast with | some l => (v + 2 ^ 48 * 160000 - l) % (2 ^ 48 * 160000) < 128000000000000 | none => false
  let delay : Int := signedOf 32 (getF fTimePpsCfgDelay .timePpsCfg s) * 2 ^ 32 / 1000
  let th := offSecond (q - delay)
  let win := max 1 (getF fTimePpsCfgWin .timePpsCfg s) * 1000 * 2 ^ 32
  if early || (s.time.ppsLocked && th.natAbs > win) then s
  else
    let s1 := { s with time := { s.time with ppsLast := some v } }
    if getF fTimeCtlStep .timeCtl s1 = 1 && getF fTimeCtlStepAtPps .timeCtl s1 = 1 then loadStep s1
    else if timeSource s1 = 1 then
      servoUpdate th { s1 with time := { s1.time with ppsLocked := th.natAbs ≤ 100000 * 2 ^ 32 } }
    else s1

/-- PPS_IN_EDGE (R230). -/
def execPpsInEdge (stamp : RawStamp) (s : State) : Host.Outcome State Fault Refusal := act (ppsInEdge stamp) s

/-- TIME_PPS_LOST (R230): three expected edges in a row were not accepted. -/
def execTimePpsLost (s : State) : Host.Outcome State Fault Refusal :=
  act (fun s => raise .timePpsLost none 0 0 { s with time := { s.time with ppsLocked := false } }) s

/-- The time source is lost (R215): time holdover begins with TIME_RATE as it stands. -/
def loseSource (s : State) : State :=
  if timeSource s = 3 || s.time.holdover then s
  else raise .timeSourceLost none 0 0 { s with time := { s.time with holdover := true } }

/-- TIME_SOURCE_LOST (R215). -/
def execTimeSourceLost (s : State) : Host.Outcome State Fault Refusal := act loseSource s

/-- The tolerance and its inner edge in units of 2^-8 ppb. -/
def refTol (s : State) : Nat × Nat :=
  let t := getF fTimeRefCfgTol .timeRefCfg s
  (t * 256, (t - getF fTimeRefCfgHyst .timeRefCfg s) * 256)

/-- The crystal's correction y_corr of R222 in units of 2^-8 ppb, the days counted from the start of holdover; in FREE the AGEING term alone,
from reset on (R221). -/
def yCorr (s : State) : Int :=
  let days : Int := if s.time.pll = 3 then (s.tick - s.time.heldAt : Nat) else if s.time.pll = 0 then (s.tick : Int) else 0
  signedOf 24 (getF fTimeXoCfgYLast .timeXoCfg s) +
    signedOf 16 (getF fTimeXoCfgAgeing .timeXoCfg s) * days / (86400 * 400000000)

/-- The offsets of the references a gate is judged by (R219), from their offsets to the crystal. -/
def gateOffsets (g : RefGate) (s : State) : Option Int × Option Int :=
  let a := if getF fTimeRefCfgEnA .timeRefCfg s = 1 then g.offA else none
  let b := if getF fTimeRefCfgEnB .timeRefCfg s = 1 then g.offB else none
  let corr := fun x : Int => x + yCorr s
  let agrees := fun x : Int => (corr x).natAbs ≤ (refTol s).1
  match a, b with
  | some x, some y => (some (if agrees y then x - y else corr x), some (if agrees x then y - x else corr y))
  | x, y => (x.map corr, y.map corr)

/-- One gate of one reference (R219): its new state, and the event it raises. -/
def judgeRef (on : Bool) (y : Option Int) (r : RefMon) (s : State) : RefMon × Option Event :=
  match on, y with
  | false, _ => (⟨0, 0, 0, 0⟩, none)
  | true, none => (if r.qual = 0 then r else { r with qual := 1, beyond := 0, good := 0 }, none)
  | true, some y =>
    let beyond := if y.natAbs > (refTol s).1 then r.beyond + 1 else 0
    let good := if y.natAbs < (refTol s).2 then r.good + 1 else 0
    let q := if r.qual = 0 then 1 else r.qual
    if q ≠ 1 && beyond ≥ getF fTimeRefCfgDwell .timeRefCfg s then (⟨1, 0, good, y⟩, some .timeRefOutTol)
    else if q ≠ 3 && good ≥ getF fTimeRefCfgReturn .timeRefCfg s then (⟨3, beyond, 0, y⟩, some .timeRefGood)
    else if q = 3 && beyond > 0 then (⟨2, beyond, good, y⟩, none)
    else (⟨q, beyond, good, y⟩, none)

/-- The source the root PLL follows (R220, R221): 0 FREE, 1 A, 2 B, 3 the crystal in HOLDOVER. A crystal is calibrated once AGEING was written
or loaded from the Ledger (log 152). -/
def pllNext (s : State) : Nat :=
  let q := fun n : Nat => if n = 1 then s.time.refA.qual else s.time.refB.qual
  let prim := 1 + getF fTimeRefCfgPrimary .timeRefCfg s
  let other := 3 - prim
  let cur := s.time.pll
  let keep := (cur = 1 || cur = 2) && q cur ≥ 2
  if keep && !(cur = other && getF fTimeRefCfgRevert .timeRefCfg s = 1 && q prim = 3) then cur
  else if q prim = 3 then prim
  else if q other = 3 then other
  else if s.time.everRef || s.time.xoCal then 3 else 0

/-- The offset the PLL applies as it moves to a source (R221, R222): the reference's measured one, or the crystal's correction. -/
def sourceOffset (n : Nat) (s : State) : Int :=
  match n with | 1 => s.time.refA.off | 2 => s.time.refB.off | _ => yCorr s

/-- TIME_REF_SWITCH (R220): a change of source raises its event and starts the 10 s settle. -/
def refSwitch (s : State) : State :=
  let n := pllNext s
  if n = s.time.pll then s
  else
    let s1 := { s with time := { s.time with pll := n, pllOff := sourceOffset n s, settling := true, everRef := s.time.everRef || n = 1 || n = 2,
                                             heldAt := if n = 3 then s.tick else s.time.heldAt } }
    updateTimeq (raise (if n = 3 then .timeHoldover else .timeRefSwitch) none (arg0 n 0 0) 0 s1)

/-- Y_LAST follows the crystal's offset from the reference in use while it is GOOD (R222). -/
def trackCrystal (g : RefGate) (s : State) : State :=
  let x := if s.time.pll = 1 && s.time.refA.qual = 3 then g.offA
    else if s.time.pll = 2 && s.time.refB.qual = 3 then g.offB else none
  match x with
  | some y => setF fTimeXoCfgYLast .timeXoCfg (unsignedOf 24 (saturate 24 (-y))) s
  | none => s

/-- The event a gate raised for reference `n` (0 A, 1 B). -/
def refEvent (e : Option Event) (n : Nat) (s : State) : State :=
  match e with | some e => raise e none (arg0 n 0 0) 0 s | none => s

/-- REF_GATE_END (R219). -/
def refGateEnd (g : RefGate) (s : State) : State :=
  let (ya, yb) := gateOffsets g s
  let (a, ea) := judgeRef (getF fTimeRefCfgEnA .timeRefCfg s = 1) ya s.time.refA s
  let (b, eb) := judgeRef (getF fTimeRefCfgEnB .timeRefCfg s = 1) yb s.time.refB s
  let s1 := { s with time := { s.time with refA := a, refB := b } }
  refSwitch (trackCrystal g (refEvent eb 1 (refEvent ea 0 (g.edges.foldl (fun s a => tdcArrive a s) s1))))

/-- REF_GATE_END (R219). -/
def execRefGateEnd (gate : RefGate) (s : State) : Host.Outcome State Fault Refusal := act (refGateEnd gate) s

/-- TIME_REF_LOST (R220): a reference that stopped or strayed is OUT at once, one that was OUT among them; an absent one cannot stop. -/
def timeRefLost (r : RefInput) (s : State) : State :=
  match r with
  | .a => if getF fTimeRefCfgEnA .timeRefCfg s = 0 || s.time.refA.qual = 0 then s
    else refSwitch (raise .timeRefLost none (arg0 0 0 0) 0 { s with time := { s.time with refA := ⟨1, 0, 0, s.time.refA.off⟩ } })
  | .b => if getF fTimeRefCfgEnB .timeRefCfg s = 0 || s.time.refB.qual = 0 then s
    else refSwitch (raise .timeRefLost none (arg0 1 0 0) 0 { s with time := { s.time with refB := ⟨1, 0, 0, s.time.refB.off⟩ } })

/-- TIME_REF_LOST (R220). -/
def execTimeRefLost (ref : RefInput) (s : State) : Host.Outcome State Fault Refusal := act (timeRefLost ref) s

/-- REF_SETTLE_END (R220): the 10 s settle is over. -/
def execRefSettleEnd (s : State) : Host.Outcome State Fault Refusal :=
  act (fun s => updateTimeq { s with time := { s.time with settling := false } }) s

/-- A write of TIME_REF_CFG, stored under the limits of Table 09-5; a reference disabled is absent. -/
def timeRefCfgWrite (v : Payload) (s : State) : State :=
  let tol := max 1 (fld fTimeRefCfgTol v)
  let hyst := fld fTimeRefCfgHyst v
  let w := setFld fTimeRefCfgTol tol (setFld fTimeRefCfgHyst (if hyst ≥ tol then tol - 1 else hyst)
    (setFld fTimeRefCfgDwell (max 1 (fld fTimeRefCfgDwell v)) (setFld fTimeRefCfgReturn (max 1 (fld fTimeRefCfgReturn v))
      (v &&& (BitVec.ofNat 48 0xFFFFFFFFFC)))))
  let s := setReg .timeRefCfg w s
  let a : RefMon := if fld fTimeRefCfgEnA w = 1 then s.time.refA else ⟨0, 0, 0, 0⟩
  let b : RefMon := if fld fTimeRefCfgEnB w = 1 then s.time.refB else ⟨0, 0, 0, 0⟩
  refSwitch { s with time := { s.time with refA := a, refB := b } }

/-- A calibration begins, or waits while a measurement runs (R227, R228). -/
def tdcCalBegin (s : State) : State :=
  if s.time.busy then { s with time := { s.time with calPending := true } }
  else { s with time := { s.time with calBusy := true, calPending := false } }

/-- GO (R228): a measurement starts, or is refused for its MODE (Table 09-9). -/
def tdcStart (s : State) : State :=
  if getF fTimeTdcCtlMode .timeTdcCtl s ≥ 2 then raise .timeTdcBadCfg none 0 0 s
  else { s with time := { s.time with
    busy := true, done := false, missed := false, used := 0, ovf := 0, engine := ⟨0, [], 0, none⟩ } }

/-- A write of TIME_TDC_CTL: its fields, then GO, then CAL (Table 09-9). -/
def timeTdcCtlWrite (v : Payload) (s : State) : State :=
  let w := setFld fTimeTdcCtlCalExtra (min 4 (fld fTimeTdcCtlCalExtra v)) (setFld fTimeTdcCtlCal 0 (setFld fTimeTdcCtlGo 0 v))
  let s := setReg .timeTdcCtl (w &&& BitVec.ofNat 48 0xFFFFFFFFFFF8) s
  let s := if fld fTimeTdcCtlGo v = 1 then tdcStart s else s
  if fld fTimeTdcCtlCal v = 1 then tdcCalBegin s else s

/-- TDC_CAL_REQUEST (R227). -/
def execTdcCalRequest (m : Master) (value : Payload) (s : State) : Host.Outcome State Fault Refusal :=
  actBy m (timeTdcCtlWrite value) s

/-- TDC_GO (R228). -/
def execTdcGo (m : Master) (value : Payload) (s : State) : Host.Outcome State Fault Refusal :=
  actBy m (timeTdcCtlWrite value) s

/-- The rounding remainder given to the first of the widest bins (R226). -/
def giveWidest (ws : List Nat) : List Nat :=
  let total := ws.foldl (· + ·) 0
  let m := ws.foldl max 0
  let i := (ws.findIdx? (· = m)).getD 0
  ws.set i (m + 160000 - total)

/-- Bin widths from a histogram of H edges (R226). -/
def binWidths (hits : List Nat) (h : Nat) : List Nat := giveWidest (hits.map fun x => (2 * 160000 * x + h) / (2 * h))

/-- TDC_CAL_DONE (R226, R227): the table is replaced, or the calibration fails and the old table stands. -/
def tdcCalDone (hits : List Nat) (s : State) : State :=
  if !s.time.calBusy then s
  else
    let h := 2 ^ (20 + getF fTimeTdcCtlCalExtra .timeTdcCtl s)
    let ws := binWidths hits h
    let s1 := { s with time := { s.time with calBusy := false, calTemp := s.therm.sensors.getD 22 0, calEver := true } }
    if hits.any (· = 0) || ws.any (· > 2500) then raise .timeTdcCalFail none 0 0 s1
    else updateTimeq (raise .timeTdcCalDone none 0 0 { s1 with time := { s1.time with bins := some ws } })

/-- TDC_CAL_DONE (R227); the histogram has 256 bins that hold H hits in all. -/
def execTdcCalDone (hits : List Nat) (s : State) : Host.Outcome State Fault Refusal :=
  if hits.length ≠ 256 || hits.foldl (· + ·) 0 ≠ 2 ^ (20 + getF fTimeTdcCtlCalExtra .timeTdcCtl s) then .fault .malformed
  else act (tdcCalDone hits) s

/-- A result in its _LO and _HI registers (R229). -/
def setResult (i : Nat) (v : Int) (s : State) : State :=
  let u := unsignedOf 80 v
  setReg (.timeTdcResult (Fin.ofNat 8 (2 * i + 1))) (BitVec.ofNat 48 (u / 2 ^ 48))
    (setReg (.timeTdcResult (Fin.ofNat 8 (2 * i))) (BitVec.ofNat 48 u) s)

/-- MEAN, SDEV, MIN and MAX of the included samples (R228); no value is stated when none is included (free). -/
def tdcResults (xs : List Int) (s : State) : State :=
  match xs with
  | [] =>
    let (a, s) := freeNat s
    let (b, s) := freeNat s
    let (c, s) := freeNat s
    let (d, s) := freeNat s
    setResult 0 a (setResult 1 b (setResult 2 c (setResult 3 d s)))
  | x :: _ =>
    let n : Int := xs.length
    let sum := xs.foldl (· + ·) 0
    let sq := (xs.map fun x => x * x).foldl (· + ·) 0
    let sd := isqrtFrom 128 (n * sq - sum * sum).toNat 0 / xs.length
    setResult 0 (divRound sum n) (setResult 1 sd (setResult 2 (xs.foldl min x) (setResult 3 (xs.foldl max x) s)))

/-- The measurement ends (R228): once COUNT_M1 + 1 samples were taken, their statistics are formed, and a CAL that waited begins. -/
def tdcFinish (s : State) : State :=
  let e := s.time.engine
  if !s.time.busy || e.taken < getF fTimeTdcCtlCountM1 .timeTdcCtl s + 1 then s
  else
    let s1 := { s with time := { s.time with busy := false, done := true, used := e.xs.length, ovf := min 0x7FFF e.excluded } }
    let s2 := raise .timeTdcDone none 0 0 (tdcResults e.xs s1)
    if s2.time.calPending then tdcCalBegin s2 else s2

/-- TDC_MEASURE_DONE (R228): the edges that channels 3, 4, 5 and 15 brought until then are taken, and the measurement ends where that gives
it its last sample. -/
def tdcMeasureDone (edges : List TdcArrival) (s : State) : State := tdcFinish (edges.foldl (fun s a => tdcArrive a s) s)

/-- TDC_MEASURE_DONE (R228). -/
def execTdcMeasureDone (edges : List TdcArrival) (s : State) : Host.Outcome State Fault Refusal := act (tdcMeasureDone edges) s

/-- A POP (R235): the head entry goes; at 128 entries or fewer the next overflow raises its event again (R236). -/
def tsqPop (v : Payload) (s : State) : State :=
  if fld fTimeTsqPopPop v = 0 then s
  else
    let q := s.time.tsq.drop 1
    { s with time := { s.time with tsq := q, overflowed := s.time.overflowed && q.length > 128 } }

/-- TIME_TSQ_POP (R235). -/
def execTimeTsqPop (m : Master) (value : Payload) (s : State) : Host.Outcome State Fault Refusal := actBy m (tsqPop value) s

/-- A write of TIME_TSQ_CFG: enables, and DROPS cleared by CLR_DROPS (R236). -/
def timeTsqCfgWrite (v : Payload) (s : State) : State :=
  let s := setF fTimeTsqCfgPtpEn .timeTsqCfg (fld fTimeTsqCfgPtpEn v) (setF fTimeTsqCfgChEn .timeTsqCfg (fld fTimeTsqCfgChEn v) s)
  if fld fTimeTsqCfgClrDrops v = 1 then { s with time := { s.time with drops := 0 } } else s

/-- TSQ_CLR_DROPS (R236). -/
def execTsqClrDrops (m : Master) (value : Payload) (s : State) : Host.Outcome State Fault Refusal :=
  actBy m (timeTsqCfgWrite value) s

/-- PPS_OUT_PULSE (R231): a pulse of 100 µs unless it is off or gated, or the pins are held (R414), stamped on channel 14; the servo sets the delay line (free). -/
def ppsOutPulse (x : RawStamp) (s : State) : State :=
  if !pinsLive s || getF fTimePpsCfgOutEn .timePpsCfg s = 0 || (getF fTimePpsCfgOutGate .timePpsCfg s = 1 && s.hif.timeq) then s
  else
    let (d, s) := freeNat (emit (.pulse 1 100000) s)
    tdcEdge 14 x { s with time := { s.time with ppsDelay := d % 256 } }

/-- PPS_OUT_PULSE (R231). -/
def execPpsOutPulse (stamp : RawStamp) (s : State) : Host.Outcome State Fault Refusal := act (ppsOutPulse stamp) s

/-- SYNC_OUT_PULSE (R415): 100 ns high at each local 8 s boundary. -/
def execSyncOutPulse (s : State) : Host.Outcome State Fault Refusal := act (pulse 2 100) s

/-- SYNC_IN_EDGE (R415): stamped on channel 2, with no other effect. -/
def execSyncInEdge (stamp : RawStamp) (s : State) : Host.Outcome State Fault Refusal := act (tdcEdge 2 stamp) s

end Sys2Proof.Machine
end

