-- ==== Sys2Proof/Machine/BellOps.lean ====
section
/-!
DEFINITION. The Bell network's shared operations: records and their queues, roles, epochs and fences, headers and slot bodies.
-/
namespace Sys2Proof.Machine

/-- TCLK cycles of a Bell frame: 102,400 ns (R240). -/
def frameTicks : Nat := 40960

/-- A level of the Bell network: 0 parish, 1 trunk. -/
def ringNo (r : BellRing) : Nat := match r with | .parish => 0 | .trunk => 1

/-- The ring of a level. -/
def ringSt (k : Nat) (s : State) : BellRingSt := s.bell.rings.getD k BellRingSt.idle

/-- The state with a level's ring changed. -/
def onRing (k : Nat) (f : BellRingSt → BellRingSt) (s : State) : State :=
  { s with bell := { s.bell with rings := s.bell.rings.set k (f (ringSt k s)) } }

/-- A Bell lane's link. -/
def linkSt (l : Nat) (s : State) : BellLink := s.bell.links.getD l BellLink.idle

/-- The state with a lane's link changed. -/
def onLink (l : Nat) (f : BellLink → BellLink) (s : State) : State :=
  { s with bell := { s.bell with links := s.bell.links.set l (f (linkSt l s)) } }

/-- This unit is a bridge (R237). -/
def isBridge (s : State) : Bool := fld fBellCfgBridge s.bell.eff = 1

/-- A level this unit takes part in: every unit its parish, a bridge the trunk too; on other units lanes 2 and 3 carry no Bell traffic
(R237). -/
def onLevel (k : Nat) (s : State) : Bool := k = 0 || isBridge s

/-- The slot a unit transmits in on a level: UNIT_ID[6:0] in the parish, UNIT_ID[13:7] on the trunk (R238). -/
def ownSlot (k : Nat) (s : State) : Nat := if k = 0 then unitId s % 128 else unitId s / 128

/-- Where a level's member of a unit ID is kept. -/
def memberKey (k u : Nat) : Nat := k * 16384 + u

/-- A level has this unit as its master. -/
def isMaster (k : Nat) (s : State) : Bool := (ringSt k s).state = 4

/-- L_in of a lane in units of 2^-8 ps (R248): the mean of the last measurements, 0 before the first. -/
def linkDelay (l : Nat) (s : State) : Int :=
  match (linkSt l s).delays with
  | [] => 0
  | ds => ds.foldl (· + ·) 0 / ds.length

/-- The lane a frame received on a lane is sent on (R237). -/
def onward (l : Nat) : Nat := if l % 2 = 0 then l + 1 else l - 1

/-- The direction of a frame received on a lane: 0 clockwise, 1 counter-clockwise (R237). -/
def dirOf (l : Nat) : Nat := l % 2

/-- A body and its CRC-32 (R242). -/
def withCrc (bs : List Byte) : List Byte := bs ++ beBytes 4 (crc32 bs)

/-- The CRC-32 at the end of a body is right. -/
def crcGood (bs : List Byte) : Bool :=
  4 ≤ bs.length && beAt bs (bs.length - 4) 4 = crc32 (bs.take (bs.length - 4))

/-- Send a header, or the body of a slot, on a Bell lane that is ACTIVE; no other carries it (R279). -/
def bellSend (l : Nat) (slot : Option Nat) (bs : List Byte) (s : State) : State :=
  if getF fLaneBellStatusState (.laneBellStatus (Fin.ofNat 4 l)) s = 4 then
    let (xs, s) := lineSend (64 + l) bs s
    emit (.bell l slot bs xs) s
  else s

/-- The priority rank of a record in a queue: FIRE first, MSG last (R250). -/
def recType (r : List Byte) : Nat := (r.headD 0).toNat

/-- Put a record in a queue of capacity `cap`; when it overflows, the newest record of the lowest-ranking type present goes
(R250). Answers the queue and the type dropped. -/
def queuePut (cap : Nat) (q : List (List Byte)) (r : List Byte) : List (List Byte) × Option Nat :=
  let q := q ++ [r]
  if q.length ≤ cap then (q, none)
  else
    let low := (q.map recType).foldl max 0
    let rest := q.reverse
    let i := (rest.findIdx? fun x => recType x = low).getD 0
    ((rest.eraseIdx i).reverse, some low)

/-- Capacity of queue `i`: 0 parish slot, 1 trunk slot, 2 parish relay, 3 trunk relay. -/
def queueCap (i : Nat) : Nat := if i < 2 then 1024 else 4096

/-- Queue a record, counting a drop (R250). -/
def queueRec (i : Nat) (r : List Byte) (s : State) : State :=
  let (q, d) := queuePut (queueCap i) (s.bell.queues.getD i []) r
  let s1 := { s with bell := { s.bell with queues := s.bell.queues.set i q } }
  match d with
  | none => s1
  | some t => let s2 := bump .bellQueueDrop 1 s1
    if t ≤ 2 then raise .bellQueueDrop none (arg0 t 0 0) 0 s2 else s2

/-- Take up to `n` records of a queue in the order of R250: by type, oldest first. -/
def takeRecs (i n : Nat) (s : State) : List (List Byte) × State :=
  let q := s.bell.queues.getD i []
  let sorted := (List.range 256).flatMap fun t => q.filter fun r => recType r = t
  let out := sorted.take n
  (out, { s with bell := { s.bell with queues := s.bell.queues.set i (sorted.drop n) } })

/-- ORIGIN and RSEQ of a record (Table 10-5). -/
def recOrigin (r : List Byte) : Nat := beAt r 1 2 % 16384

/-- RSEQ of a record. -/
def recSeq (r : List Byte) : Nat := beAt r 3 3

/-- A record seen within the last second (R246). -/
def recSeen (r : List Byte) (s : State) : Bool :=
  s.bell.seen.any fun x => x.1 = recOrigin r && x.2.1 = recSeq r && s.tick < x.2.2 + 400000000

/-- A record marked seen, and records seen longer ago forgotten. -/
def markSeen (r : List Byte) (s : State) : State :=
  { s with bell := { s.bell with seen := (recOrigin r, recSeq r, s.tick) :: (s.bell.seen.filter fun x => s.tick < x.2.2 + 400000000) } }

/-- Originate a record of a type with its 26 bytes: it takes the next RSEQ and waits for this unit's slots (R244, R250, R265). -/
def originate (typ : Nat) (body : List Byte) (s : State) : State :=
  let r := beBytes 1 typ ++ beBytes 2 (unitId s) ++ beBytes 3 s.bell.rseq ++ body
  let s := { s with bell := { s.bell with rseq := wrap 24 (s.bell.rseq + 1) } }
  let s := queueRec 0 r (markSeen r s)
  if isBridge s then queueRec 1 r s else s

/-- The rank of a FIRE record among fires of one trigger (R175): the fire time, then the firing unit, then the beam. -/
def fireRank (r : List Byte) : Nat := ((beAt r 8 8 * 256 + beAt r 16 1) * 16384 + recOrigin r) * 1024 + beAt r 18 2 / 64

/-- BRIDGE_COPY (R249): a bridge copies a record received first on one level into its queue for the other level, but not a FIRE
when it copied one of the same TRIGGER_ID that ranks earlier or equal within the last 10 ms. -/
def bridgeCopy (level : Nat) (r : List Byte) (s : State) : State :=
  if !isBridge s then s
  else
    let fire := recType r = 1
    let id := beAt r 6 2
    let recent := s.bell.copied.filter fun x => s.tick < x.2.2 + 4000000
    if fire && recent.any (fun x => x.1 = id && x.2.1 ≤ fireRank r) then s
    else
      let s := if fire then { s with bell := { s.bell with copied := (id, fireRank r, s.tick) :: recent } } else s
      if level = 0 then queueRec 1 r s else if isMaster 0 s then queueRec 2 r s else queueRec 0 r s

/-- A record of a defined type whose reserved fields are zero (R244). -/
def recRsvdOk (r : List Byte) : Bool :=
  beAt r 1 2 < 16384 &&
  match recType r with
  | 1 => beAt r 17 1 % 8 = 0 && beAt r 18 2 % 64 = 0 && beAt r 20 2 < 16384 && beAt r 26 6 = 0
  | 2 => beAt r 27 1 % 16 = 0
  | 3 => !bitOf (beAt r 12 2) 14 && beAt r 14 1 < 8 && beAt r 15 17 = 0
  | 4 => beAt r 6 2 < 16384 && beAt r 17 15 = 0
  | 5 => beAt r 28 4 = 0
  | _ => true

/-- A record received on a lane of a level of this unit: discarded for a reserved field, dropped as a duplicate, or marked seen, relayed
by a master and copied by a bridge, and then used (R237, R244, R246, R249). -/
def receiveRec (lane typ : Nat) (r : List Byte) (use : State → State) (s : State) : State :=
  if !onLevel (lane / 2) s || recType r ≠ typ || !recRsvdOk r then s
  else if recSeen r s then bump .bellDup 1 s
  else
    let level := lane / 2
    let s := markSeen r s
    let s := if isMaster level s then queueRec (2 + level) r s else s
    use (bridgeCopy level r s)

/-- The known record of a role (R260). -/
def roleKnown (r : Nat) (s : State) : Option RoleRec := storeGet (fun _ => none) s.bell.roles r

/-- The role and epoch of a partition (BELL_ROLE_p). -/
def roleIdOf (p : Fin 8) (s : State) : Nat := getF fBellRoleRoleId (.bellRole p) s

/-- A partition holds a role: its ROLE_ID and EPOCH are not both 0. -/
def holdsRole (p : Fin 8) (s : State) : Bool := regOf (.bellRole p) s ≠ 0

/-- BELL_FENCE's bits changed, and ATTN.FENCE with them (R262 to R264). -/
def setFence (fenced pending : Nat) (s : State) : State :=
  noteAttn s (setF fBellFencePending .bellFence pending (setF fBellFenceFenced .bellFence fenced s))

/-- Bit `p` of a mask set or cleared. -/
def maskBit (m p : Nat) (on : Bool) : Nat := putBits m p p (if on then 1 else 0)

/-- The partitions that hold a role other than 0. -/
def holdersOf (r : Nat) (s : State) : List (Fin 8) :=
  (List.finRange 8).filter fun p => holdsRole p s && roleIdOf p s = r

/-- BELL_FENCED (R262): the partition is fenced, by a role at an epoch; of two epochs the higher stands. -/
def fencePart (p : Fin 8) (r epoch : Nat) (s : State) : State :=
  let f := getF fBellFenceFenced .bellFence s
  let old := storeGet (fun _ => (0, 0)) s.bell.fencedAt p.val
  let by' := if bitOf f p.val then (old.1, if old.1 = r then max old.2 epoch else old.2) else (r, epoch)
  let s1 := setFence (maskBit f p.val true) (maskBit (getF fBellFencePending .bellFence s) p.val false)
    { s with bell := { s.bell with fencedAt := storeSet (fun _ => (0, 0)) s.bell.fencedAt p.val by' } }
  if bitOf f p.val then s1 else raise .bellFenced (some p) (arg0 r p.val 0) 0 s1

/-- A partition reopens (R263, R264). -/
def reopenPart (p : Fin 8) (s : State) : State :=
  setFence (maskBit (getF fBellFenceFenced .bellFence s) p.val false)
    (maskBit (getF fBellFencePending .bellFence s) p.val false) s

/-- The record kept of a role names this unit at an epoch. -/
def namedAt (r epoch : Nat) (s : State) : Bool :=
  match roleKnown r s with
  | some k => k.epoch = epoch && k.holder = unitId s && !k.vacant
  | none => false

/-- A fenced partition that the host stops reopens (R264); a role that the record kept gives to another is held no longer (R260). -/
def reopenStopped (p : Fin 8) (s : State) : State :=
  let s1 := setFence (maskBit (getF fBellFenceFenced .bellFence s) p.val false) (getF fBellFencePending .bellFence s) s
  if namedAt (roleIdOf p s) (roleEpoch p s) s then s1 else setReg (.bellRole p) 0 s1

/-- This unit is trigger master no longer (R262): role 0 fences no partition, but ATTN.FENCE and BELL_FENCED show it. -/
def loseMaster (epoch : Nat) (s : State) : State :=
  if s.bell.role0.isNone then s
  else raise .bellFenced none 0 0 (noteAttn s { s with bell := { s.bell with role0 := none, fence0 := some epoch } })

/-- A partition that holds the role of a record (R262, R263): fence-pending, it reopens if the record names it at its own epoch, and is
fenced otherwise; else a higher epoch of another holder fences it. -/
def roleAt (r : Nat) (x : RoleRec) (mine : Bool) (p : Fin 8) (s : State) : State :=
  if bitOf (getF fBellFencePending .bellFence s) p.val then
    if mine && roleEpoch p s = x.epoch && x.part = p.val then reopenPart p s else fencePart p r x.epoch s
  else if x.epoch > roleEpoch p s && !mine then fencePart p r x.epoch s
  else s

/-- This unit takes a role for a partition (R259); a partition fenced by the same role at a lower epoch reopens (R264). -/
def takeRole (r epoch : Nat) (p : Fin 8) (s : State) : State :=
  let s := { s with bell := { s.bell with heldOnce := if r ∈ s.bell.heldOnce then s.bell.heldOnce else r :: s.bell.heldOnce } }
  if r = 0 then
    match s.bell.fence0 with
    | none => { s with bell := { s.bell with role0 := some epoch } }
    | some e => if epoch ≤ e then s else noteAttn s { s with bell := { s.bell with role0 := some epoch, fence0 := none } }
  else
    let s := (holdersOf r s).foldl (fun s q => if q = p then s else setReg (.bellRole q) 0 s) s
    let s := setReg (.bellRole p) (BitVec.ofNat 48 (r * 2 ^ 32 + epoch)) s
    let by' := storeGet (fun _ => (0, 0)) s.bell.fencedAt p.val
    if bitOf (getF fBellFenceFenced .bellFence s) p.val && by'.1 = r && by'.2 < epoch then reopenPart p s else s

/-- This unit holds a role at an epoch now: the record kept names it (R260), and no fence of its partition stands. -/
def holdsAt (r epoch : Nat) (s : State) : Bool :=
  if r = 0 then s.bell.role0 = some epoch && namedAt 0 epoch s
  else namedAt r epoch s &&
    (holdersOf r s).any fun p => roleEpoch p s = epoch && !bitOf (getF fBellFenceFenced .bellFence s) p.val

/-- A stale record dropped (R260). -/
def staleDrop (r : Nat) (s : State) : State := raise .bellStaleDrop none (arg0 r 0 0) 0 (bump .bellStale 1 s)

/-- Units that hold a role at an epoch which another record of that epoch gives to another fence it (R260). -/
def roleConflict (r epoch : Nat) (s : State) : State :=
  let s := raise .bellRoleConflict none (arg0 r 0 0) 0 s
  if r = 0 then (if s.bell.role0 = some epoch then loseMaster epoch s else s)
  else (holdersOf r s).foldl (fun s p => if roleEpoch p s = epoch then fencePart p r epoch s else s) s

/-- A role record against the known epoch (R260, R262 to R264). -/
def applyRole (r : Nat) (x : RoleRec) (s : State) : State :=
  let mine := !x.vacant && x.holder = unitId s
  let stale := match roleKnown r s with | none => false | some k => x.epoch < k.epoch
  let other := match roleKnown r s with | none => false | some k => x.epoch = k.epoch && (x.holder ≠ k.holder || x.vacant ≠ k.vacant)
  if stale then staleDrop r s
  else if other then roleConflict r x.epoch s
  else
    let s := { s with bell := { s.bell with roles := storeSet (fun _ => none) s.bell.roles r (some x) } }
    let s := (holdersOf r s).foldl (fun s p => roleAt r x mine p s) s
    let s := if r = 0 && !mine then loseMaster x.epoch s else s
    if mine then takeRole r x.epoch (Fin.ofNat 8 x.part) s else s

/-- The record of a ROLE (Table 10-5). -/
def roleBody (r : Nat) (x : RoleRec) : List Byte :=
  beBytes 2 r ++ beBytes 4 x.epoch ++ beBytes 2 ((if x.vacant then 32768 else 0) + x.holder) ++ beBytes 1 x.part ++ beBytes 17 0

/-- ROLE_ASSIGN's effect (R259): the authority keeps the assignment, sends it at once, and applies it itself. -/
def assignRole (r : Nat) (x : RoleRec) (s : State) : State :=
  let s := { s with bell := { s.bell with assigned := (r, x) :: s.bell.assigned.filter fun a => a.1 ≠ r } }
  applyRole r x (originate 3 (roleBody r x) s)

/-- E that a TQ code encodes, in units of 2.5 × 10^-6 ps, rounded up (R212, R254). -/
def errorOf (tq : Nat) : Nat :=
  let x := 400000 ^ 8 * 2 ^ (if tq = 0 then 256 else 255 - tq)
  isqrtFrom 64 (isqrtFrom 128 (isqrtFrom 256 x 0) 0) 0 + 1

/-- The frame a unit is in by its local time (R240). -/
def frameNow (s : State) : Nat := localQ s / (102400 * 2 ^ 32)

/-- PRIO of this unit's claims: 0 for bridges (R251). -/
def claimPrio (s : State) : Nat := if isBridge s then 0 else 1

/-- The unit whose time source steers the system, as a header of a level names it (R254): the trunk's master where this unit is a
member of the trunk, else itself. -/
def grandmaster (level : Nat) (s : State) : Nat :=
  if level = 0 && isBridge s && (ringSt 1 s).state = 3 then (ringSt 1 s).masterId else unitId s

/-- The header this unit launches as a master or a claimant (Table 10-3). -/
def ownHeader (typ level dir : Nat) (recs : List (List Byte)) (s : State) : List Byte :=
  let n := frameNow s
  let ns := n * 102400
  withCrc (beBytes 1 (typ * 16 + level * 8 + dir * 4 + getF fBellCfgRate .bellCfg s) ++ beBytes 1 0 ++
    beBytes 2 (claimPrio s * 16384 + unitId s) ++ beBytes 2 (grandmaster level s) ++ beBytes 1 (tqLocal s) ++
    beBytes 1 ((if (ringSt level s).brk then 128 else 0) + recs.length) ++ beBytes 5 n ++ beBytes 1 0 ++
    beBytes 6 (ns / 1000000000) ++ beBytes 4 (ns % 1000000000) ++ beBytes 8 0 ++ beBytes 6 0 ++ beBytes 2 (unitId s) ++
    beBytes 8 0 ++ recs.flatten)

/-- Records a slot holds at the ring's rate (Table 10-1). -/
def slotCapacity (s : State) : Nat := 6 * 2 ^ getF fBellCfgRate .bellCfg s

/-- The smaller slot margin of a ring's two directions (R256). -/
def ringMargin (level : Nat) (s : State) : Int :=
  min (s.bell.margins.getD (2 * level) 10000) (s.bell.margins.getD (2 * level + 1) 10000)

/-- The slot body of this unit on a level (Table 10-4). -/
def slotBody (level : Nat) (recs : List (List Byte)) (s : State) : List Byte :=
  let a := (linkSt (2 * level) s).turn
  let b := (linkSt (2 * level + 1) s).turn
  let margin := unsignedOf 16 (ringMargin level s)
  withCrc (beBytes 2 (unitId s) ++
    beBytes 1 ((if isBridge s then 128 else 0) + fld fBellCfgAuth s.bell.eff * 64 + recs.length) ++ beBytes 1 (tqLocal s) ++
    beBytes 4 s.bell.hbSeq ++ beBytes 1 a.1 ++ beBytes 1 b.1 ++ beBytes 5 a.2 ++ beBytes 5 b.2 ++ beBytes 2 margin ++
    beBytes 2 0 ++ recs.flatten)

/-- A marker sent on a lane: stamped on its TDC channel, kept for R248, and the turnaround of the last arrival reported. -/
def noteSend (l frame : Nat) (raw : Int) (s : State) : State :=
  onLink l (fun k =>
    { k with sends := ((frame % 256, raw) :: k.sends).take 256,
             turn := match k.arrived with | some (f, t) => (f, unsignedOf 40 (raw - t)) | none => k.turn,
             arrived := none }) s

/-- A measurement of L joins the last 256 (R248); a link beyond 2.0 µs is taken down. -/
def noteDelay (l : Nat) (d : Int) (s : State) : State :=
  let s1 := onLink l (fun k => { k with delays := (d :: k.delays).take 256 }) s
  let n := (linkSt l s1).delays.length
  let r := Reg.bellLink (Fin.ofNat 4 l)
  let s2 := setF fBellLinkDelay r (linkDelay l s1).toNat (setF fBellLinkValid r (if n = 256 then 1 else 0) s1)
  if linkDelay l s2 > 512000000 && n = 256 then
    raise .bellLinkLong none (arg0 l 0 0) (linkDelay l s2).toNat
      (laneEnter (64 + l) 0 s2)
  else s2

/-- BELL_STATUS shows the parish ring, its smaller margin, and the lanes that carry valid frames (Table 10-8). -/
def showBell (s : State) : State :=
  let r := ringSt 0 s
  let up := fun k => (if (ringSt k s).missing.getD 0 3 < 3 then 1 else 0) + (if (ringSt k s).missing.getD 1 3 < 3 then 2 else 0)
  let st := if s.bell.muted then 5 else r.state
  let s := setF fBellStatusState .bellStatus st (setF fBellStatusMasterId .bellStatus r.masterId s)
  let s := setF fBellStatusBreak .bellStatus (if r.brk then 1 else 0) (setF fBellStatusLinksUp .bellStatus (up 0) s)
  setF fBellStatusTrunkUp .bellStatus (up 1) (setF fBellStatusMargin .bellStatus (unsignedOf 16 (ringMargin 0 s)) s)

end Sys2Proof.Machine
end

