-- ==== Sys2Proof/Machine/Ingress.lean ====
section
/-!
DEFINITION. Ingress: the input map, the Thresher, the frame checks, and the placing of granules (R40 to R61).
-/
namespace Sys2Proof.Machine

/-- Fields of a 16 B table entry held as a number. -/
def entryF (hi lo e : Nat) : Nat := bitsOf e hi lo

/-- CHECK of a 16 B entry is the CRC-8 of its bytes 0 to 14 (R52). -/
def checkOk (e : Nat) : Bool := crc8 (leBytes 15 e) = bitsOf e 127 120

/-- The RSVD fields of an input map entry are zero (Table 02-3). -/
def mapRsvdOk (e : Nat) : Bool :=
  bitsOf e 119 112 = 0 && bitsOf e 63 48 = 0 && bitsOf e 23 20 = 0 && bitsOf e 7 5 = 0

/-- The mark a stored entry carries, above its 128 bits, while its SRAM word holds an uncorrectable error (Table 13-4). -/
def entryPoisoned (e : Nat) : Bool := bitOf e 128

/-- An input map entry is torn: GEN_A and GEN_B differ or CHECK is wrong (R51), or its word is uncorrectable (Table 13-4). -/
def mapTorn (e : Nat) : Bool := bitsOf e 47 32 ≠ bitsOf e 111 96 || !checkOk e || entryPoisoned e

/-- The RSVD fields of a threshold set are zero (Table 02-5). -/
def thrRsvdOk (e : Nat) : Bool := bitsOf e 63 48 = 0 && bitsOf e 7 5 = 0

/-- A threshold set is torn (R56), or its word is uncorrectable (Table 13-4). -/
def thrTorn (e : Nat) : Bool := bitsOf e 47 32 ≠ bitsOf e 119 104 || !checkOk e || entryPoisoned e

/-- A valid entry that passes every check of R51 but the conflict of its SLOT. -/
def mapSound (n e : Nat) : Bool := bitOf e 0 && !mapTorn e && mapRsvdOk e && bitsOf e 19 8 < n

/-- The sound entries of a cache, in rising order of input: an unlisted input is unmapped. -/
def soundEntries (n : Nat) (cache : Store Nat) : List (Nat × Nat) := cache.filter fun kv => mapSound n kv.2

/-- An input's entry is usable: sound, and no sound entry of lower index names its SLOT (R51). -/
def mapUsable (n : Nat) (cache : Store Nat) (i : Nat) : Bool :=
  let e := storeGet (fun _ => 0) cache i
  mapSound n e && (soundEntries n cache).all fun kv => i ≤ kv.1 || bitsOf kv.2 19 8 ≠ bitsOf e 19 8

/-- What the entry of an input says. -/
def slotMapOf (i e : Nat) : SlotMap :=
  { input := i, slot := bitsOf e 19 8, forceFlag := bitOf e 4, captEn := bitOf e 3, beamEn := bitOf e 2, corrEn := bitOf e 1,
    label := bitsOf e 95 64, thr := bitsOf e 31 24 }

/-- The slots a staging copy uses: the usable entries of the cache, in order of input. -/
def copySlots (n : Nat) (cache : Store Nat) : List SlotMap :=
  (soundEntries n cache).foldl (fun l kv => if l.any fun m => m.slot = bitsOf kv.2 19 8 then l else l ++ [slotMapOf kv.1 kv.2]) []

/-- A threshold set is in use: VALID, and not usable when torn or with RSVD set (R56). -/
def thrUnusable (e : Nat) : Bool := bitOf e 0 && (thrTorn e || !thrRsvdOk e)

/-- The Thresher's flag on a granule as it arrives: PEAK, POW and clamp comparisons (Table 02-5). -/
def thrFlag (e peak pow : Nat) (clamped : Bool) : Bool :=
  bitOf e 0 && ((bitOf e 1 && peak > bitsOf e 31 16) || (bitOf e 2 && pow > bitsOf e 83 64) || (bitOf e 4 && clamped))

/-- The clamp of R45 on one component of `n` bits. -/
def clampOne (n : Nat) (x : Int) : Int := if x = -(2 ^ (n - 1)) then x + 1 else x

/-- I² + Q² of a sample. -/
def power (x : Int × Int) : Nat := (x.1 * x.1 + x.2 * x.2).toNat

/-- PEAK of a granule. -/
def peakOf (xs : List (Int × Int)) : Nat := xs.foldl (fun m x => max m (power x)) 0

/-- POW of a granule. -/
def powOf (xs : List (Int × Int)) : Nat := xs.foldl (fun m x => m + power x) 0

/-- A granule as staging stores it: the statistics and the flag conditions known at its arrival (R57). -/
def makeGran (m : SlotMap) (thr : Nat) (pk : Parked) : Gran :=
  let peak := peakOf pk.samples
  let pow := powOf pk.samples
  { samples := pk.samples, peak := peak, pow := pow, clamped := pk.clamped,
    flag := m.forceFlag || pk.upflag || pk.tqLow || thrUnusable thr || thrFlag thr peak pow pk.clamped }

/-- Components of a granule the clamp replaced are counted when the granule is stored (R45): each at most twice 16. -/
def clampCount (raw : List (Int × Int)) (n : Nat) : Nat :=
  raw.foldl (fun c x => c + (if x.1 = -(2 ^ (n - 1)) then 1 else 0) + (if x.2 = -(2 ^ (n - 1)) then 1 else 0)) 0

/-- The batches of ordinals `ords` of a configuration. -/
def newBatch (c : PartCfg) (ord : Nat) : Batch :=
  { ord := ord, chan := c.chanFirst + ord % c.chanCount, sub := ord / c.chanCount, grans := [], ready := false, firstAt := none,
    withheld := false, harvested := false, verified := [], suspect := [], weights := [], marks := [],
    synthesised := false, beamsSent := [], sums := [] }

/-- The pending configuration that changes staging next, with the first sub-integration of its switch batch (R77). -/
def Part.switchAt (x : Part) : Option (Epoch × Nat) :=
  match x.pending with
  | [] => none
  | e :: _ => some (e, x.firstSubOf e.effInt)

/-- The points at which accepted configurations come into force for the partition: the first sample of each one's first batch, and
whether it changes staging (R77, R423). -/
def Part.pointsFrom (x : Part) : List Epoch → PartCfg → Anchor → List (Nat × Bool × Epoch)
  | [], _, _ => []
  | e :: es, c, pa =>
    let sub := firstSubUnder (x.cfgOf pa.epoch).nInt 0 pa e.effInt
    let st := stagingChange c e.cfg
    (sub * c.t, st, e) :: x.pointsFrom es e.cfg ⟨e.serial, e.effInt, if st then ceilDiv (sub * c.t) e.cfg.t else sub⟩

/-- The points still to come. -/
def Part.points (x : Part) : List (Nat × Bool × Epoch) := x.pointsFrom x.pending x.cfg x.partAnchor

/-- The first sample of the switch batch of a configuration that changes staging, and that configuration (R42, R77). -/
def Part.switchSample (x : Part) : Option (Nat × Epoch) :=
  (x.points.find? fun z => z.2.1).map fun z => (z.1, z.2.2)

/-- The switch that samples at counter `t` follow, the last at or before them, with its first sample; none before the next. -/
def Part.switchFor (x : Part) (t : Nat) : Option (Nat × Epoch) :=
  ((x.points.filter fun z => z.2.1 && decide (z.1 ≤ t)).getLast?).map fun z => (z.1, z.2.2)

/-- The configuration samples at counter `t` belong to (R42). -/
def Part.cfgAt (x : Part) (t : Nat) : PartCfg :=
  match (x.points.filter fun z => z.1 ≤ t).getLast? with
  | some z => z.2.2.cfg
  | none => x.cfg

/-- The serial number of the configuration that last changes staging before sample `t`, under which its batch has its ordinal. -/
def Part.stageAt (x : Part) (t : Nat) : Nat :=
  match x.switchFor t with
  | some z => z.2.serial
  | none => x.stage

/-- Store a granule in a batch of the filling copy; its statistics are formed now (R57). -/
def placeInBatch (p : Fin 8) (c : Copy) (b : Batch) (m : SlotMap) (pk : Parked) (s : State) : State :=
  let x := partOf p s
  let g := makeGran m (storeGet (fun _ => 0) x.thrCache m.thr) pk
  let key := m.slot * 4096 + (pk.sample % x.cfg.t) / 16
  let b' := { b with grans := storeSet (fun _ => none) b.grans key (some g), firstAt := some (b.firstAt.getD s.tick) }
  let s := setPart p { x with fill := some (c.onBatch b.ord fun _ => b') } s
  captureGranule p b.chan m.slot pk.sample g s

/-- Bytes of the lookahead store in use by every partition, each granule of its own configuration's width (R49). -/
def parkedBytes (s : State) : Nat :=
  (List.range 8).foldl (fun n q =>
    let x := partOf (Fin.ofNat 8 q) s
    x.parked.foldl (fun n pk => n + 16 * (x.cfgAt pk.sample).bytes) n) 0

/-- Bytes by which the lookahead store's writes are ahead of their allotment of 40 GB/s, 100 bytes a tick (R49). -/
def parkDebt (s : State) : Nat := s.hbm.parkDebt.1 - 100 * (s.tick - s.hbm.parkDebt.2)

/-- `n` bytes are written to the lookahead store. -/
def parkWritten (n : Nat) (s : State) : State := { s with hbm := { s.hbm with parkDebt := (parkDebt s + n, s.tick) } }

/-- The copy of group ⌊q/G⌋ opens for filling (R46, R74, R76): ordinals from `first` up to the group's end, cut at the switch
batch of a configuration that changes staging (R77). -/
def groupOrds (x : Part) (first : Nat) : List Nat :=
  let g := x.cfg.g
  let last := x.groupBase + ((first - x.groupBase) / g + 1) * g
  let last := match x.switchSample with
    | some (z, _) => min last (z / x.cfg.t * x.cfg.chanCount)
    | none => last
  (List.range (last - first)).map (first + ·)

/-- Whether a parked granule belongs to ordinal `q` of the configuration in force. -/
def Parked.ord (pk : Parked) (c : PartCfg) : Nat := c.ordOf pk.chan (pk.sample / c.t)

/-- Granules of the lookahead store that belong to the opening copy are copied in; an unmapped one is discarded and counted
(R46, R51). -/
def copyIn (p : Fin 8) (s : State) : State :=
  let x := partOf p s
  match x.fill with
  | none => s
  | some c =>
    let mine := x.parked.filter fun pk => x.cfg.hasChan pk.chan && pk.ord x.cfg ∈ c.ords
    let late := x.parked.filter fun pk => !(x.cfgAt pk.sample).hasChan pk.chan ||
      (match x.switchSample with | some (z, _) => pk.sample < z | none => true) && x.cfg.hasChan pk.chan && pk.ord x.cfg < x.firstOpen
    let s := setPart p { x with parked := x.parked.filter fun pk => !(pk ∈ mine) && !(pk ∈ late) } s
    let s := bump (.ingLate p) late.length s
    mine.foldl (fun s pk =>
      let x := partOf p s
      match x.fill with
      | none => s
      | some c =>
        match c.batch (pk.ord x.cfg), c.slots.find? fun m => m.input = pk.input with
        | some b, some m => placeInBatch p c b m pk s
        | _, _ => bump (.ingUnmapped p) 16 s) s

/-- Open the filling copy at ordinal `first` with the cached input map, and copy in its parked granules (R46). -/
def openFill (p : Fin 8) (first : Nat) (s : State) : State :=
  let x := partOf p s
  let ords := groupOrds x first
  let slots := copySlots x.cfg.inputs x.cache
  let c : Copy :=
    { epoch := x.serial, batches := ords.map (newBatch x.cfg), slots := slots, ords := ords, deadline := 0,
      tiles := [], shares := [], finished := false, place := (x.regionAt, x.cfg.region),
      tap := regOf .stwThrTap s }
  let s := setPart p { x with fill := some c, nextOrd := some (first + ords.length) } s
  let s := (ords.filter fun q => q % x.cfg.chanCount = 0).foldl (fun s q => subNotify p (q / x.cfg.chanCount) s) s
  copyIn p (captureOpen p (first / x.cfg.chanCount * x.cfg.t) (((first + ords.length - 1) / x.cfg.chanCount + 1) * x.cfg.t) slots s)

/-- The oldest open batch of a partition that is not yet marked ready, in ordinal order, becomes ready to close (R46, R49, log 144). -/
def readyOldest (p : Fin 8) (s : State) : State :=
  let x := partOf p s
  match x.fill with
  | none => s
  | some c =>
    match c.ords.find? fun q => !((x.stage, q) ∈ x.readyOrds) with
    | none => s
    | some q => setPart p { x with readyOrds := x.readyOrds ++ [(x.stage, q)] } s

/-- 2 ms after the first granule of a batch arrived, in its buffer or parked for the configuration its samples belong to, it becomes ready
to close (R46): the oldest of that ordinal not yet marked. -/
def windowExpire (p : Fin 8) (ord : Nat) (s : State) : State :=
  let x := partOf p s
  let open_ := match x.fill with | some c => c.batches.any fun b => b.ord = ord && b.firstAt.isSome | none => false
  let keys := (if open_ then [(x.stage, ord)] else []) ++
    (x.parked.filter fun pk => (pk.ord (x.cfgAt pk.sample)) = ord).map fun pk => (x.stageAt pk.sample, ord)
  match keys.find? fun k => !(k ∈ x.readyOrds) with
  | none => s
  | some k => setPart p { x with readyOrds := x.readyOrds ++ [k] } s

/-- BATCH_WINDOW_EXPIRE (R46). -/
def execBatchWindowExpire (p : Fin 8) (ord : Nat) (s : State) : Host.Outcome State Fault Refusal :=
  act (windowExpire p ord) s

/-- A write of ING_TABLE_INVAL marks entries for rereading at the next buffer boundary of their partition (R54, Table 02-4). -/
def tableInval (v : Payload) (s : State) : State :=
  let i := fld fIngTableInvalIndex v
  if fld fIngTableInvalTable v = 0 then
    onPart (Fin.ofNat 8 (fld fIngTableInvalPart v)) (fun x =>
      if fld fIngTableInvalAll v = 1 then { x with stale := List.range 4096 }
      else { x with stale := if i ∈ x.stale then x.stale else x.stale ++ [i] }) s
  else if fld fIngTableInvalAll v = 1 then
    (List.range 8).foldl (fun s q => onPart (Fin.ofNat 8 q) (fun x => { x with thrStale := List.range 256 }) s) s
  else if i < 256 then
    (List.range 8).foldl (fun s q => onPart (Fin.ofNat 8 q) (fun x =>
      { x with thrStale := if i ∈ x.thrStale then x.thrStale else x.thrStale ++ [i] }) s) s
  else s

/-- ING_TABLE_INVAL (R54). -/
def execIngTableInval (m : Master) (value : Payload) (s : State) : Host.Outcome State Fault Refusal :=
  actBy m (tableInval value) s

end Sys2Proof.Machine
end

