-- ==== Sys2Proof/Machine/TableOps.lean ====
section
/-!
DEFINITION. Which table entry governs a batch: table writes wait for their integration (R55, R301, R423). Beam and chain entries.
-/
namespace Sys2Proof.Machine

/-- The integration from which a pending entry governs a channel: EFF_INT, or the earliest the channel had not begun (R301). -/
def PendingEntry.effAt (e : PendingEntry) (x : Part) (chan : Nat) : Nat :=
  match x.begunAt e.ordAt chan with
  | none => e.eff
  | some i => max e.eff (i + 1)

/-- A pending entry governs integration `int` of a channel: it is at or past EFF_INT and was not begun at the acceptance. -/
def PendingEntry.governs (e : PendingEntry) (x : Part) (chan int : Nat) : Bool :=
  e.effAt x chan ≤ int

/-- The entry of a per-channel table that governs a channel's integration: the one that came into force last, else the stored. One whose
descriptor named another partition than the one that reads it is in force for it at once, the model's choice (log 149). -/
def entryFor (table i : Nat) (p : Fin 8) (chan int : Nat) (s : State) : Nat :=
  let x := partOf p s
  let l := s.tabPending.filter fun e => e.table = table && e.index = i && (e.part ≠ p || e.governs x chan int)
  match (sortBy (fun e : PendingEntry => if e.part = p then e.effAt x chan else 0) l).getLast? with
  | some e => e.entry
  | none => tabGet table 0 i s

/-- An entry of a per-channel table in force: the one that governs what the lowest channel of its partition has begun, and came into
force last, else the stored. -/
def entryNow (table i : Nat) (s : State) : Nat :=
  let inForce := fun e : PendingEntry =>
    let x := partOf e.part s
    match x.begunOf x.cfg.chanFirst with | none => false | some int => e.governs x x.cfg.chanFirst int
  let l := s.tabPending.filter fun e => e.table = table && e.index = i && inForce e
  match (sortBy (fun e : PendingEntry => e.effAt (partOf e.part s) (partOf e.part s).cfg.chanFirst) l).getLast? with
  | some e => e.entry
  | none => tabGet table 0 i s

/-- The beams of a partition for a channel's integration, in ascending number (R121). -/
def beamsFor (p : Fin 8) (chan int : Nat) (s : State) : List (Nat × BeamCtl) :=
  (List.range 1024).filterMap fun b =>
    let c := decodeBeam (entryFor 4 b p chan int s)
    if c.valid && c.part = p.val then some (b, c) else none

/-- The beams of a partition as admission counts them. -/
def beamsLast (p : Fin 8) (s : State) : List (Nat × BeamCtl) :=
  (List.range 1024).filterMap fun b =>
    let c := decodeBeam (entryLast 4 b s)
    if c.valid && c.part = p.val then some (b, c) else none

/-- Input lanes R and beam-pol lanes C of a B-work shape (Table 05-1). -/
def bLanes (bshape : Nat) : Nat × Nat :=
  match bshape with | 0 => (2048, 1) | 1 => (1024, 2) | _ => (512, 4)

/-- f of R122: 2 when any beam of the partition uses fine weights. R122 gives f for each kind of weight only; that in a partition that mixes
them every beam's tasks run two passes is the model's choice (log 148). -/
def fineFactor (beams : List (Nat × BeamCtl)) : Nat := if beams.any fun b => b.2.fine then 2 else 1

/-- B tasks of a batch (R121, R122). -/
def bCount (c : PartCfg) (beams : List (Nat × BeamCtl)) : Nat :=
  let rc := bLanes c.bshape
  fineFactor beams * 2 * ceilDiv beams.length rc.2 * ceilDiv (ceilDiv c.inputs 2) rc.1

/-- The B tasks of one beam group: those at index `X + ...` of the batch that hold beam position `n` of the partition's beams. -/
def bTasksOf (c : PartCfg) (beams : List (Nat × BeamCtl)) (n : Nat) : List Nat :=
  let rc := bLanes c.bshape
  let f := fineFactor beams
  let ng := ceilDiv (ceilDiv c.inputs 2) rc.1
  let nbg := ceilDiv beams.length rc.2
  (List.range 2).flatMap fun pol => (List.range (ng * f)).map fun k => c.xCount + (pol * nbg + n / rc.2) * (ng * f) + k

/-- Tasks of a batch: X, then B (R79). -/
def taskCount (c : PartCfg) (beams : List (Nat × BeamCtl)) : Nat := c.xCount + bCount c beams

/-- The beams of a copy's batch. -/
def Copy.beams (cp : Copy) (p : Fin 8) (b : Batch) (s : State) : List (Nat × BeamCtl) :=
  beamsFor p b.chan ((partOf p s).intOf cp.epoch b.chan b.sub) s

/-- A batch is classified: withheld, or every segment of every task of it has passed verification (R75). -/
def classified (p : Fin 8) (cp : Copy) (b : Batch) (s : State) : Bool :=
  let c := (partOf p s).cfgOf cp.epoch
  b.withheld || ((List.range (taskCount c (cp.beams p b s))).all fun k => storeGet (fun _ => 0) b.verified k ≥ c.segs)

/-- The largest R × M of an order (Table 06-2). -/
def ratioLimit (order : Nat) : Nat := match order with | 3 => 65536 | 4 => 4096 | _ => 776

/-- L of R148: the inputs one output depends on. -/
def ChainEntry.span (c : ChainEntry) : Nat := c.order * (c.ratio * c.dm - 1) + 1

end Sys2Proof.Machine
end

