-- ==== Sys2Proof/Machine/HarvestOps.lean ====
section
/-!
DEFINITION. The Granary: records, channel states, exact weights, rounding in COMPACT, and the dump of a channel (R91 to R109,
R114 to R116, R201).
-/
namespace Sys2Proof.Machine

/-- Where the Granary keeps record `v` of a channel of a partition (R92). -/
def granaryKey (p : Fin 8) (chan v : Nat) : Nat := (p.val * 16384 + chan) * 2 ^ 24 + v

/-- A Granary record. -/
def granaryGet (p : Fin 8) (chan v : Nat) (s : State) : GranRec := storeGet (fun _ => ⟨0, 0, 0, false⟩) s.granary (granaryKey p chan v)

/-- The state with a Granary record stored. -/
def granarySet (p : Fin 8) (chan v : Nat) (r : GranRec) (s : State) : State :=
  { s with granary := storeSet (fun _ => ⟨0, 0, 0, false⟩) s.granary (granaryKey p chan v) r }

/-- A channel's state: none when the channel holds no integration (R94). -/
def chanOf (p : Fin 8) (chan : Nat) (s : State) : Option ChanState := storeGet (fun _ => none) s.chans (p.val * 16384 + chan)

/-- The state with a channel's state stored. -/
def setChan (p : Fin 8) (chan : Nat) (c : Option ChanState) (s : State) : State :=
  { s with chans := storeSet (fun _ => none) s.chans (p.val * 16384 + chan) c }

/-- The mixing function of R99. -/
def mix64 (z : Nat) : Nat :=
  let z1 := (Nat.xor z (z / 2 ^ 30) * 0xBF58476D1CE4E5B9) % 2 ^ 64
  let z2 := (Nat.xor z1 (z1 / 2 ^ 27) * 0x94D049BB133111EB) % 2 ^ 64
  Nat.xor z2 (z2 / 2 ^ 31)

/-- The 64-bit random value of a record's update (R99): u_re in bits [23:0], u_im in bits [47:24]. -/
def roundKey (chan v int sub : Nat) : Nat :=
  mix64 (Nat.xor (mix64 (chan * 2 ^ 24 + v)) ((int % 2 ^ 40) * 2 ^ 24 + sub))

/-- Store the integer `x` as binary32 by the stochastic rounding of R98 with random value `u`; the running value stays an integer. -/
def roundCompact (x : Int) (u : Nat) : Int :=
  let m := x.natAbs
  if m < 2 ^ 24 then x
  else
    let ulp := 2 ^ (log2Floor m - 23)
    let a := m / ulp * ulp
    let f := (m - a) * 2 ^ 24 / ulp
    let r := if u < f then a + ulp else a
    if x < 0 then -(r : Int) else (r : Int)

/-- The binary32 encoding of an integer that binary32 represents; zero is +0 (R98). -/
def toBinary32 (x : Int) : Nat :=
  if x = 0 then 0
  else
    let m := x.natAbs
    let e := log2Floor m
    let frac := if e ≤ 23 then m * 2 ^ (23 - e) else m / 2 ^ (e - 23)
    (if x < 0 then 2 ^ 31 else 0) + (e + 127) * 2 ^ 23 + frac % 2 ^ 23

/-- The weight of an auto: 16 × (n_g − F_i) (R96). -/
def autoWeight (ng fi : Nat) : Nat := 16 * (ng - fi)

/-- The weight of a pair and whether it is a lower bound, WSAT (R96, R97). -/
def pairWeight (ng fi fj common joint : Nat) : Nat × Bool :=
  if joint ≥ 65535 then
    if fi = ng || fj = ng then (0, false)
    else (16 * (ng + common + 65535 - fi - fj), true)
  else (16 * (ng + common + joint - fi - fj), false)

/-- F_i of a channel's set. -/
def ChanState.f (c : ChanState) (i : Nat) : Nat := storeGet (fun _ => 0) c.fCount i

/-- One finished record as it leaves: its bytes, and whether it carries WSAT (R96, R116). -/
def recordBytes (cfg : PartCfg) (c : ChanState) (swept : Bool) (r : GranRec) (i j : Nat) : List Byte × Bool :=
  let ng := c.nsub * cfg.grans
  let w := if i = j then (autoWeight ng (c.f i), false) else pairWeight ng (c.f i) (c.f j) c.common r.joint
  let st := (if w.2 then 1 else 0) + (if c.nsub < cfg.nInt then 2 else 0) + (if swept then 4 else 0) +
    (if cfg.taskOf i j ∈ c.suspect then 8 else 0)
  let sums := if cfg.compact then beBytes 4 (toBinary32 r.re) ++ beBytes 4 (toBinary32 r.im)
    else beBytes 8 (unsignedOf 64 r.re) ++ beBytes 8 (unsignedOf 64 r.im)
  (sums ++ beBytes 8 (w.1 % 2 ^ 48 * 2 ^ 16 + st), w.2)

/-- The visibility type header (Table 04-8). -/
def visHeader (cfg : PartCfg) (chan : Nat) (c : ChanState) (runs : Nat) : List Byte :=
  beBytes 2 ((if cfg.compact then 2 ^ 15 else 0) + chan) ++ beBytes 2 runs ++ beBytes 4 c.nsub ++ beBytes 8 (c.int % 2 ^ 56) ++
  beBytes 8 c.sampleStart ++ beBytes 4 cfg.nInt ++ beBytes 2 (cfg.t % 65536) ++ beBytes 2 0

/-- A run header (Table 04-8). -/
def runHeader (j first count : Nat) : List Byte := beBytes 8 (j * 2 ^ 52 + first * 2 ^ 40 + count * 2 ^ 27)

/-- Cut a list of row inputs into runs of consecutive ones, at most `n` long. -/
def runsOf (n : Nat) : List Nat → List (List Nat)
  | [] => []
  | i :: is =>
    match runsOf n is with
    | [] => [[i]]
    | r :: rs => if (r.head? = some (i + 1)) && r.length < n then (i :: r) :: rs else [i] :: r :: rs

/-- One column of a dump: the runs of its records that are not poisoned, a packet each (R115, R201). -/
def dumpColumn (p : Fin 8) (chan j : Nat) (cfg : PartCfg) (c : ChanState) (swept : Bool) (s : State) : State :=
  let bytes := if cfg.compact then 16 else 24
  let per := max 1 (((routeOf cfg.visRoute s).mtu - 72) / bytes)
  let rec0 := fun i => granaryGet p chan (j * (j + 1) / 2 + i) s
  let ok := (List.range (j + 1)).filter fun i => !(rec0 i).poisoned
  let s := if ok.length < j + 1 then setWithheld s else s
  (runsOf per ok).foldl (fun s run =>
    let recs := run.map fun i => recordBytes cfg c swept (rec0 i) i j
    let sats := (recs.filter fun r => r.2).length
    let s := if sats = 0 then s else bump (.accWsat p) sats s
    sendProduct p 0x01 cfg.visRoute (visHeader cfg chan c 1 ++ runHeader j (run.headD 0) run.length ++ recs.flatMap (·.1)) s) s

/-- The WSAT records of a dump (R97). -/
def satRecords (p : Fin 8) (chan : Nat) (cfg : PartCfg) (c : ChanState) (swept : Bool) (s : State) : Nat :=
  (List.range cfg.inputs).foldl (fun n j =>
    let rec0 := fun i => granaryGet p chan (j * (j + 1) / 2 + i) s
    n + ((List.range (j + 1)).filter fun i => !(rec0 i).poisoned && (recordBytes cfg c swept (rec0 i) i j).2).length) 0

/-- ACC_WEIGHT_SAT, once per channel per integration, with the number of WSAT records (R97, R338, log 46). -/
def noteSat (p : Fin 8) (chan sats : Nat) (s : State) : State :=
  match chanOf p chan s with
  | some st => if sats = 0 || st.satRaised then s else
      raise .accWeightSat (some p) (arg0 chan p.val 0) sats (setChan p chan (some { st with satRaised := true }) s)
  | none => s

/-- Dump a channel's finished set: every record with its exact weight, column by column (R96, R106, R107, R115). -/
def dumpChannel (p : Fin 8) (chan : Nat) (swept : Bool) (s : State) : State :=
  match chanOf p chan s with
  | none => s
  | some c =>
    let cfg := (partOf p s).cfgOf c.epoch
    let sats := satRecords p chan cfg c swept s
    let s := noteSat p chan sats ((List.range cfg.inputs).foldl (fun s j => dumpColumn p chan j cfg c swept s) s)
    let s := if c.nsub < cfg.nInt then bump (.accShort p) 1 s else s
    if c.suspect.isEmpty then s else { s with dep := { s.dep with outage := s.dep.outage ++ [p.val] } }

/-- The records of a channel are cleared: a channel that holds no integration has none (R106, R107). -/
def clearChannel (p : Fin 8) (chan : Nat) (s : State) : State :=
  let lo := granaryKey p chan 0
  setChan p chan none { s with granary := s.granary.filter fun kv => kv.1 < lo || lo + 2 ^ 24 ≤ kv.1 }

/-- The sweep dumps a channel, counts it and leaves it empty (R107). -/
def sweepChannel (p : Fin 8) (chan : Nat) (s : State) : State :=
  match chanOf p chan s with
  | none => s
  | some _ =>
    let s := clearChannel p chan (dumpChannel p chan true s)
    raise .accSweepDump (some p) (arg0 chan p.val 0) 0 (bump (.accSwept p) 1 s)

/-- The partition's pending table entries are written to the tables: its integration numbers end (R105, R301). -/
def settleTables (p : Fin 8) (s : State) : State :=
  let mine := s.tabPending.filter fun e => e.part = p
  let s := { s with tabPending := s.tabPending.filter fun e => e.part ≠ p }
  mine.foldl (fun s e => tabSet e.table e.bank e.index e.entry s) s

/-- After the final copy of a stopped partition is harvested, the sweep dumps every channel and the partition is stopped (R76,
R109); a fenced one reopens (R264). -/
def stopSweep (p : Fin 8) (s : State) : State :=
  let x := partOf p s
  if !s.sys.stopped && x.stopped && x.fill.isNone && x.comp.isNone &&
      ((x.ret.toList ++ x.passed).all fun c => c.batches.all fun b => b.withheld || b.harvested) then
    let held := (s.chans.filter fun kv => kv.1 / 16384 = p.val).map fun kv => kv.1 % 16384
    let s := held.foldl (fun s ch => sweepChannel p ch s) s
    let s := settleTables p s
    let s := setPart p { Part.idle with seqs := x.seqs, bank := x.bank, refSample := x.refSample, cfg := x.cfg } s
    if bitOf (getF fBellFenceFenced .bellFence s) p.val then reopenStopped p s else s
  else s

end Sys2Proof.Machine
end

