-- ==== Sys2Proof/Machine/StewardRings.lean ====
section
/-!
DEFINITION. What the flag reducer and the Thresher tap write to their rings (R93, R103, R362, R363).
-/
namespace Sys2Proof.Machine

/-- ENV of each present granule of one input, over ascending granules from the first present one (the envelope of R56). -/
def envRun (attack decay : Nat) : Option Int → List (Nat × Option Nat) → List (Nat × Int)
  | _, [] => []
  | e, (_, none) :: gs => envRun attack decay e gs
  | none, (g, some p) :: gs => (g, (p : Int)) :: envRun attack decay (some p) gs
  | some e, (g, some p) :: gs =>
    let d : Int := p - e
    let e' := if d > 0 then e + d / 2 ^ attack else e + d / 2 ^ decay
    (g, e') :: envRun attack decay (some e') gs

/-- The POW of every granule of a slot in a batch, absent ones none. -/
def Batch.pows (b : Batch) (grans slot : Nat) : List (Nat × Option Nat) :=
  (List.range grans).map fun g => (g, (storeGet (fun _ => none) b.grans (slot * 4096 + g)).map (·.pow))

/-- The envelope of a slot in a batch under its threshold set. -/
def Batch.envs (b : Batch) (grans slot thr : Nat) : List (Nat × Int) :=
  envRun (bitsOf thr 11 8) (bitsOf thr 15 12) none (b.pows grans slot)

/-- The f_i of a block's slots below N, with the block's slots (R93). -/
def blockF (cp : Copy) (b : Batch) (cfg : PartCfg) (k : Nat) : List (Nat × Nat) :=
  (List.range 64).filterMap fun i => if 64 * k + i < cfg.inputs then some (i, cp.flagCount b cfg.grans (64 * k + i)) else none

/-- Granule `g` is flagged in some slot of block `k` (R103). -/
def blockOr (cp : Copy) (b : Batch) (cfg : PartCfg) (k g : Nat) : Bool :=
  (List.range 64).any fun i => 64 * k + i < cfg.inputs && !cp.xValid b (64 * k + i) g

/-- A flag summary entry (Table 14-8), its 512 bits least significant byte first. -/
def flagSummary (p : Fin 8) (cfg : PartCfg) (cp : Copy) (b : Batch) (k : Nat) : List Byte :=
  let g := cfg.grans
  let u := ceilDiv g 256
  let fs := blockF cp b cfg k
  let fmax := (fs.map (·.2)).foldl max 0
  let slot := ((fs.find? fun x => x.2 = fmax).map (·.1)).getD 0
  let fsum := (fs.map (·.2)).foldl (· + ·) 0
  let pop := ((List.range g).filter fun i => blockOr cp b cfg k i).length
  let map := (List.range (ceilDiv g u)).foldl (fun m i =>
    if (List.range u).any fun j => i * u + j < g && blockOr cp b cfg k (i * u + j) then m + 2 ^ i else m) 0
  leBytes 64 (map * 2 ^ 256 + (b.sub * cfg.t) % 2 ^ 64 * 2 ^ 192 + b.chan * 2 ^ 178 + p.val * 2 ^ 175 + k * 2 ^ 169 + pop * 2 ^ 156 +
    cp.commonCount b g cfg.inputs * 2 ^ 143 + fsum * 2 ^ 124 + fmax * 2 ^ 111 + slot * 2 ^ 105 + g * 2 ^ 92 + u * 2 ^ 87)

/-- FLAG_SUMMARY_WRITE (R362): an entry for each block of 64 slots; one the pace of 512 MB/s does not allow is skipped and counted
(which, the spec leaves to the pacer: log 19). -/
def flagSummaryWrite (p : Fin 8) (cfg : PartCfg) (cp : Copy) (b : Batch) (s : State) : State :=
  (List.range cfg.k).foldl (fun s k =>
    if Config.summarySkipped s.tick (sysRing 0 s).next then bump .stwSumSkip 1 s else ringAppend 0 (flagSummary p cfg cp b k) s) s

/-- A Thresher statistics entry (Table 14-9) of a slot over the present granules of a batch as it arrived. -/
def thresherEntry (cfg : PartCfg) (thr : Store Nat) (cp : Copy) (b : Batch) (slot : Nat) : List Byte :=
  let gs := (List.range cfg.grans).filterMap fun g => storeGet (fun _ => none) b.grans (slot * 4096 + g)
  let t := match cp.slotOf slot with | some m => storeGet (fun _ => 0) thr m.thr | none => 0
  let env := (((b.envs cfg.grans slot t).getLast?).map (·.2)).getD 0
  leBytes 16 (((gs.map (·.pow)).foldl (· + ·) 0) % 2 ^ 32 * 2 ^ 96 + env.toNat % 2 ^ 20 * 2 ^ 76 +
    (gs.map (·.peak)).foldl max 0 * 2 ^ 61 + gs.length * 2 ^ 48 + slot * 2 ^ 36 + b.chan * 2 ^ 22 + b.sub % 2 ^ 22)

/-- THRESHER_TAP_WRITE (R363): one entry per slot of a batch of the tapped channel, at most one batch a millisecond. -/
def thresherTap (p : Fin 8) (cfg : PartCfg) (thr : Store Nat) (cp : Copy) (b _closed : Batch) (s : State) : State :=
  let v := cp.tap
  if fld fStwThrTapEn v = 1 && fld fStwThrTapPart v = p.val && fld fStwThrTapChan v = b.chan then
    let soon : Bool := match s.stw.tapAt with | some t => s.tick < t + 400000 | none => false
    if soon then bump .stwTapSkip 1 s
    else
      (List.range cfg.inputs).foldl (fun s i => ringAppend 2 (thresherEntry cfg thr cp b i) s)
        { s with stw := { s.stw with tapAt := some s.tick } }
  else s

end Sys2Proof.Machine
end

