-- ==== Sys2Proof/Machine/Staging.lean ====
section
/-!
DEFINITION. The rotation of staging regions: closing batches, ENV, zeroing, refreshing the cached tables, switching
configurations, opening the next copy and dealing the Mill (R46 to R58, R74 to R81, R181).
-/
namespace Sys2Proof.Machine

/-- Close a batch (R46, R57, R58): form ENV of every present granule, make its comparison, and zero every flagged granule. -/
def closeGrans (cfg : PartCfg) (thr : Store Nat) (slots : List SlotMap) (b : Batch) : Batch :=
  slots.foldl (fun b m =>
    let t := storeGet (fun _ => 0) thr m.thr
    let envs := b.envs cfg.grans m.slot t
    (List.range cfg.grans).foldl (fun b g =>
      let key := m.slot * 4096 + g
      match storeGet (fun _ => none) b.grans key with
      | none => b
      | some x =>
        let beyond := bitOf t 0 && bitOf t 3 && (envs.any fun ge => ge.1 = g && ge.2 > (bitsOf t 103 84 : Nat))
        let x := { x with flag := x.flag || beyond }
        let x := if x.flag then { x with samples := List.replicate 16 (0, 0) } else x
        { b with grans := storeSet (fun _ => none) b.grans key (some x) }) b) b

/-- Granules a batch expects and does not hold (R47). -/
def absentCount (cfg : PartCfg) (slots : List SlotMap) (b : Batch) : Nat :=
  cfg.grans * slots.length - (slots.foldl (fun n m => n + ((List.range cfg.grans).filter fun g =>
    (storeGet (fun _ => none) b.grans (m.slot * 4096 + g)).isSome).length) 0)

/-- A batch of the filling copy is ready to close (R46). -/
def batchReady (x : Part) (c : Copy) (b : Batch) : Bool :=
  (x.stage, b.ord) ∈ x.readyOrds || absentCount x.cfg c.slots b = 0

/-- The monitor inputs a closing batch gives: POW_g of each valid monitor entry's slot and channel (Table 06-1). -/
def monitorInputs (p : Fin 8) (epoch : Nat) (cfg : PartCfg) (b : Batch) (int : Nat) (s : State) : List MonitorInput :=
  (List.range 64).filterMap fun m =>
    let e := decodeChain (entryFor 5 (1024 + m) p b.chan int s)
    if e.valid && e.monPart = p.val && e.monChan = b.chan then
      some ⟨1024 + m, p, epoch, b.chan, b.sub, int, (b.pows cfg.grans e.monSlot).map (·.2)⟩
    else none

/-- One batch of the filling copy closes at the rotation: events and counts, the capture writer's absent granules and flags, ENV
and zeroing, the flag summary and the Thresher tap, and the monitors' inputs. -/
def closeBatch (p : Fin 8) (c : Copy) (b : Batch) (s : State) : Batch × State :=
  let x := partOf p s
  let cfg := x.cfg
  let absent := absentCount cfg c.slots b
  let b' := closeGrans cfg x.thrCache c.slots b
  let s := captureClose p cfg.t b (fun i g => b'.flagged i g) s
  let s := if absent > 0 then
      raise .ingWindowExpired (some p) (arg0 b.chan p.val 0) absent (bump (.ingShortBatch p) 1 s)
    else s
  let int := x.intOf c.epoch b.chan b.sub
  let s := { s with det := { s.det with monIn := s.det.monIn ++ monitorInputs p c.epoch cfg b int s } }
  let s := flagSummaryWrite p cfg c b' s
  let s := thresherTap p cfg x.thrCache c b b' s
  (b', s)

/-- Close every batch of a copy in order. -/
def closeBatches (p : Fin 8) (c : Copy) : List Batch → State → List Batch × State
  | [], s => ([], s)
  | b :: bs, s =>
    let r := closeBatch p c b s
    let rest := closeBatches p c bs r.2
    (r.1 :: rest.1, rest.2)

/-- Table entries whose integration has come are written for partition `p`, when a copy whose first batch lies in partition
integration `int` opens (R55, R423). -/
def applyEntries (p : Fin 8) (int : Nat) (s : State) : State :=
  let due := sortBy (fun e : PendingEntry => e.eff) (s.tabPending.filter fun e => e.part = p && e.table ≤ 1 && e.eff ≤ int)
  let s := { s with tabPending := s.tabPending.filter fun e => !(e.part = p && e.table ≤ 1 && e.eff ≤ int) }
  due.foldl (fun s e =>
    let s := tabSet e.table 0 e.index e.entry s
    if e.table = 0 then
      onPart p (fun x => { x with stale := x.stale ++ [e.index % 4096] }) s
    else
      (List.range 8).foldl (fun s q => onPart (Fin.ofNat 8 q) (fun x => { x with thrStale := x.thrStale ++ [e.index] }) s) s) s

/-- What is wrong with an entry as a cache of the input map holds it (R51); nothing where it is usable or unmapped. Of an entry that fails
in more than one way the event names one: torn before a bad field, a bad field before a conflict (log 147). -/
def mapFault (n : Nat) (cache : Store Nat) (i : Nat) : Option Event :=
  let e := storeGet (fun _ => 0) cache i
  if !bitOf e 0 && !entryPoisoned e then none
  else if mapTorn e then some .ingTornEntry
  else if !mapRsvdOk e || bitsOf e 19 8 ≥ n then some .ingBadEntry
  else if !mapUsable n cache i then some .ingSlotConflict
  else none

/-- What is wrong with a threshold set as a cache holds it (R56). -/
def thrFault (cache : Store Nat) (i : Nat) : Option Event :=
  let e := storeGet (fun _ => 0) cache i
  if !bitOf e 0 && !entryPoisoned e then none
  else if thrTorn e then some .thrTornEntry
  else if !thrRsvdOk e then some .thrBadEntry
  else none

/-- The event that names an entry's failure, once: not while the cache goes on holding the same bytes failing in the same way (R51,
R55, log 128). -/
def cacheEvent (p : Fin 8) (was fault : Store Nat → Nat → Option Event) (old new : Store Nat) (i : Nat) (s : State) : State :=
  match fault new i with
  | none => s
  | some e =>
    if was old i = some e && storeGet (fun _ => 0) old i = storeGet (fun _ => 0) new i then s
    else raise e (some p) (arg0 i p.val 0) 0 s

/-- The events of every entry of a cache, refreshed from `old` to `new`. -/
def cacheEvents (p : Fin 8) (was fault : Store Nat → Nat → Option Event) (old new : Store Nat) (s : State) : State :=
  (new.map (·.1)).foldl (fun s i => cacheEvent p was fault old new i s) s

/-- At a buffer boundary the partition's cache rereads the entries invalidated or not usable; at an integration boundary all of
them; an entry written through the window without invalidation is read afresh or not, as a free value says (R54, R55). `n` is
N of the copy before. -/
def refreshCache (p : Fin 8) (n : Nat) (flush : Bool) (s : State) : State :=
  let x := partOf p s
  let dirty := x.dirty.filter fun i => !(i ∈ x.stale)
  let picked := dirty.filter fun i => Config.windowSeen s.free i
  let s := if dirty.isEmpty then s else { s with free := s.free + 1 }
  let bad := (x.cache.filter fun kv => bitOf kv.2 0 && !mapUsable x.cfg.inputs x.cache kv.1).map (·.1)
  let ids := if flush then (List.range 4096).filter fun i => tabGet 0 0 (p.val * 4096 + i) s ≠ storeGet (fun _ => 0) x.cache i || i ∈ bad
    else (List.range 4096).filter fun i => i ∈ x.stale || i ∈ picked || i ∈ bad
  let cache := ids.foldl (fun m i => storeSet (fun _ => 0) m i (tabGet 0 0 (p.val * 4096 + i) s)) x.cache
  let tbad := (x.thrCache.filter fun kv => thrUnusable kv.2).map (·.1)
  let tids := (List.range 256).filter fun i => flush || i ∈ x.thrStale || i ∈ tbad
  let thr := tids.foldl (fun m i => storeSet (fun _ => 0) m i (tabGet 1 0 i s)) x.thrCache
  let s := setPart p { x with cache := cache, thrCache := thr, stale := [], thrStale := [],
                              dirty := if flush then [] else x.dirty.filter fun i => !(i ∈ ids) } s
  let s := if x.cache = cache && n = x.cfg.inputs then s
    else cacheEvents p (mapFault n) (mapFault x.cfg.inputs) x.cache cache s
  if x.thrCache = thr then s else cacheEvents p thrFault thrFault x.thrCache thr s

/-- A configuration comes into force for the partition (R77, R109, R423, R424): a staging change restarts the ordinals at the first
sub-integration of the new T, and its groups are counted from there. -/
def Part.takeEpoch (e : Epoch) (sub : Nat) (x : Part) : Part :=
  let y := { x with cfg := e.cfg, serial := e.serial, epochs := e :: x.epochs, pending := x.pending.drop 1,
                    partAnchor := ⟨e.serial, e.effInt, sub⟩ }
  if stagingChange x.cfg e.cfg then
    let sub' := ceilDiv (sub * x.cfg.t) e.cfg.t
    { y with stage := e.serial, nextOrd := some (sub' * e.cfg.chanCount), groupBase := sub' * e.cfg.chanCount,
             oldRegions := x.oldRegions ++ [(0, x.regionAt, x.cfg.region)], partAnchor := ⟨e.serial, e.effInt, sub'⟩,
             readyOrds := x.readyOrds.filter fun k => k.1 ≠ x.stage }
  else y

/-- Configurations whose integration the next ordinal reaches come into force in turn. -/
def switchConfig : Nat → Part → Part
  | 0, x => x
  | n + 1, x =>
    match x.switchAt, x.nextOrd with
    | some (e, sub), some q => if sub * x.cfg.chanCount ≤ q then switchConfig n (x.takeEpoch e sub) else x
    | _, _ => x

/-- The partition at its first granule (R76, R77): the configuration the granule's samples belong to in force, and the ordinals begun at
the group that holds its batch, counted from that configuration's first. -/
def firstGroup : Nat → Parked → Part → Part
  | 0, _, x => x
  | n + 1, pk, x =>
    let q := pk.ord x.cfg
    let y := { x with nextOrd := some (x.groupBase + (q - x.groupBase) / x.cfg.g * x.cfg.g) }
    match x.switchAt with
    | some (e, sub) => if sub * x.cfg.t ≤ pk.sample then firstGroup n pk (y.takeEpoch e sub) else y
    | none => y

/-- Where `len` bytes fit among the taken byte ranges of a space of `size` bytes: the lowest place, which is the model's choice among
the free ones (log 145). -/
def freeIn (size : Nat) (taken : List (Nat × Nat)) (len : Nat) : Option Nat :=
  let starts := 0 :: taken.map fun r => r.1 + r.2
  let ok := starts.filter fun a => a + len ≤ size && taken.all fun r => a + len ≤ r.1 || r.1 + r.2 ≤ a
  match ok with
  | [] => none
  | a :: as => some (as.foldl min a)

/-- Where a region of `len` bytes fits in the 32 MiB buffer (R73). -/
def freeRange (taken : List (Nat × Nat)) (len : Nat) : Option Nat := freeIn 33554432 taken len

/-- Byte ranges of staging regions held by the partitions but `p`: with every old copy still held, and the ranges that accepted
configurations will need (R73, R77). -/
def takenRanges (skip : Option (Fin 8)) (s : State) : List (Nat × Nat) :=
  (List.range 8).flatMap fun q =>
    let x := partOf (Fin.ofNat 8 q) s
    (x.oldRegions.map fun r => (r.2.1, r.2.2)) ++
      (if x.started && skip ≠ some (Fin.ofNat 8 q) then [(x.regionAt, x.cfg.region)] else [])

/-- The region of a partition is placed where a change of configuration puts it: in the range kept for it at the acceptance of a
larger one, else in the old range where it fits, else in a free one (R77). -/
def placeRegion (p : Fin 8) (old : Nat × Nat) (s : State) : State :=
  let x := partOf p s
  match x.oldRegions.find? fun r => r.1 = x.serial with
  | some r => setPart p { x with regionAt := r.2.1, oldRegions := x.oldRegions.filter fun q => q.1 ≠ x.serial } s
  | none =>
    if x.cfg.region ≤ old.2 then setPart p { x with regionAt := old.1 } s
    else setPart p { x with regionAt := (freeRange ((takenRanges (some p) s)) x.cfg.region).getD old.1 } s

/-- Old regions whose copies have all left the retained role are released (R77); those kept for an accepted configuration stay. -/
def releaseOld (x : Part) : Part :=
  { x with oldRegions := x.oldRegions.filter fun r => (x.pending.any fun e => e.serial = r.1) ||
      (x.fill.toList ++ x.comp.toList ++ x.ret.toList).any fun c => c.place = r.2 }

/-- A copy opens for filling with the partition as its configurations leave it (R46, R75): due table entries apply, the cache refreshes,
then the copy opens at the next ordinal. -/
def openWith (p : Fin 8) (x : Part) (s : State) : State :=
  let x0 := partOf p s
  let s := setPart p x s
  let s := if x.serial = x0.serial then s else placeRegion p (x0.regionAt, x0.cfg.region) s
  let q := (x.nextOrd.getD 0)
  let int := x.partInt (q / x.cfg.chanCount)
  let s := applyEntries p int s
  let s := refreshCache p x0.cfg.inputs (int > x.lastInt) s
  let s := setPart p { partOf p s with lastInt := int } s
  openFill p q s

/-- The next copy opens for filling, once a copy has (R75). -/
def openNext (p : Fin 8) (s : State) : State :=
  let x := partOf p s
  if x.nextOrd.isNone then s else openWith p (switchConfig (x.pending.length + 1) x) s

/-- The first copy opens at the partition's first granule (R76). -/
def openFirst (p : Fin 8) (pk : Parked) (s : State) : State :=
  let x := partOf p s
  openWith p (firstGroup (x.pending.length + 1) pk x) s

/-- Schedulable tile-equivalents of a quadrant as MILL_CAPACITY reports them (R80). -/
def capOf (q : Nat) (s : State) : Nat :=
  match q with
  | 0 => getF fMillCapacitySQ0 .millCapacity s
  | 1 => getF fMillCapacitySQ1 .millCapacity s
  | 2 => getF fMillCapacitySQ2 .millCapacity s
  | _ => getF fMillCapacitySQ3 .millCapacity s

/-- A quadrant of the Mill. -/
def quadOf (q : Nat) (s : State) : Quadrant := storeGet (fun _ => Quadrant.full) s.quads q

/-- The state with a quadrant stored. -/
def setQuad (q : Nat) (x : Quadrant) (s : State) : State :=
  { s with quads := storeSet (fun _ => Quadrant.full) s.quads q x }

/-- IN_SERVICE as a bit mask. -/
def serviceMask (l : List Nat) : Nat := l.foldl (fun m t => m + 2 ^ t) 0

/-- At a region boundary MILL_CAPACITY and MILL_QUAD_STATUS_q take the present tile status (R326). -/
def reportMill (s : State) : State :=
  let s := (List.range 4).foldl (fun s q =>
    let x := quadOf q s
    let v := x.mode * 2 ^ 46 + x.standby.getD 0x3F * 2 ^ 40 + x.shadow.getD 0x3F * 2 ^ 34 + serviceMask x.inService
    setReg (.millQuadStatus (Fin.ofNat 4 q)) (BitVec.ofNat 48 v) s) s
  let c := fun q => (quadOf q s).share
  setReg .millCapacity (BitVec.ofNat 48 ((c 0 + c 1 + c 2 + c 3) * 2 ^ 20 + c 3 * 2 ^ 15 + c 2 * 2 ^ 10 + c 1 * 2 ^ 5 + c 0)) s

/-- b_q of R80: the first task of quadrant `q`'s share of a work list of `w` tasks. -/
def quadBound (w q : Nat) (s : State) : Nat :=
  let tot := capOf 0 s + capOf 1 s + capOf 2 s + capOf 3 s
  if tot = 0 then 0 else w * ((List.range q).foldl (fun n k => n + capOf k s) 0) / tot

/-- The runs of segments a quadrant's active tiles receive (R81), as (tile within the quadrant, first, end). -/
def dealTiles (u : Nat) (tiles : List Nat) : List (Nat × Nat × Nat) :=
  (tiles.zipIdx).map fun te => (te.1, u * te.2 / tiles.length, u * (te.2 + 1) / tiles.length)

/-- P_p in TCLK ticks: the declared time to fill one copy (R85). -/
def fillTicks (c : PartCfg) : ℚ := (c.g * c.t * 400000000 : ℚ) / c.declRate

/-- Deal the work list of the copy that becomes computing (R80, R81, R85, R326): with no schedulable tile left it is finished at
once and every batch of it is to be withheld. -/
def dealCopy (p : Fin 8) (c : Copy) (s : State) : Copy :=
  let cfg := (partOf p s).cfgOf c.epoch
  let w := (c.batches.map fun b => taskCount cfg (c.beams p b s)).foldl (· + ·) 0
  let tot := capOf 0 s + capOf 1 s + capOf 2 s + capOf 3 s
  let bounds := (List.range 5).map fun q => if q = 4 then w else quadBound w q s
  let tiles := if tot = 0 then [] else (List.range 4).foldl (fun m q =>
    let u := (bounds.getD (q + 1) 0 - bounds.getD q 0) * cfg.segs
    (dealTiles u (quadOf q s).inService).foldl (fun m d =>
      if d.2.1 < d.2.2 then storeSet (fun _ => TileWork.idle) m (34 * q + d.1) ⟨[d.2], none, []⟩ else m) m) []
  let d := max (s.tick : ℚ) (partOf p s).prevDeadline + fillTicks cfg
  { c with deadline := d, tiles := tiles, shares := bounds, finished := tot = 0 || w = 0 }

/-- The power samples of a withheld batch enter the chain as missing (R139). -/
def missingPower (p : Fin 8) (epoch : Nat) (b : Batch) (s : State) : State :=
  let int := (partOf p s).intOf epoch b.chan b.sub
  let ins := (beamsFor p b.chan int s).filterMap fun bm =>
    if bm.2.stokes > 0 && !(bm.1 ∈ b.beamsSent) then
      some (⟨p, epoch, bm.1, b.chan, b.sub, int, true, [], ⟨false, false, false, false⟩, [], List.range bm.2.stokes, []⟩ : ChainInput)
    else none
  { s with det := { s.det with chainIn := s.det.chainIn ++ ins } }

/-- A batch is withheld (R333): counted, reported once per partition and integration, ATTN.WITHHELD set. -/
def withholdBatch (p : Fin 8) (epoch ord : Nat) (s : State) : State :=
  let x := partOf p s
  match (x.held.filter fun c => c.epoch = epoch).filterMap fun c => c.batch ord with
  | [] => s
  | b :: _ =>
    if b.withheld || b.harvested then s
    else
      let s := setPart p (x.onBatch epoch ord fun b => { b with withheld := true }) s
      let s := setWithheld (bump (.depWithheld p) 1 s)
      let int := x.partInt b.sub
      let s := missingPower p epoch b s
      let s := { s with dep := { s.dep with outage := s.dep.outage ++ [p.val] } }
      if int ∈ x.withheldInts then s
      else raise .depBatchWithheld (some p) (arg0 b.chan p.val 0) 0 (setPart p { partOf p s with withheldInts := x.withheldInts ++ [int] } s)

/-- A STOP does not wait for a batch of the filling copy of which nothing has come: the copy is discarded (R76, log 146). -/
def stopReady (x : Part) (c : Copy) : Bool := c.batches.all fun b => b.firstAt.isNone || batchReady x c b

/-- The three conditions of R75 hold. -/
def mayRotate (p : Fin 8) (s : State) : Bool :=
  let x := partOf p s
  x.started && !x.stopped &&
  (match x.fill with | none => x.stopping | some c => if x.stopping then stopReady x c else c.batches.all (batchReady x c)) &&
  (match x.comp with | none => true | some c => c.finished) &&
  (match x.ret with | none => true | some c => c.batches.all fun b => classified p c b s)

/-- The batches of a retained copy that Harvest still has the records of to add: verified ones it has not reached (R69, R104). -/
def Part.handOn (x : Part) : List Copy :=
  x.passed.filter (fun c => c.batches.any fun b => !(b.withheld || b.harvested)) ++
    (match x.ret with
      | none => []
      | some c => if c.batches.any fun b => !(b.withheld || b.harvested) then [c] else [])

/-- The rotation at which a STOP takes effect (R76, R181): the filling copy and the parked granules are discarded, and the copy then
computing is the last. -/
def rotateStop (p : Fin 8) (s : State) : State :=
  let x := partOf p s
  let s := setPart p { x with stopped := true, fill := none, parked := [], readyOrds := [], passed := x.handOn, ret := x.comp,
                              comp := none } s
  stopSweep p (cribsHeld (captureStop p x.fill s))

/-- A normal rotation (R75). -/
def rotateNormal (p : Fin 8) (s : State) : State :=
  let x := partOf p s
  match x.fill with
  | none => s
  | some c =>
    let r := closeBatches p c c.batches s
    let s := reportMill r.2
    let x := partOf p s
    let done := c.ords
    let comp := dealCopy p { c with batches := r.1 } s
    let s := setPart p (releaseOld { x with fill := none, comp := some comp, passed := x.handOn, ret := x.comp,
                                            prevDeadline := comp.deadline,
                                            readyOrds := x.readyOrds.filter fun k => !(k.1 = x.stage && k.2 ∈ done) }) s
    let s := if comp.tiles.isEmpty && comp.batches.length > 0 && comp.finished then
        comp.batches.foldl (fun s b => withholdBatch p comp.epoch b.ord s) s
      else s
    cribsHeld (openNext p s)

/-- A corrected error in an SRAM word (R332): the sixteenth within an hour retires the word's row at the next reset. -/
def sramWord (w : Nat) (s : State) : State :=
  let l := s.tick :: (storeGet (fun _ => []) s.dep.sramWords w).filter fun t => s.tick < t + 1440000000000
  let s1 := { s with dep := { s.dep with sramWords := storeSet (fun _ => []) s.dep.sramWords w (if l.length ≥ 16 then [] else l) } }
  if l.length ≥ 16 then ledgerQueue (.record (.retireRow w)) s1 else s1

/-- The error an SRAM access found (R328): counted, with its event; a corrected one at most once per second. -/
def sramError (e : SramError) (s : State) : State :=
  match e with
  | .corrected w =>
    let s := sramWord w (bump .depSramCe 1 s)
    if s.dep.sramCeAt ≠ 0 && s.tick < s.dep.sramCeAt + 400000000 then s
    else raise .depSramCe none 0 0 { s with dep := { s.dep with sramCeAt := s.tick + 1 } }
  | .uncorrectable => raise .depSramUe none 0 0 (bump .depSramUe 1 s)

/-- An entry of the input map or threshold table whose SRAM word has an uncorrectable error is marked, and the caches read it again at
this boundary, torn, until it is written (Table 13-4). -/
def poisonEntry (t i : Nat) (s : State) : State := tabSet t 0 i (tabGet t 0 i s % 2 ^ 128 + 2 ^ 128) s

/-- What an SRAM error found in a table entry does before the caches are refreshed (Table 13-4). -/
def tableError (p : Fin 8) (ecc : Option RotateError) (s : State) : State :=
  match ecc with
  | some (.mapEntry i) =>
    onPart p (fun x => { x with stale := x.stale ++ [i.val] }) (poisonEntry 0 (p.val * 4096 + i.val) (sramError .uncorrectable s))
  | some (.thrSet i) =>
    (List.finRange 8).foldl (fun s q => onPart q (fun x => { x with thrStale := x.thrStale ++ [i.val] }) s)
      (poisonEntry 1 i.val (sramError .uncorrectable s))
  | _ => s

end Sys2Proof.Machine
end

