-- ==== Sys2Proof/Machine/AdmitOps.lean ====
section
/-!
DEFINITION. Admission control: the loads a set of changes would put on the Mill, ingress, staging, the Granary, HBM, egress, the
weight synthesiser and the chain engine, and the checks of Table 12-11 they are held to (R73, R87, R88, R111, R131, R155, R196, R310).
-/
namespace Sys2Proof.Machine

/-- A nonnegative rational rounded up. -/
def ceilQ (x : ℚ) : Nat := (x.num.toNat + x.den - 1) / x.den

/-- A nonnegative rational rounded down. -/
def floorQ (x : ℚ) : Nat := x.num.toNat / x.den

/-- An accepted configuration takes its place among those that wait: in order of the integrations they name, and of acceptance. -/
def insertEpoch (e : Epoch) : List Epoch → List Epoch
  | [] => [e]
  | f :: fs => if e.effInt < f.effInt then e :: f :: fs else f :: insertEpoch e fs

/-- The fields of a configuration that each channel changes at its own integration (R423): those of `c`, with the others of `old`. -/
def channelFields (old c : PartCfg) : PartCfg :=
  { old with nInt := c.nInt, staggered := c.staggered, compact := c.compact, visRoute := c.visRoute }

/-- What an accepted CONFIGURE named for integration `eff` adds to those that wait (R77, R301, R423). Where the channels' integrations are
staggered, a change of staging waits apart from the fields each channel changes at its own integration (log 136). -/
def Part.newEpochs (x : Part) (c : PartCfg) (eff : Nat) : List Epoch :=
  let at' := max eff x.nextInt
  let n := (((x.epochs ++ x.pending).map (·.serial)).foldl max 0) + 1
  let old := ((x.pending.filter fun e => e.effInt ≤ at').getLast?.map (·.cfg)).getD x.cfg
  let own := channelFields old c
  if old.staggered && own ≠ old && stagingChange old c then [⟨n, at', eff, own, x.frontier⟩, ⟨n + 1, at', eff, c, x.frontier⟩]
  else [⟨n, at', eff, c, x.frontier⟩]

/-- The configurations that wait with the new one among them. -/
def Part.lineup (x : Part) (c : PartCfg) (eff : Nat) : List Epoch := (x.newEpochs c eff).foldl (fun l e => insertEpoch e l) x.pending

/-- Of configurations that follow each other, the serial numbers and sizes of those that need a range of their own. -/
def wants (need : PartCfg → Epoch → Bool) (size : PartCfg → Nat) : PartCfg → List Epoch → List (Nat × Nat)
  | _, [] => []
  | c, e :: es => (if need c e then [(e.serial, size e.cfg)] else []) ++ wants need size e.cfg es

/-- Ranges for those sizes among the taken ones of a space, one after another. -/
def placeAll (size : Nat) (taken : List (Nat × Nat)) : List (Nat × Nat) → Option (List (Nat × Nat × Nat))
  | [] => some []
  | (n, len) :: ws =>
    match freeIn size taken len with
    | none => none
    | some a => (placeAll size ((a, len) :: taken) ws).map ((n, a, len) :: ·)

/-- A sum over the plan's partitions. -/
def Plan.sum (l : Plan) (f : Fin 8 → PartCfg → ℚ) : ℚ := (l.parts.map fun x => f x.1 x.2).foldl (· + ·) 0

/-- L of R87 in tile-cycles per second; Y_p is R122's. -/
def Plan.mill (l : Plan) : ℚ := l.sum fun p c => (c.declRate : ℚ) * taskCount c (l.beamsOf p) / c.w

/-- The ingress load of R88 in bytes per second. -/
def Plan.ingress (l : Plan) : ℚ := l.sum fun _ c => ((c.declRate * c.inputs * c.bytes : Nat) : ℚ)

/-- Bytes rounded up to a multiple of 256. -/
def ceil256 (n : Nat) : Nat := ceilDiv n 256 * 256

/-- A channel block (R111). -/
def PartCfg.block (c : PartCfg) : Nat := if c.compact then ceil256 (8 * c.vis) + ceil256 (2 * c.vis) else ceil256 (16 * c.vis)

/-- What gives a partition another Granary range (R109). -/
def PartCfg.rangeKey (c : PartCfg) : Bool × Nat × Nat × Nat := (c.compact, c.inputs, c.chanFirst, c.chanCount)

/-- Bytes of a configuration's channel blocks (R111). -/
def PartCfg.granary (c : PartCfg) : Nat := c.chanCount * c.block

/-- The serial numbers of the configurations a partition still needs a Granary range for: the one in force, those accepted, those of
batches that Harvest may still add, and those under which a channel holds an integration (R109). -/
def heldSerials (p : Fin 8) (s : State) : List Nat :=
  let x := partOf p s
  if x.started then
    x.serial :: x.pending.map (·.serial) ++
      ((x.fill.toList ++ x.closed ++ x.passed).filter fun c => c.batches.any fun b => !(b.withheld || b.harvested)).map (·.epoch) ++
      s.chans.filterMap fun kv => if kv.1 / 16384 = p.val then kv.2.map (·.epoch) else none
  else []

/-- The Granary range of a configuration: its own, or the one of the last before it that brought one (R109). -/
def Part.rangeAt (x : Part) (serial : Nat) : Option GranRange :=
  let upto := ((x.epochs.reverse ++ x.pending).map (·.serial)).takeWhile (· ≠ serial) ++ [serial]
  upto.reverse.findSome? fun n => x.ranges.find? fun r => r.serial = n

/-- The Granary ranges a partition has not released (R109). -/
def liveRanges (p : Fin 8) (s : State) : List GranRange :=
  let x := partOf p s
  let used := (heldSerials p s).filterMap fun n => (x.rangeAt n).map (·.serial)
  x.ranges.filter fun r => r.serial ∈ used

/-- Every Granary range not released. -/
def granTaken (s : State) : List (Nat × Nat) := (List.finRange 8).flatMap fun p => (liveRanges p s).map fun r => (r.base, r.size)

/-- The Granary ranges that a configuration of `p` named for `eff` needs: START one, CONFIGURE one for each change of what gives the
blocks their place (R109). -/
def granWants (p : Fin 8) (c : PartCfg) (eff : Nat) (s : State) : List (Nat × Nat) :=
  let x := partOf p s
  if x.started then
    wants (fun a e => a.rangeKey ≠ e.cfg.rangeKey && !(x.ranges.any fun r => r.serial = e.serial)) PartCfg.granary x.cfg (x.lineup c eff)
  else [(1, c.granary)]

/-- Granary bytes with a configuration of `p` taken (R109, R111). -/
def granaryBytes (p : Fin 8) (c : PartCfg) (eff : Nat) (s : State) : Nat :=
  ((granTaken s).map (·.2) ++ (granWants p c eff s).map (·.2)).foldl (· + ·) 0

/-- S_b of Table 06-1. -/
def stokesSum (bs : List (Nat × BeamCtl)) : Nat := (bs.map fun b => b.2.stokes).foldl (· + ·) 0

/-- L_W and the reader's reservation of one capture configuration (R163, R196); a stopped partition counts as it stood (R181). -/
def Plan.capture (l : Plan) (s : State) (k : CaptCfg) : ℚ :=
  let c : Option PartCfg := match l.parts.find? fun x => x.1 = k.part with
    | some x => some x.2
    | none => let c := (partOf k.part s).cfg; if c.chanCount = 0 then none else some c
  16000000000 + match c with
  | none => 0
  | some c =>
    let w : ℚ := (c.declRate * k.chanCount * k.inputs * c.bytes : Nat) / (c.chanCount : ℚ)
    w + w / (if c.width4 then 128 else 256)

/-- L_adm of R196 in bytes per second. -/
def Plan.hbm (l : Plan) (s : State) : ℚ :=
  l.sum (fun p c =>
    let bs := l.beamsOf p
    let n : Nat := c.vis * (if c.compact then 20 else 32) + 16 * c.inputs + 128 + 16 * bs.length * c.inputs + 512 * stokesSum bs
    c.batchRate * n +
      (bs.map fun b => ((c.declRate * b.2.stokes * 32 : Nat) : ℚ) / ((l.chain b.1).ratio * 2 ^ (l.chain b.1).rmsLog2 : Nat)).foldl (· + ·) 0) +
  (l.capts.map fun k => l.capture s k).foldl (· + ·) 0 + 81000000000 + (l.rates * 16000000 : Nat)

/-- Weights per second (R131). -/
def Plan.wsyn (l : Plan) : ℚ := l.sum fun p c => c.batchRate * ((l.beamsOf p).length * c.inputs : Nat)

/-- Chain instances (R155). -/
def Plan.instances (l : Plan) : Nat := (l.parts.map fun x => x.2.chanCount * stokesSum (l.beamsOf x.1)).foldl (· + ·) 0

/-- Chain input samples per second (R155). -/
def Plan.chainRate (l : Plan) : ℚ := l.sum fun p c => ((c.declRate * stokesSum (l.beamsOf p) : Nat) : ℚ)

/-- The staging ranges that a configuration of `p` named for `eff` needs: START one, CONFIGURE one for each change of staging whose region
does not fit in the range of the one before it (R73, R77). -/
def stageWants (p : Fin 8) (c : PartCfg) (eff : Nat) (s : State) : List (Nat × Nat) :=
  let x := partOf p s
  if x.started then
    wants (fun a e => stagingChange a e.cfg && a.region < e.cfg.region && !(x.oldRegions.any fun r => r.1 = e.serial)) PartCfg.region x.cfg
      (x.lineup c eff)
  else [(1, c.region)]

/-- Ranges without those that lie inside another: a region in the range of an old one takes no more (R77). -/
def outerRanges (l : List (Nat × Nat)) : List (Nat × Nat) :=
  let inside := fun a b : Nat × Nat => b.1 ≤ a.1 && a.1 + a.2 ≤ b.1 + b.2
  l.foldl (fun k r => if k.any (inside r) then k else r :: k.filter fun q => !inside q r) []

/-- Bytes of staging regions with a configuration of `p` taken (R73, R77): old ranges count until they are released. -/
def stagingBytes (p : Fin 8) (c : PartCfg) (eff : Nat) (s : State) : Nat :=
  ((outerRanges (takenRanges none s)).map (·.2) ++ (stageWants p c eff s).map (·.2)).foldl (· + ·) 0

/-- The longest free range of the 32 MiB buffer. -/
def longestFree (taken : List (Nat × Nat)) : Nat :=
  let ends := 0 :: taken.map fun r => r.1 + r.2
  (ends.map fun a =>
    if taken.any fun r => r.1 ≤ a && a < r.1 + r.2 then 0
    else (taken.filter fun r => a ≤ r.1).foldl (fun m r => min m (r.1 - a)) (33554432 - a)).foldl max 0

/-- No free range holds the new region of a partition (R73, R77). -/
def noPlace (p : Fin 8) (c : PartCfg) (eff : Nat) (s : State) : Bool :=
  (placeAll 33554432 (takenRanges none s) (stageWants p c eff s)).isNone

/-- ADMIT_MILL (R87). -/
def admitMill (l : Plan) (s : State) : Check :=
  let n := getF fMillCapacitySchedTiles .millCapacity s
  ⟨l.mill > n * 1600000000, 0x40, ceilQ (l.mill * 65536 / 1600000000), n * 65536⟩

/-- ADMIT_INGRESS (R88). -/
def admitIngress (l : Plan) : Check := ⟨l.ingress > 775000000000, 0x41, ceilQ l.ingress, 775000000000⟩

/-- ADMIT_STAGING (R73, R304): its three cases in order. -/
def admitStaging (p : Fin 8) (c : PartCfg) (eff : Nat) (s : State) : Check :=
  let total := stagingBytes p c eff s
  let rot := ceilQ ((c.declRate : ℚ) / (c.g * c.t))
  if total > 33554432 then ⟨true, 0x42, total, 33554432⟩
  else if (c.declRate : ℚ) / (c.g * c.t) > 250000 then ⟨true, 0x42, 2 ^ 62 + rot, 250000⟩
  else ⟨noPlace p c eff s, 0x42, 2 ^ 63 + c.region, longestFree (takenRanges none s)⟩

/-- ADMIT_GRANARY (R111): the blocks exceed the region, or no placement of their ranges exists beside those held. -/
def admitGranary (p : Fin 8) (c : PartCfg) (eff : Nat) (s : State) : Check :=
  let n := granaryBytes p c eff s
  ⟨n > granRegion s || (placeAll (granRegion s) (granTaken s) (granWants p c eff s)).isNone, 0x43, n, granRegion s⟩

/-- ADMIT_HBM (R196). -/
def admitHbm (l : Plan) (s : State) : Check :=
  ⟨l.hbm s > budget s, 0x44, ceilQ (l.hbm s / 16000000), budget s / 16000000⟩

/-- ADMIT_EGRESS (R310, R311): the first budget that is exceeded and to which the change adds load. -/
def admitEgress (l : Plan) (s : State) : Check :=
  let old := planNow s
  match (List.range 9).find? fun k => l.egress s k > egressBudget k s && l.egress s k > old.egress s k with
  | none => ⟨false, 0x45, 0, 0⟩
  | some k => ⟨true, 0x45, k * 2 ^ 60 + ceilQ (l.egress s k), floorQ (egressBudget k s)⟩

/-- ADMIT_WSYN (R131). -/
def admitWsyn (l : Plan) : Check := ⟨l.wsyn > 102400000000, 0x46, ceilQ (l.wsyn / 65536), 102400000000 / 65536⟩

/-- ADMIT_CHAIN (R155): instances, then the rate. -/
def admitChain (l : Plan) : Check :=
  if l.instances > 4194304 then ⟨true, 0x47, l.instances, 4194304⟩
  else ⟨l.chainRate > 204800000000, 0x47, ceilQ (l.chainRate / 65536), 204800000000 / 65536⟩

/-- Every admission check of START, and of a CONFIGURE named for integration `eff`. -/
def admitPart (p : Fin 8) (c : PartCfg) (eff : Nat) (s : State) : List Check :=
  let l := (planNow s).withPart p c
  [admitMill l s, admitIngress l, admitStaging p c eff s, admitGranary p c eff s, admitHbm l s, admitEgress l s, admitWsyn l, admitChain l]

/-- A plan with one beam control entry put in. -/
def Plan.withBeam (b : Nat) (c : BeamCtl) (l : Plan) : Plan :=
  { l with beams := (if c.valid then [(b, c)] else []) ++ l.beams.filter fun x => x.1 ≠ b }

/-- The admission checks of a beam control write (R132, R155). -/
def admitBeam (b : Nat) (c : BeamCtl) (s : State) : List Check :=
  let l := (planNow s).withBeam b c
  [admitMill l s, admitHbm l s, admitEgress l s, admitWsyn l, admitChain l]

/-- The admission checks of a chain entry write (R155, R196, R310). -/
def admitChainEntry (i : Nat) (c : ChainEntry) (s : State) : List Check :=
  let l0 := planNow s
  let l : Plan := { l0 with chain := fun b => if b = i then c else l0.chain b }
  [admitHbm l s, admitEgress l s, admitChain l]

/-- A crib that holds back a capture configuration: SEALING, HELD or READOUT (R163). -/
def cribBusy (s : State) : Bool := (List.range 4).any fun k => (cribOf k s).state ≥ 2

/-- Admission of a capture configuration (R163): one that must wait counts beside the one in force, else it takes its place. -/
def admitCapture (k : CaptCfg) (s : State) : Check :=
  let l := planNow s
  let kept := if cribBusy s || s.trig.accepted ≠ [] then l.capts else []
  admitHbm { l with capts := kept ++ (if k.enable then [k] else []) } s

end Sys2Proof.Machine
end

