-- ==== Sys2Proof/Machine/Harvest.lean ====
section
/-!
DEFINITION. Harvest: adding a verified batch into the Granary, first touch, and the sweep (R91 to R109, R197, R333).
-/
namespace Sys2Proof.Machine

/-- The new partial value of one record (R91, R95, R98): the tile sum added to what the record held. -/
def addRecord (cfg : PartCfg) (old : GranRec) (sum : Int × Int) (jd : Nat) (chan v int sub : Nat) : GranRec :=
  let joint := min 65535 (old.joint + jd)
  if cfg.compact then
    let r := roundKey chan v int sub
    { re := roundCompact (old.re + sum.1) (r % 2 ^ 24), im := roundCompact (old.im + sum.2) (r / 2 ^ 24 % 2 ^ 24), joint := joint,
      poisoned := old.poisoned }
  else { re := old.re + sum.1, im := old.im + sum.2, joint := joint, poisoned := old.poisoned }

/-- J' of R95: granules flagged in both inputs of a pair, less those flagged in every slot. -/
def jointDelta (g fi fj gcnt common : Nat) : Nat := fi + fj + gcnt - g - common

/-- Add a batch's verified tile sums into the Granary (R91, R95, R100), dumping on first touch (R106). -/
def addBatch (p : Fin 8) (cp : Copy) (b : Batch) (s : State) : State :=
  let held := (chanOf p b.chan s).map (·.int)
  let x := partOf p s
  let a := x.anchorAt b.chan (b.sub * (x.cfgOf cp.epoch).t)
  let cfg := x.cfgOf a.epoch
  let g := cfg.grans
  let o := cfg.offset (cfg.pos b.chan)
  let int := intUnder cfg.nInt o a b.sub
  let sub := (b.sub + o) % cfg.nInt
  let touch : Bool := match held with | some h => h ≠ int | none => false
  let s := if touch then clearChannel p b.chan (dumpChannel p b.chan false s) else s
  let old : ChanState := (chanOf p b.chan s).getD
    ⟨int, a.epoch, 0, [], 0, [], firstSubUnder cfg.nInt o a int * cfg.t, false⟩
  let fs := (List.range cfg.inputs).map fun i => cp.flagCount b g i
  let common := cp.commonCount b g cfg.inputs
  let new : ChanState :=
    { old with
      nsub := old.nsub + 1, common := old.common + common,
      fCount := (fs.zipIdx).foldl (fun m fi => storeSet (fun _ => 0) m fi.2 (storeGet (fun _ => 0) m fi.2 + fi.1)) old.fCount,
      suspect := old.suspect ++ b.suspect.filter fun k => !(k ∈ old.suspect) }
  let s := setChan p b.chan (some new) s
  cfg.pairs.foldl (fun s ij =>
    let v := ij.2 * (ij.2 + 1) / 2 + ij.1
    let r := b.record v
    let jd := if ij.1 = ij.2 then 0 else jointDelta g (fs.getD ij.1 0) (fs.getD ij.2 0) r.gcnt common
    granarySet p b.chan v (addRecord cfg (granaryGet p b.chan v s) (r.re, r.im) jd b.chan v int sub) s) s

/-- Every X task of a batch has passed verification. -/
def xVerified (cfg : PartCfg) (b : Batch) : Bool :=
  (List.range cfg.xCount).all fun k => storeGet (fun _ => 0) b.verified k ≥ cfg.segs

/-- Batches of the same channel whose samples come before this one's, of `t` samples, are neither harvested nor withheld (R100, R104). -/
def earlierWaits (x : Part) (t : Nat) (b : Batch) : Bool :=
  (x.passed ++ x.closed).any fun c => c.batches.any fun o =>
    o.chan = b.chan && o.sub * (x.cfgOf c.epoch).t < b.sub * t && !(o.withheld || o.harvested)

/-- Harvest reaches a batch: by beginning it or withholding it (R107). One past the first sample of the latest sub-integration it has
reached stands in the partition. -/
def reach (p : Fin 8) (cp : Copy) (b : Batch) (s : State) : State :=
  onPart p (fun x => { x with reachedSample := max x.reachedSample (b.sub * (x.cfgOf cp.epoch).t + 1) }) s

/-- HARVEST_BATCH: harvest the batch when every X task of it is verified; a withheld batch is only reached; an issue buffer above
256 transactions, as the command finds it or as the fabric's queues stand, is a fault that withholds it (R104, R107, R197). -/
def harvestBatch (p : Fin 8) (ord issueBuffer : Nat) (s : State) : State :=
  let x := partOf p s
  match x.findClosed ord with
  | none => s
  | some (cp, b) =>
    if s.sys.stopped || s.dep.paused || b.harvested then s
    else if b.withheld then stopSweep p (reach p cp b s)
    else if issueBuffer > 256 then
      stopSweep p (reach p cp b (withholdBatch p cp.epoch ord (raise .memGuaranteeMiss (some p) (arg0 b.chan p.val 0) issueBuffer s)))
    else if issueLate 0 s then stopSweep p (reach p cp b (withholdBatch p cp.epoch ord s))
    else if xVerified (x.cfgOf cp.epoch) b && !earlierWaits x (x.cfgOf cp.epoch).t b then
      let s := addBatch p cp b (reach p cp b s)
      stopSweep p (setPart p ((partOf p s).onBatch cp.epoch ord fun b => { b with harvested := true }) s)
    else s

/-- HARVEST_BATCH (R104). -/
def execHarvestBatch (p : Fin 8) (ord issueBuffer : Nat) (s : State) : Host.Outcome State Fault Refusal :=
  act (harvestBatch p ord issueBuffer) s

/-- The sweep of a channel is due: it holds an integration whose end Harvest has reached, or it has left the partition and no
copy holds a batch of it (R107, R109). -/
def sweepDue (p : Fin 8) (chan : Nat) (s : State) : Bool :=
  let x := partOf p s
  match chanOf p chan s with
  | none => false
  | some c =>
    let left : Bool := !x.cfg.hasChan chan && !((x.fill.toList ++ x.closed ++ x.passed).any fun cp => cp.batches.any fun b =>
      b.chan = chan && !(b.withheld || b.harvested))
    left || (x.reachedSample > 0 && x.intAt chan (x.reachedSample - 1) > c.int)

/-- SWEEP_TIMER_EXPIRE (R107): the sweep delay has run out for a channel that still holds its integration. -/
def execSweepTimerExpire (p : Fin 8) (chan : Fin 16384) (s : State) : Host.Outcome State Fault Refusal :=
  act (fun s => if sweepDue p chan.val s && !s.sys.stopped then sweepChannel p chan.val s else s) s

end Sys2Proof.Machine
end

