-- ==== Sys2Proof/Machine/Beams.lean ====
section
/-!
DEFINITION. Beams: the weight synthesiser, bank commits, the beam table port, and beam products (R118 to R143).
-/
namespace Sys2Proof.Machine

/-- pi in units of 2^-60. -/
def piFix : Int := 3622009729038561421

/-- The Taylor sum of a term sequence t_{k+1} = -t_k × x² / ((a+1)(a+2)), in units of 2^-60. -/
def taylorFix : Nat → Nat → Int → Int → Int → Int
  | 0, _, _, _, acc => acc
  | n + 1, a, x2, t, acc => taylorFix n (a + 2) x2 (-(t * x2 / 2 ^ 60) / ((a + 1) * (a + 2) : Nat)) (acc + t)

/-- cos of r turns × 2^-20 for r up to a quarter turn, in units of 2^-60. -/
def cosQuarter (r : Nat) : Int :=
  let x := 2 * piFix * r / 2 ^ 20
  taylorFix 16 0 (x * x / 2 ^ 60) (2 ^ 60) 0

/-- cos of the phase `th` (units of 2^-20 turn), in units of 2^-60, exact at quarter turns. -/
def cosFix (th : Nat) : Int :=
  let r := th % 2 ^ 18
  match th / 2 ^ 18 % 4 with
  | 0 => if r = 0 then 2 ^ 60 else cosQuarter r
  | 1 => if r = 0 then 0 else -cosQuarter (2 ^ 18 - r)
  | 2 => if r = 0 then -(2 ^ 60) else -cosQuarter r
  | _ => if r = 0 then 0 else cosQuarter (2 ^ 18 - r)

/-- One component of a weight: k × amp / 255 × c rounded to nearest; where a neighbour also lies within the 0.5 + 2^-6 that R129
allows, a free value decides between the two (log 11). -/
def weightPart (k amp th : Nat) (c : Int) : Int :=
  let d : Int := 255 * 2 ^ 60
  let y := (k * amp : Nat) * c
  let n0 := divRound y d
  let n1 := if y ≥ n0 * d then n0 + 1 else n0 - 1
  let near := (n1 * d - y).natAbs * 64 ≤ 33 * d.natAbs
  clampInt (-(k : Int)) k (if near && Config.weightTie k amp th then n1 else n0)

/-- Phase of a weight in units of 2^-20 turn (R129). -/
def weightPhase (entry freq : Nat) (d : Int) : Nat :=
  let tau := signedOf 48 (bitsOf entry 47 0) * 2 ^ 16 + d * signedOf 32 (bitsOf entry 95 64)
  let ph := (freq : Int) * tau
  ((ph / 2 ^ 52 + (bitsOf entry 111 96 * 16 : Nat)) % 2 ^ 20).toNat

/-- A delay entry is torn (R136), or its HBM word is poisoned, which bit 128 of the stored entry says (R201). -/
def delayTorn (e : Nat) : Bool := bitsOf e 55 48 ≠ bitsOf e 119 112 || !checkOk e || bitOf e 128

/-- The weight one entry gives a batch (R129, R130, R136): 0 for a stale or torn entry. -/
def weightOf (entry freq : Nat) (fine : Bool) (d : Int) : BeamWeight :=
  let k := if fine then 32767 else 127
  let amp := bitsOf entry 63 56
  let th := weightPhase entry freq d
  if delayTorn entry || d.natAbs ≥ 2 ^ 31 then ⟨0, 0⟩
  else ⟨weightPart k amp th (cosFix th), weightPart k amp (th + 2 ^ 20) (cosFix ((th + 3 * 2 ^ 18) % 2 ^ 20))⟩

/-- The sub-integrations of a partition whose reading has begun, each with the T it was read under. -/
def readSubs (p : Fin 8) (s : State) : List (Nat × Nat) := storeGet (fun _ => []) s.beam.reads p.val

/-- The earliest sub-integration whose reading has not begun (R134). -/
def firstUnread (p : Fin 8) (s : State) : Nat :=
  ((readSubs p s).map fun r => ceilDiv ((r.1 + 1) * r.2) (partOf p s).cfg.t).foldl max 0

/-- A batch of a sub-integration is still to be read: one of the filling copy, or one that has not opened (R135). -/
def Part.stillRead (x : Part) (sub : Nat) : Bool :=
  (x.nextOrd.any fun q => q < (sub + 1) * x.cfg.chanCount) || (x.fill.any fun c => c.batches.any fun b => b.sub = sub && !b.synthesised)

/-- Reading for a sub-integration has begun. Those all read go, but for the last. -/
def noteRead (p : Fin 8) (sub t : Nat) (s : State) : State :=
  let l := readSubs p s
  let l := if (sub, t) ∈ l then l else l.filter (fun r => (partOf p s).stillRead r.1 || sub < r.1) ++ [(sub, t)]
  { s with beam := { s.beam with reads := storeSet (fun _ => []) s.beam.reads p.val l } }

/-- The delay bank of a sub-integration of a partition and its REF_SAMPLE (R134): the first of those since replaced that served it, else
the active one. -/
def Part.bankFor (x : Part) (sub : Nat) : Bool × Nat :=
  match x.oldBanks.find? fun b => sub < b.1 with
  | some b => b.2
  | none => (x.bank, x.refSample)

/-- A commit applies (R134): the inactive bank becomes active with its REF_SAMPLE from s_c on; batches below s_c keep theirs. -/
def applyCommit (p : Fin 8) (s : State) : State :=
  let x := partOf p s
  match x.commit with
  | none => s
  | some c =>
    let keep := x.oldBanks.filter fun b => x.fill.any fun f => f.batches.any fun y => y.sub < b.1
    let s := setPart p { x with bank := !x.bank, refSample := c.refSample, commit := none,
                                oldBanks := keep ++ [(c.sC, x.bank, x.refSample)] } s
    let act := getF fBfBankStatusActive .bfBankStatus s
    let pen := getF fBfBankStatusPending .bfBankStatus s
    let s := setF fBfBankStatusActive .bfBankStatus (Nat.xor act (2 ^ p.val)) s
    let s := setF fBfBankStatusPending .bfBankStatus (if bitOf pen p.val then pen - 2 ^ p.val else pen) s
    raise .bfCommitApplied (some p) (arg0 0 p.val 0) c.sC s

/-- BANK_COMMIT_APPLY (R134): a pending commit takes effect once every sub-integration before it has been read. -/
def execBankCommitApply (p : Fin 8) (s : State) : Host.Outcome State Fault Refusal :=
  act (fun s => match (partOf p s).commit with
    | none => s
    | some c => if c.sC ≤ firstUnread p s then applyCommit p s else s) s

/-- Whether an event of a beam has been raised in a sub-integration already, and the log with it (R130, R136). -/
def onceRaised (kind p sub beam : Nat) (s : State) : Bool := (kind, p, sub, beam) ∈ s.beam.raised

/-- Raise a beam's event once per sub-integration. -/
def raiseOnce (e : Event) (kind : Nat) (p : Fin 8) (sub beam count : Nat) (s : State) : State :=
  if onceRaised kind p.val sub beam s then s
  else
    raise e (some p) (arg0 beam p.val 0) count { s with beam := { s.beam with raised := (kind, p.val, sub, beam) :: s.beam.raised } }

/-- The weights of one beam for a batch: each slot's entry read once (R129 to R136). -/
def synthBeam (p : Fin 8) (cfg : PartCfg) (beam : Nat × BeamCtl) (b : Batch) (s : State) : Batch × State :=
  let x := partOf p s
  let bk := x.bankFor b.sub
  let bank := if bk.1 then 1 else 0
  let freq := bitsOf (entryFor 3 b.chan p b.chan (x.intAt b.chan (b.sub * cfg.t)) s) 47 0
  let d : Int := (b.sub * cfg.t + cfg.t / 2 : Nat) - (bk.2 : Int)
  let es := (List.range cfg.inputs).map fun i => tabGet 2 bank (beam.1 * 4096 + i) s
  let torn := (es.filter delayTorn).length
  let stale := if d.natAbs ≥ 2 ^ 31 then es.length else 0
  let ws := (es.zipIdx).foldl (fun m ei => storeSet (fun _ => none) m (beam.1 * 4096 + ei.2)
    (some (weightOf ei.1 freq beam.2.fine d))) b.weights
  let live := (p.val, b.sub, beam.1) ∈ s.beam.live
  let mark : BeamMark := ⟨torn > 0, stale > 0, live, false⟩
  let s := if torn = 0 then s else raiseOnce .bfTornEntry 0 p b.sub beam.1 torn (bump (.bfTorn p) torn s)
  let s := if stale = 0 then s else raiseOnce .bfModelStale 1 p b.sub beam.1 stale (bump (.bfStale p) stale s)
  ({ b with weights := ws, marks := storeSet (fun _ => ⟨false, false, false, false⟩) b.marks beam.1 mark }, s)

/-- The weights of every beam of a batch. -/
def synthBeams (p : Fin 8) (cfg : PartCfg) (b : Batch) : List (Nat × BeamCtl) → State → Batch × State
  | [], s => (b, s)
  | bm :: bms, s => let r := synthBeam p cfg bm b s; synthBeams p cfg r.1 bms r.2

/-- WEIGHT_SYNTHESIS (R126 to R136): read every entry once for a batch between the opening of its region and its rotation to computing. -/
def weightSynthesis (p : Fin 8) (ord : Nat) (s : State) : State :=
  let x := partOf p s
  match x.fill.bind fun c => (c.batch ord).map fun b => (c, b) with
  | none => s
  | some (cp, b) =>
    if b.synthesised then s
    else
      let s := match x.commit with
        | some c => if c.sC ≤ b.sub then applyCommit p s else s
        | none => s
      let cfg := x.cfgOf cp.epoch
      let s := noteRead p b.sub cfg.t s
      let res := synthBeams p cfg b (cp.beams p b s) s
      let b' := { res.1 with synthesised := true }
      setPart p ((partOf p res.2).onBatch cp.epoch ord fun _ => b') res.2

/-- The weights of every batch of the filling copy are finished before it rotates, so before any B task of it begins (R131, R134). -/
def readWeights (p : Fin 8) (s : State) : State :=
  match (partOf p s).fill with
  | none => s
  | some c => c.ords.foldl (fun s q => weightSynthesis p q s) s

/-- WEIGHT_SYNTHESIS (R129). -/
def execWeightSynthesis (p : Fin 8) (ord : Nat) (s : State) : Host.Outcome State Fault Refusal :=
  act (weightSynthesis p ord) s

/-- The partition has a beam in a sub-integration: its entry in force for some channel of it (R132). -/
def beamInSub (p : Fin 8) (beam sub : Nat) (s : State) : Bool :=
  let x := partOf p s
  x.cfg.chans.any fun ch =>
    let c := decodeBeam (entryFor 4 beam p ch (x.intAt ch (sub * x.cfg.t)) s)
    c.valid && c.part = p.val

/-- A write to the delay table through the beam table port (R133): to the bank in use for a sub-integration that is being read it is
a live edit (R135), of every such sub-integration and one write. -/
def portWrite (bank idx v : Nat) (s : State) : State :=
  let beam := idx / 4096
  let s := tabSet 2 bank idx v s
  (List.range 8).foldl (fun s q =>
    let p := Fin.ofNat 8 q
    let x := partOf p s
    let hit := ((readSubs p s).map (·.1)).filter fun sub =>
      x.started && x.stillRead sub && (if (x.bankFor sub).1 then 1 else 0) = bank && beamInSub p beam sub s
    if hit = [] then s
    else
      let s := bump (.bfLiveEdit p) 1 s
      { s with beam := { s.beam with live := ((hit.map fun sub => (q, sub, beam)).filter fun r => r ∉ s.beam.live) ++ s.beam.live } }) s

/-- The weight of a slot in a beam of a batch; a slot not of the beams contributes nothing (R119). -/
def Batch.weight (b : Batch) (beam i : Nat) : BeamWeight := (storeGet (fun _ => none) b.weights (beam * 4096 + i)).getD ⟨0, 0⟩

/-- The slots of a polarisation that beams sum (R118, R119). -/
def Copy.beamSlots (c : Copy) (n pol : Nat) : List Nat :=
  (List.range n).filter fun i => i % 2 = pol && (match c.slotOf i with | some m => m.beamEn | none => false)

/-- y(b, pol, t) of R118: the exact sum of full complex products. -/
def beamSample (c : Copy) (b : Batch) (n beam pol t : Nat) : Int × Int :=
  (c.beamSlots n pol).foldl (fun a i =>
    let w := b.weight beam i
    let x := b.sample i t
    (a.1 + (w.re * x.1 - w.im * x.2), a.2 + (w.re * x.2 + w.im * x.1))) (0, 0)

/-- The count of R119 for a granule: slots of the polarisation with valid bit 1 and a nonzero weight. -/
def beamValid (c : Copy) (b : Batch) (n beam pol g : Nat) : Nat :=
  ((c.beamSlots n pol).filter fun i => !b.flagged i g && b.weight beam i ≠ ⟨0, 0⟩).length

/-- Arithmetic shift right with rounding (R137, R150). -/
def shiftRound (x : Int) (n : Nat) : Int := if n = 0 then x else (x + 2 ^ (n - 1)) / 2 ^ n

/-- Requantise one component (R137): the value, and whether it was clamped. -/
def requant (gain shift : Nat) (y : Int) : Int × Bool :=
  let z := shiftRound (y * gain) shift
  (clampInt (-127) 127 z, z < -127 || z > 127)

/-- STATUS of a beam packet (Table 05-6). -/
def beamStatus (sat : Bool) (m : BeamMark) (inc : Bool) : Nat :=
  (if sat then 1 else 0) + (if m.torn then 2 else 0) + (if m.stale then 4 else 0) + (if m.liveEdit then 8 else 0) +
  (if m.suspect then 16 else 0) + (if inc then 32 else 0)

/-- BF_SATURATION, once per partition per integration (R142). -/
def beamSaturated (p : Fin 8) (int beam : Nat) (s : State) : State :=
  let l := storeGet (fun _ => []) s.beam.satInt p.val
  if int ∈ l then s
  else raise .bfSaturation (some p) (arg0 beam p.val 0) 0
    { s with beam := { s.beam with satInt := storeSet (fun _ => []) s.beam.satInt p.val (int :: l) } }

/-- One voltage packet of a beam: samples from `t0` on (R137, R140, Table 05-4). -/
def voltagePacket (p : Fin 8) (c : Copy) (b : Batch) (cfg : PartCfg) (beam : Nat × BeamCtl) (mark : BeamMark) (int t0 : Nat)
    (s : State) : State :=
  let n := 2 ^ beam.2.spp
  let rq := fun pol t =>
    let y := beamSample c b cfg.inputs beam.1 pol t
    (requant beam.2.gain beam.2.rqShift y.1, requant beam.2.gain beam.2.rqShift y.2)
  let body := (List.range n).map fun k => (rq 0 (t0 + k), rq 1 (t0 + k))
  let cnt := fun q : (Int × Bool) × (Int × Bool) => (if q.1.2 then 1 else 0) + (if q.2.2 then 1 else 0)
  let sat0 := body.foldl (fun a q => a + cnt q.1) 0
  let sat1 := body.foldl (fun a q => a + cnt q.2) 0
  let v := fun pol => ((List.range (n / 16)).foldl (fun a g => a + beamValid c b cfg.inputs beam.1 pol (t0 / 16 + g)) 0)
  let s8 := fun x : Int => beBytes 1 (unsignedOf 8 x)
  let hdr := beBytes 2 b.chan ++ beBytes 2 beam.1 ++ beBytes 2 (beamStatus (sat0 + sat1 > 0) mark false) ++ beBytes 2 n ++
    beBytes 8 (b.sub * cfg.t + t0) ++ beBytes 4 (v 0) ++ beBytes 4 (v 1) ++ beBytes 2 (saturateNat 16 sat0) ++
    beBytes 2 (saturateNat 16 sat1) ++ beBytes 4 0
  let s := bump (.bfVsat p) (sat0 + sat1) s
  let s := if sat0 + sat1 > 0 then beamSaturated p int beam.1 s else s
  sendProduct p 0x02 beam.2.route
    (hdr ++ body.flatMap fun q => s8 q.1.1.1 ++ s8 q.1.2.1 ++ s8 q.2.1.1 ++ s8 q.2.2.1) s

/-- Detected power of one sample (R138): I, Q, U, V shifted and clamped, and how many were clamped of I and of the others. -/
def detect (pShift : Nat) (x y : Int × Int) : (Int × Int × Int × Int) × Nat × Nat :=
  let px := x.1 * x.1 + x.2 * x.2
  let py := y.1 * y.1 + y.2 * y.2
  let u := 2 * (x.1 * y.1 + x.2 * y.2)
  let v := 2 * (x.2 * y.1 - x.1 * y.2)
  let sh := fun z => shiftRound z pShift
  let i := sh (px + py)
  let i' := clampInt 0 (2 ^ 32 - 1) i
  let c := fun z : Int => clampInt (-(2 ^ 31 - 1)) (2 ^ 31 - 1) z
  let n := fun a b : Int => if a = b then 0 else 1
  ((i', c (sh (px - py)), c (sh u), c (sh v)),
    n i i', n (sh (px - py)) (c (sh (px - py))) + n (sh u) (c (sh u)) + n (sh v) (c (sh v)))

/-- The products of one beam of a batch, once all its tasks have passed verification (R137, R138, R139). -/
def beamOutputs (p : Fin 8) (c : Copy) (b : Batch) (cfg : PartCfg) (beams : List (Nat × BeamCtl)) (n : Nat)
    (beam : Nat × BeamCtl) (s : State) : State :=
  let int := (partOf p s).intOf c.epoch b.chan b.sub
  let tasks := bTasksOf cfg beams n
  let m0 := storeGet (fun _ => ⟨false, false, false, false⟩) b.marks beam.1
  let mark := { m0 with suspect := tasks.any fun k => k ∈ b.suspect }
  let s := if mark.suspect then { s with dep := { s.dep with outage := s.dep.outage ++ [p.val] } } else s
  let s := if beam.2.mode = 1 then
      (List.range (cfg.t / 2 ^ beam.2.spp)).foldl (fun s k => voltagePacket p c b cfg beam mark int (k * 2 ^ beam.2.spp) s) s
    else s
  let s := if beam.2.stokes > 0 then
      let ds := (List.range cfg.t).map fun t =>
        detect beam.2.pShift (beamSample c b cfg.inputs beam.1 0 t) (beamSample c b cfg.inputs beam.1 1 t)
      let s := bump (.bfPsat p) ((ds.map fun d => d.2.1 + d.2.2).foldl (· + ·) 0) s
      let sats := ds.map fun d => if beam.2.stokes = 4 then d.2.1 + d.2.2 else d.2.1
      let inp : ChainInput := ⟨p, c.epoch, beam.1, b.chan, b.sub, int, false, ds.map (·.1), mark, sats, List.range beam.2.stokes, []⟩
      { s with det := { s.det with chainIn := s.det.chainIn ++ [inp] } }
    else s
  setPart p ((partOf p s).onBatch c.epoch b.ord fun b => { b with beamsSent := b.beamsSent ++ [beam.1] }) s

/-- Beams of a batch whose tasks have all passed and whose products have not gone yet (R139). -/
def sendBeams (p : Fin 8) (epoch ord : Nat) (s : State) : State :=
  let x := partOf p s
  match ((x.closed.filter fun c => c.epoch = epoch).filterMap fun c => (c.batch ord).map fun b => (c, b)).head? with
  | none => s
  | some (c, b) =>
    if b.withheld || !b.synthesised then s
    else
      let cfg := x.cfgOf epoch
      let beams := c.beams p b s
      (beams.zipIdx).foldl (fun s bn =>
        let ok := (bTasksOf cfg beams bn.2).all fun k => storeGet (fun _ => 0) b.verified k ≥ cfg.segs
        if ok && !(bn.1.1 ∈ b.beamsSent) then beamOutputs p c b cfg beams bn.2 bn.1 s else s) s

end Sys2Proof.Machine
end

