-- ==== Sys2Proof/Machine/TabWrite.lean ====
section
/-!
DEFINITION. Writing table entries: the checks of each table and the write, shared by TABLE_WRITE and the Stewards' WRITE transfers
(R53, R56, R128, R132, R136, R147, R154, R169, R301, R302, R309).
-/
namespace Sys2Proof.Machine

/-- Entries of a table (Table 12-9), none where TABLE is not listed. -/
def tableSize (t : Nat) : Option Nat :=
  match t with
  | 0 => some 4096 | 1 => some 256 | 2 => some 4194304 | 3 => some 16384 | 4 => some 1024 | 5 => some 1088 | 6 => some 1024 | 7 => some 256
  | _ => none

/-- Bytes of a table's entry. -/
def tableEntry (t : Nat) : Nat := if t = 7 then 64 else 16

/-- The input map of a partition as it will stand when an entry with this effective integration takes effect (R53). -/
def standingMap (p : Fin 8) (eff : Nat) (s : State) : Store Nat :=
  let lo := tabKey 0 0 (p.val * 4096)
  let stored := (s.tables.filter fun kv => lo ≤ kv.1 && kv.1 < lo + 4096).map fun kv => (kv.1 - lo, kv.2)
  (sortBy (fun e : PendingEntry => e.eff) (s.tabPending.filter fun e => e.table = 0 && e.part = p && e.eff ≤ eff)).foldl
    (fun m e => storeSet (fun _ => 0) m (e.index % 4096) e.entry) stored

/-- SLOTs below N of a started partition; before START any SLOT may come to be used. -/
def slotLimit (p : Fin 8) (s : State) : Nat := if (partOf p s).started then (partOf p s).cfg.inputs else 4096

/-- Another usable entry of the map names this entry's SLOT (R53). -/
def slotConflict (p : Fin 8) (i e eff : Nat) (s : State) : Bool :=
  let m := standingMap p eff s
  m.any fun kv => kv.1 ≠ i && mapUsable (slotLimit p s) m kv.1 && bitsOf kv.2 19 8 = bitsOf e 19 8

/-- The checks of an input map entry (R53). -/
def mapChecks (p : Fin 8) (i e eff : Nat) (s : State) : List Check :=
  [chk (!mapRsvdOk e) 0x11, chk (bitOf e 0 && mapTorn e) 0x20, chk (bitOf e 0 && slotConflict p i e eff s) 0x21]

/-- The checks of a threshold set (R56). -/
def thrChecks (e : Nat) : List Check := [chk (!thrRsvdOk e) 0x11, chk (bitOf e 0 && thrTorn e) 0x20]

/-- The checks of a beam control entry (R132, R154). -/
def beamChecks (b e : Nat) (s : State) : List Check :=
  let c := decodeBeam e
  let r := routeOf c.route s
  let t := (partOf (Fin.ofNat 8 c.part) s)
  let splits := !t.started || (t.cfg.t % 2 ^ c.spp = 0 && t.lastCfg.t % 2 ^ c.spp = 0)
  [chk (bitsOf e 119 48 ≠ 0) 0x11, chk (c.rqShift > 55 || c.spp < 8 || c.spp > 11 || !splits) 0x13,
   chk (!r.valid || (c.mode = 1 && r.mtu < 64 + 4 * 2 ^ c.spp)) 0x19, chk (!checkOk e) 0x20,
   chk (c.valid && c.stokes > 0 && !(decodeChain (entryLast 5 b s)).valid) 0x22] ++ admitBeam b c s

/-- The checks of a chain entry (R147, R154). -/
def chainChecks (i e : Nat) (s : State) : List Check :=
  let c := decodeChain e
  let x := partOf (Fin.ofNat 8 c.monPart) s
  let needs := i < 1024 && (decodeBeam (entryLast 4 i s)).valid && (decodeBeam (entryLast 4 i s)).stokes > 0
  [chk (bitsOf e 119 104 ≠ 0 || bitsOf e 66 64 ≠ 0 || bitsOf e 20 1 ≠ 0 || (i < 1024 && bitsOf e 95 67 ≠ 0)) 0x11,
   chk (c.rmsLog2 > 16 || c.range > 47) 0x13,
   chk (i ≥ 1024 && (!x.started || c.monSlot ≥ x.cfg.inputs || !x.cfg.hasChan c.monChan)) 0x15,
   chk (c.ratio = 0 || c.order > 5 || c.ratio * c.dm > ratioLimit c.order) 0x1A, chk (!checkOk e) 0x20,
   chk (!c.valid && needs) 0x22] ++ (if i < 1024 then admitChainEntry i c s else [])

/-- The checks of a trigger entry (R169). -/
def trigChecks (e : Nat) : List Check := [chk (bitsOf e 119 112 ≠ 0 || bitsOf e 31 2 ≠ 0) 0x11, chk (!checkOk e) 0x20]

/-- The oldest integration of a channel with products still to come (R309): of a batch not yet harvested with its beams sent, of a
batch the chains have not taken, or the last one begun. -/
def oldestInt (p : Fin 8) (x : Part) (ch : Nat) (s : State) : Option Nat :=
  let copies := x.fill.toList ++ x.closed
  let waits := fun (c : Copy) (b : Batch) =>
    b.chan = ch && !b.withheld && !(b.harvested && (c.beams p b s).all fun m => m.1 ∈ b.beamsSent)
  let ints := (copies.flatMap fun c => (c.batches.filter (waits c)).map fun b => x.intOf c.epoch ch b.sub) ++
    (s.det.chainIn.filter fun i => i.part = p && i.chan = ch).map (·.int)
  match ints with
  | [] => x.begunOf ch
  | i :: is => some (is.foldl min i)

/-- A later accepted entry has taken a pending or stored one's place for every product still to come. -/
def replacedBy (e : PendingEntry) (s : State) : Bool :=
  let x := partOf e.part s
  x.cfg.chans.all fun ch => match oldestInt e.part x ch s with | none => false | some i => e.governs x ch i

/-- The beam control entries that still speak for a product, by beam. -/
def liveBeams (s : State) : List BeamCtl :=
  let later := s.tabPending.filter fun e => e.table = 4
  ((List.range 1024).flatMap fun b =>
    let mine := later.filter fun e => e.index = b
    let stored := if mine.any fun e => replacedBy e s then [] else [tabGet 4 0 b s]
    (stored ++ mine.map (·.entry)).map decodeBeam).filter (·.valid)

/-- A route is in use (R309): a started partition, a beam or the capture configuration names it, or a product still to come does. -/
def routeInUse (r : Nat) (s : State) : Bool :=
  ((List.finRange 8).any fun p => (heldSerials p s).any fun n => ((partOf p s).cfgOf n).visRoute = r) || ((liveBeams s).any fun b => b.route = r) ||
  (s.trig.capt.toList ++ (s.trig.accepted.map (·.2)).filter (·.enable)).any fun k => k.route = r

/-- The checks of an output route entry (R309). -/
def routeChecks (i e : Nat) (s : State) : List Check :=
  let r := decodeRoute e
  let old := decodeRoute (tabGet 7 0 i s)
  let n := Fin.ofNat 16384 r.ring
  let ring := ringF fRingCfgEn n s = 1 && ringF fRingCfgType n s = 3
  let bad := r.valid && ((!r.toRing && r.ports = 0) || (!r.toRing && r.portList.any fun g => gmode g s = 0 || gmode g s = 7) ||
    (r.toRing && !ring) || (r.toRing && r.mtu + 32 > ringEntryBytes n s) || r.mtu < 512 || r.mtu > 9146)
  let moved := old.valid && (!r.valid || r.toRing ≠ old.toRing || r.ports ≠ old.ports || r.ring ≠ old.ring)
  let low := r.mtu < old.mtu && (liveBeams s).any fun b => b.route = i && b.mode = 1 && r.mtu < 64 + 4 * 2 ^ b.spp
  [chk (entryBytes e 28 1 / 16 ≠ 0 || entryBytes e 29 1 / 64 ≠ 0 || entryBytes e 33 2 / 16384 ≠ 0 || entryBytes e 35 28 ≠ 0) 0x11,
   chk (bad || (moved && routeInUse i s) || low) 0x19, chk (crc8 (leBytes 63 e) ≠ entryBytes e 63 1) 0x20]

/-- The integration a table write waits for (R301): for the input map and threshold sets all ones name the next staging copy, for the
other tables the next integration whose first batch has not begun. -/
def tableEff (t : Nat) (x : Part) (eff : Nat) : Nat :=
  if eff = 2 ^ 56 - 1 then (if t ≤ 1 then (match x.nextOrd with | none => 0 | some q => x.partInt (q / x.cfg.chanCount)) else x.nextInt)
  else eff

/-- The checks of an entry of a table (R302). -/
def entryChecks (t i e : Nat) (p : Fin 8) (eff : Nat) (s : State) : List Check :=
  match t with
  | 0 => mapChecks p i e (tableEff 0 (partOf p s) eff) s
  | 1 => thrChecks e
  | 2 => [chk (delayTorn e) 0x20]
  | 3 => [chk (bitsOf e 119 48 ≠ 0) 0x11, chk (!checkOk e) 0x20]
  | 4 => beamChecks i e s
  | 5 => chainChecks i e s
  | 6 => trigChecks e
  | _ => routeChecks i e s

/-- A chain entry with the number of its write above its 128 bits: a later write of the same bits takes effect afresh (R153, R156). -/
def numbered (i e : Nat) (s : State) : Nat := e % 2 ^ 128 + (entryLast 5 i s / 2 ^ 128 + 1) * 2 ^ 128

/-- Where an entry of a table is stored. -/
def entryIndex (t i : Nat) (p : Fin 8) : Nat := if t = 0 then p.val * 4096 + i else i

/-- An entry that is accepted (R301, R302): delay entries through their port and routes are in force at once, the others wait for
their integration while the partition is started. -/
def writeEntry (t bank i e : Nat) (p : Fin 8) (eff : Nat) (s : State) : State :=
  let e := if t = 5 then numbered i e s else e
  if t = 2 then portWrite bank i e s
  else if t = 7 then tabSet 7 0 i e s
  else
    let x := partOf p s
    if x.started then
      { s with tabPending := s.tabPending ++ [⟨t, 0, entryIndex t i p, e, p, tableEff t x eff, x.frontier⟩] }
    else
      let s := tabSet t 0 (entryIndex t i p) e s
      if t = 1 then tableThrStale i s else s
where
  /-- A threshold set that changed at once is read afresh at every partition's next boundary. -/
  tableThrStale (i : Nat) (s : State) : State :=
    (List.finRange 8).foldl (fun s q => onPart q (fun x =>
      if x.started then { x with thrStale := if i ∈ x.thrStale then x.thrStale else x.thrStale ++ [i] } else x) s) s

/-- Entries checked and written in ascending index until the first refusal: how many were written, and the check that failed. -/
def writeEntries (t bank : Nat) (p : Fin 8) (eff : Nat) : Nat → List Nat → Nat → State → Nat × Option Check × State
  | _, [], n, s => (n, none, s)
  | i, e :: es, n, s =>
    match firstFail (entryChecks t i e p eff s) with
    | some c => (n, some c, s)
    | none => writeEntries t bank p eff (i + 1) es (n + 1) (writeEntry t bank i e p eff s)

end Sys2Proof.Machine
end

