-- ==== Sys2Proof/Machine/Admission.lean ====
section
/-!
DEFINITION. The descriptors that start, change and stop partitions and write their tables (R76, R77, R134, R159, R163, R181, R300 to
R303).
-/
namespace Sys2Proof.Machine

/-- The checks of a partition configuration that need no other partition (R78, R110, R120, R216, R300). -/
def cfgChecks (c : PartCfg) (s : State) : List Check :=
  [chk (c.chanCount = 0 || c.declRate = 0 || c.period = 0 || c.originNs ≥ 1000000000) 0x13, chk (c.inputs = 0 || c.inputs > 4096) 0x15,
   chk (c.shape = 3 || c.bshape = 3) 0x16, chk (c.t % 256 ≠ 0) 0x17, chk (c.g > 64) 0x18, chk (!(routeOf c.visRoute s).valid) 0x19]

/-- Two channel ranges share a slot. -/
def rangesMeet (a b : PartCfg) : Bool := a.chanFirst < b.chanFirst + b.chanCount && b.chanFirst < a.chanFirst + a.chanCount

/-- CHAN_OVERLAP (R300): against what every other started partition has in force and has accepted. -/
def chanOverlap (p : Fin 8) (c : PartCfg) (s : State) : Check :=
  chk (c.chanFirst + c.chanCount > 16384 || (List.finRange 8).any fun q =>
    let x := partOf q s
    q ≠ p && x.started && (rangesMeet c x.cfg || x.pending.any fun e => rangesMeet c e.cfg)) 0x1C

/-- The refusals of Table 07-1 and R160 under a configuration of the captured partition. -/
def captChecks (k : CaptCfg) (c : PartCfg) (s : State) : List Check :=
  [chk (k.chanCount = 0 || !c.hasChan k.chanFirst || !c.hasChan (k.chanFirst + k.chanCount - 1) ||
      (k.inputs ≠ 0 && k.length (captRegion s) c.bytes < 16)) 0x13,
   chk (k.inputs = 0 || k.inputs > c.inputs) 0x15, chk (!(routeOf k.route s).valid) 0x19]

/-- The checks of START (R300, R181). -/
def startChecks (d : Desc) (s : State) : List Check :=
  let c := decodeCfg d
  let capt := match s.trig.capt with | some k => if k.part = d.part then captChecks k c s else [] | none => []
  cfgChecks c s ++ [chanOverlap d.part c s, chk (partOf d.part s).started 0x30] ++ capt ++ admitPart d.part c 0 s

/-- START's effect (R76, R181): empty copies, every table entry to be read afresh, and capture of this partition begins again. -/
def startPart (d : Desc) (s : State) : State :=
  let p := d.part
  let c := decodeCfg d
  let s := leaveStandby s
  let x := partOf p s
  let at0 := (freeRange (takenRanges (some p) s) c.region).getD 0
  let gran := (placeAll (granRegion s) (granTaken s) [(1, c.granary)]).getD []
  let beams := ((List.range 1024).filter fun b => (decodeBeam (entryLast 4 b s)).part = p.val) ++
    ((List.range 64).map (1024 + ·)).filter fun b => (decodeChain (entryLast 5 b s)).monPart = p.val
  let s := setPart p { Part.idle with started := true, cfg := c, epochs := [⟨1, 0, 0, c, none⟩], serial := 1, partAnchor := ⟨1, 0, 0⟩, stage := 1,
                                      regionAt := at0, ranges := gran.map fun r => ⟨r.1, r.2.1, r.2.2⟩,
                                      stale := List.range 4096, thrStale := List.range 256, seqs := x.seqs, bank := x.bank,
                                      refSample := x.refSample, commit := x.commit } s
  let s := { s with
    beam := { s.beam with reads := storeSet (fun _ => []) s.beam.reads p.val [], raised := s.beam.raised.filter fun r => r.2.1 ≠ p.val,
                          live := s.beam.live.filter fun r => r.1 ≠ p.val, satInt := storeSet (fun _ => []) s.beam.satInt p.val [] },
    det := { s.det with chainIn := s.det.chainIn.filter fun i => i.part ≠ p, monIn := s.det.monIn.filter fun i => i.part ≠ p,
                        chains := s.det.chains.filter fun kv => !(kv.1 / 65536 ∈ beams) } }
  let s := match s.trig.capt with
    | some k => if k.part = p then startCrib k none none { s with trig := { s.trig with placedMax := 0 } } else s
    | none => s
  complete d 0 0 0 s

/-- START (R300). -/
def execStart (tag : BitVec 17) (s : State) : Host.Outcome State Fault Refusal :=
  act (runDesc (· = 0x01) tag.toNat startChecks startPart) s

/-- The integration a configuration or a table write for `p` names (R301). -/
def effOf (p : Fin 8) (eff : Nat) (s : State) : Nat := if eff = 2 ^ 56 - 1 then (partOf p s).nextInt else eff

/-- The checks of CONFIGURE (R77, R132, R154, R300). -/
def configureChecks (d : Desc) (s : State) : List Check :=
  let c := decodeCfg d
  let x := partOf d.part s
  let bs := beamsLast d.part s
  cfgChecks c s ++
    [chk (c.t ≠ x.lastCfg.t && bs.any fun b => c.t % 2 ^ b.2.spp ≠ 0) 0x13, chanOverlap d.part c s,
     chk (bs.any fun b => b.2.stokes > 0 && !(decodeChain (entryLast 5 b.1 s)).valid) 0x22, chk (!x.started) 0x30] ++
    admitPart d.part c (effOf d.part (bitsOf (d.qw 1) 55 0) s) s

/-- CONFIGURE's effect (R77, R109, R301): the configuration waits for its integration with the staging range that a larger region needs
and the Granary range that other blocks need kept for it; named for an integration that some channel has begun, it applies late. -/
def configurePart (d : Desc) (s : State) : State :=
  let p := d.part
  let c := decodeCfg d
  let x := partOf p s
  let eff := effOf p (bitsOf (d.qw 1) 55 0) s
  let kept := (placeAll 33554432 (takenRanges none s) (stageWants p c eff s)).getD []
  let gran := (placeAll (granRegion s) (granTaken s) (granWants p c eff s)).getD []
  let late := x.effApplied eff
  let s := setPart p { x with pending := x.lineup c eff, oldRegions := x.oldRegions ++ kept,
                              ranges := liveRanges p s ++ gran.map fun r => ⟨r.1, r.2.1, r.2.2⟩ } s
  if late > eff then complete d 0x01 late 0 s else complete d 0 0 0 s

/-- CONFIGURE (R77). -/
def execConfigure (tag : BitVec 17) (s : State) : Host.Outcome State Fault Refusal :=
  act (runDesc (· = 0x02) tag.toNat configureChecks configurePart) s

/-- STOP (R76): it takes effect at the next rotation. -/
def execStop (tag : BitVec 17) (s : State) : Host.Outcome State Fault Refusal :=
  act (runDesc (· = 0x03) tag.toNat (fun d s => [chk (!(partOf d.part s).started) 0x30])
    (fun d s => complete d 0 0 0 (onPart d.part (fun x => { x with stopping := true }) s))) s

/-- Entries of `n` bytes that follow each other in host memory from address `a`, as little-endian numbers. -/
def hostEntries (a n count : Nat) (s : State) : List Nat := (List.range count).map fun i => ofLe (hostRead (a + n * i) n s)

/-- The checks of TABLE_WRITE's header (R302). -/
def tableWriteChecks (readOk : Bool) (d : Desc) (_s : State) : List Check :=
  let t := bitsOf (d.qw 1) 59 56
  let first := bitsOf (d.qw 2) 31 0
  let count := bitsOf (d.qw 2) 48 32
  [chk (count = 0 || count > 65536 || count * tableEntry t > bitsOf (d.qw 4) 31 0 ||
      (match tableSize t with | some n => first + count > n | none => false)) 0x13,
   chk (tableSize t).isNone 0x1B, chk (!readOk) 0x50]

/-- TABLE_WRITE's effect (R301, R302): RESULT0 is the count written, or under EFF_LATE the highest integration at which a channel
applies the change. -/
def tableWrite (d : Desc) (s : State) : State :=
  let t := bitsOf (d.qw 1) 59 56
  let eff := bitsOf (d.qw 1) 55 0
  let count := bitsOf (d.qw 2) 48 32
  let x := partOf d.part s
  let r := writeEntries t (bitsOf (d.qw 1) 60 60) d.part eff (bitsOf (d.qw 2) 31 0) (hostEntries (d.qw 3) (tableEntry t) count s) 0 s
  match r.2.1 with
  | some c => complete d c.code r.1 c.r1 r.2.2
  | none =>
    let e := effOf d.part eff s
    if 3 ≤ t && t ≤ 6 && x.started && x.effApplied e > e then complete d 0x01 (x.effApplied e) 0 r.2.2 else complete d 0 r.1 0 r.2.2

/-- TABLE_WRITE (R302). -/
def execTableWrite (tag : BitVec 17) (readOk : Bool) (s : State) : Host.Outcome State Fault Refusal :=
  act (runDesc (· = 0x04) tag.toNat (tableWriteChecks readOk) tableWrite) s

/-- A bank commit accepted (R134): from s_c on, or from the first sub-integration whose reading has not begun; the index applied. -/
def commitBank (p : Fin 8) (sc ref : Nat) (s : State) : Nat × State :=
  let at' := max sc (firstUnread p s)
  let pen := getF fBfBankStatusPending .bfBankStatus s
  let s := setF fBfBankStatusPending .bfBankStatus (putBits pen p.val p.val 1) s
  (at', onPart p (fun x => { x with commit := some ⟨at', ref⟩ }) s)

/-- BANK_COMMIT (R134). -/
def execBankCommit (tag : BitVec 17) (s : State) : Host.Outcome State Fault Refusal :=
  act (runDesc (· = 0x05) tag.toNat (fun d s => [chk (partOf d.part s).commit.isSome 0x31])
    (fun d s =>
      let r := commitBank d.part (d.qw 1) (d.qw 2) s
      if r.1 > d.qw 1 then complete d 0x02 r.1 0 r.2 else complete d 0 0 0 r.2)) s

/-- The fields of CAPTURE_CONFIG (Table 07-1). -/
def decodeCapt (d : Desc) : CaptCfg :=
  let q := d.qw 1
  { enable := bitOf q 0, part := Fin.ofNat 8 (bitsOf q 3 1), cribs := bitsOf q 5 4 + 1, chanFirst := bitsOf q 19 6,
    chanCount := bitsOf q 34 20, inputs := bitsOf q 47 35, route := bitsOf q 55 48 }

/-- The checks of CAPTURE_CONFIG (R159, R160, R163). -/
def captureChecks (d : Desc) (s : State) : List Check :=
  let k := decodeCapt d
  if k.enable then
    if (partOf k.part s).started then captChecks k (partOf k.part s).cfg s ++ [admitCapture k s]
    else [chk (k.chanCount = 0 || k.chanFirst + k.chanCount > 16384) 0x13, chk true 0x14]
  else []

/-- The oldest accepted capture configuration takes effect when no crib is SEALING, HELD or READOUT (R163): every crib's contents go, its
last event still shown, and with ENABLE = 1 a crib records. -/
def captureApply (s : State) : State :=
  match s.trig.accepted with
  | [] => s
  | (tag, k) :: rest =>
    if cribBusy s then s
    else
      let x := partOf k.part s
      let s := { s with trig := { s.trig with accepted := rest, capt := if k.enable then some k else none, placedMax := 0,
                                              cribs := storeMap (fun _ => Crib.free) Crib.cleared s.trig.cribs } }
      let s := if k.enable && x.started && !x.stopped then startCrib k none none s else s
      match descOf tag s with
      | none => s
      | some d => complete d 0 0 0 s

/-- CAPTURE_CONFIG (R159, R163): accepted, it waits its turn. -/
def execCaptureConfig (tag : BitVec 17) (s : State) : Host.Outcome State Fault Refusal :=
  act (runDesc (· = 0x06) tag.toNat captureChecks (fun d s =>
    let k := decodeCapt d
    let s := if k.enable then leaveStandby s else s
    let first := s.trig.accepted = []
    let s := { s with trig := { s.trig with accepted := s.trig.accepted ++ [(d.tag, k)] } }
    if first then captureApply s else s)) s

/-- CAPTURE_CONFIG_APPLY (R163). -/
def execCaptureConfigApply (s : State) : Host.Outcome State Fault Refusal := act captureApply s

/-- The ring of the system region a SOURCE of STATS_READ names (R303). -/
def statsRing (source : Nat) : Option Nat := match source with | 1 => some 0 | 2 => some 1 | 3 => some 3 | 4 => some 4 | _ => none

/-- The checks of STATS_READ (R303). -/
def statsChecks (d : Desc) (s : State) : List Check :=
  let src := bitsOf (d.qw 1) 7 0
  let count := bitsOf (d.qw 2) 48 32
  let size := match statsRing src with | some k => sysRingBytes k | none => if src = 0 then 8 else 0
  let x := partOf d.part s
  [chk (count = 0 || count > 65536 || count * size > bitsOf (d.qw 4) 31 0 ||
      (src = 0 && x.started && bitsOf (d.qw 2) 31 0 + count > x.cfg.inputs)) 0x13,
   chk (src = 0 && !(x.started && x.cfg.hasChan (bitsOf (d.qw 1) 29 16))) 0x14, chk (src ≠ 0 && (statsRing src).isNone) 0x1B]

/-- STATS_READ's effect (R303): the open set's counts with NSUB in RESULT1, or a ring's oldest unread entries with their count in
RESULT0 and the entries overwritten unread in RESULT1. -/
def statsRead (d : Desc) (s : State) : State :=
  let count := bitsOf (d.qw 2) 48 32
  match statsRing (bitsOf (d.qw 1) 7 0) with
  | none =>
    let c := chanOf d.part (bitsOf (d.qw 1) 29 16) s
    let f := fun i => match c with | some c => c.f i | none => 0
    let bs := (List.range count).flatMap fun i => leBytes 8 (f (bitsOf (d.qw 2) 31 0 + i))
    complete d 0 0 (match c with | some c => c.nsub | none => 0) (hostWrite (d.qw 3) bs s)
  | some k =>
    let r := sysRing k s
    let (es, pos, lost) := r.take k 0 count
    let s := setSysRing k (r.seek 0 pos) (hostWrite (d.qw 3) es.flatten s)
    complete d 0 es.length lost s

/-- STATS_READ (R303). -/
def execStatsRead (tag : BitVec 17) (s : State) : Host.Outcome State Fault Refusal :=
  act (runDesc (· = 0x09) tag.toNat statsChecks statsRead) s

/-- PORT_CONFIG (R270): a port's own addresses, their first byte in the lowest bits of the field (Table 12-7). -/
def execPortConfig (tag : BitVec 17) (s : State) : Host.Outcome State Fault Refusal :=
  act (runDesc (· = 0x0A) tag.toNat (fun _ _ => []) (fun d s => complete d 0 0 0
    (onPort (bitsOf (d.qw 1) 2 0) (fun p => { p with mac := ofBe (leBytes 6 (d.qw 2)), ip4 := ofBe (leBytes 4 (d.qw 3)),
                                                     ip6 := ofBe (leBytes 8 (d.qw 4) ++ leBytes 8 (d.qw 5)) }) s))) s

/-- ROLE_ASSIGN (R259). -/
def execRoleAssign (tag : BitVec 17) (s : State) : Host.Outcome State Fault Refusal :=
  act (runDesc (· = 0x0B) tag.toNat
    (fun d s => [chk (match roleKnown (bitsOf (d.qw 1) 15 0) s with | some k => bitsOf (d.qw 1) 47 16 ≤ k.epoch | none => false) 0x36,
      chk (fld fBellCfgAuth s.bell.eff = 0) 0x37])
    (fun d s => complete d 0 0 0 (assignRole (bitsOf (d.qw 1) 15 0)
      ⟨bitsOf (d.qw 1) 47 16, bitsOf (d.qw 1) 61 48, bitOf (d.qw 1) 62, d.part.val⟩ s))) s

/-- TIME_QUALITY (R214): TQ_LOCAL as the host declares it. -/
def execTimeQuality (tag : BitVec 17) (s : State) : Host.Outcome State Fault Refusal :=
  act (runDesc (· = 0x0C) tag.toNat (fun _ s => [chk (timeSource s ≠ 3) 0x3A])
    (fun d s => complete d 0 0 0 (updateTimeq { s with time := { s.time with hostTq := bitsOf (d.qw 1) 7 0 } }))) s

end Sys2Proof.Machine
end

