-- ==== Sys2Proof/Machine/Bell.lean ====
section
/-!
DEFINITION. The Bell network's commands, but for FIRE and ARM records (Machine/Trigger.lean).
-/
namespace Sys2Proof.Machine

/-- At a frame's start the fields of BELL_CFG that wait for it apply (R267). -/
def applyBellCfg (s : State) : State := { s with bell := { s.bell with eff := regOf .bellCfg s } }

/-- The master's view of its returning frames (R246): BREAK from when frames of one direction only return until both do again. -/
def masterBreak (k : Nat) (s : State) : State :=
  let r := ringSt k s
  let a := r.missing.getD 0 3 ≥ 3
  let b := r.missing.getD 1 3 ≥ 3
  let now := if a != b then true else if !a && !b then false else r.brk
  let s1 := onRing k (fun r => { r with brk := now, missing := r.missing.map (· + 1) }) s
  if now && !r.brk then raise .bellRingBreak none (arg0 k 0 0) 0 s1 else s1

/-- This unit's slot body in its own slot in both directions, unless it is muted (R238, R243, R257). -/
def sendSlot (k : Nat) (s : State) : State :=
  if s.bell.muted then s
  else
    let (recs, s) := takeRecs k (slotCapacity s) s
    let b := slotBody k recs s
    let n := some (ownSlot k s)
    let s := bellSend (2 * k + 1) n b (bellSend (2 * k) n b s)
    { s with bell := { s.bell with hbSeq := wrap 32 (s.bell.hbSeq + 1) } }

/-- What of a header no forwarder changes (R246): all but HOPS, CORR, SCHED, SENDER_ID, the direction and the CRC. -/
def headerMark (bs : List Byte) : List Byte :=
  beBytes 1 (beAt bs 0 1 / 8 * 8 + beAt bs 0 1 % 4) ++ (bs.drop 2).take 22 ++ (bs.drop 40).take 8

/-- BELL_FRAME_LAUNCH (R240, R241, R246, R251): a master or a claimant launches its header both ways; every unit then sends its own
slot body. -/
def bellFrameLaunch (k : Nat) (sent : RawStamp) (s : State) : State :=
  if !onLevel k s then s
  else
    let s := applyBellCfg s
    let r := ringSt k s
    let s := if r.state = 4 then
        let s := masterBreak k s
        let (recs, s) := takeRecs (2 + k) 64 s
        bellSend (2 * k) none (ownHeader 1 k 1 recs s) (bellSend (2 * k + 1) none (ownHeader 1 k 0 recs s) s)
      else if r.state = 1 then
        let h := ownHeader 2 k 0 [] s
        let s := onRing k (fun r => { r with claims := (headerMark h :: r.claims).take 16 }) s
        bellSend (2 * k) none (ownHeader 2 k 1 [] s) (bellSend (2 * k + 1) none h s)
      else s
    let s := if r.state = 4 || r.state = 1 then
        let raw := rawValue s.time.bins sent
        let f := frameNow s
        noteSend (2 * k) f raw (noteSend (2 * k + 1) f raw (tdcEdge (10 + 2 * k) sent (tdcEdge (11 + 2 * k) sent s)))
      else s
    showBell (if r.state = 1 then s else sendSlot k s)

/-- BELL_FRAME_LAUNCH (R241). -/
def execBellFrameLaunch (ring : BellRing) (sent : RawStamp) (s : State) : Host.Outcome State Fault Refusal :=
  act (bellFrameLaunch (ringNo ring) sent) s

/-- Local time and role partitions when a unit rejoins after DEAD_FRAMES frames without a valid one (R263): every partition that
holds a role is fence-pending. -/
def rejoin (s : State) : State :=
  if s.tick ≥ s.bell.lastValid + fld fBellCfgDeadFrames s.bell.eff * frameTicks then
    let p := (List.finRange 8).foldl (fun m p => if holdsRole p s && !bitOf (getF fBellFenceFenced .bellFence s) p.val
      then maskBit m p.val true else m) (getF fBellFencePending .bellFence s)
    setFence (getF fBellFenceFenced .bellFence s) p s
  else s

/-- The slot margin of a frame in units of 4 ps (R256): 40 ns less how far the residence, in 2^-8 ps, lies from 400 ns. -/
def marginOf (residence : Int) : Int := (10240000 - (residence - 102400000).natAbs) / 1024

/-- A ring's margin mutes the unit (R257): it counts as a lost source where Bell is its time source (R215). -/
def muteUnit (k lane : Nat) (s : State) : State :=
  let s1 := onRing k (fun r => { r with violated := true }) s
  let s1 := { s1 with bell := { s1.bell with goodRuns := (s1.bell.goodRuns.set (2 * k) 0).set (2 * k + 1) 0 } }
  if s.bell.muted then s1
  else
    let s2 := raise .bellMuted none (arg0 lane 0 0) 0 s1
    if timeSource s2 = 0 then loseSource s2 else s2

/-- Margin, muting and unmuting on a frame that lane `l`'s direction passes on with residence `rho` in 2^-8 ps (R256, R257). -/
def noteMargin (l : Nat) (rho : Int) (s : State) : State :=
  let k := l / 2
  let m := marginOf rho
  let old := s.bell.margins.getD l 10000
  let good := (rho - 102400000).natAbs ≤ 5120000
  let s1 := { s with bell := { s.bell with margins := s.bell.margins.set l m,
                                           goodRuns := s.bell.goodRuns.set l (if good then s.bell.goodRuns.getD l 0 + 1 else 0) } }
  let s2 := if m < 5000 && old ≥ 5000 then raise .bellSlotMargin none (arg0 l 0 0) (unsignedOf 16 m) s1 else s1
  if m ≤ 0 && !(ringSt k s2).violated then muteUnit k l s2
  else if (ringSt k s2).violated && s2.bell.goodRuns.getD (2 * k) 0 ≥ 16 && s2.bell.goodRuns.getD (2 * k + 1) 0 ≥ 16 then
    let s3 := onRing k (fun r => { r with violated := false }) s2
    if s3.bell.muted then s3 else raise .bellUnmuted none 0 0 s3
  else s2

/-- The servo's measurement from a header (R254): the residual joins the last 16, E is the master's error and 3 rms. A muted unit's time
source stays lost (R257). -/
def bellServo (th : Int) (tqMaster : Nat) (s : State) : State :=
  let s1 := servoUpdate th s
  updateTimeq { s1 with time := { s1.time with
    e := errorOf tqMaster + rms3 s1.time.residuals * 400000, holdover := s.bell.muted && s.time.holdover } }

/-- The servo uses a header (R254); BELL_STATUS shows its HOPS. -/
def useHeader (h : HeaderUse) (s : State) : State := setF fBellStatusHops .bellStatus h.hops (bellServo h.theta h.tq s)

/-- A header that waited for its frame's other direction in vain is used (R254). -/
def useHeld (k : Nat) (s : State) : State :=
  match (ringSt k s).held with
  | none => s
  | some h => useHeader h (onRing k (fun r => { r with held := none }) s)

/-- Of the two headers of a frame the servo uses the one with the lower HOPS, the clockwise one when they are equal; the header of a
direction alone as soon as the other direction is known to be missing (R254). -/
def offerHeader (k : Nat) (h : HeaderUse) (s : State) : State :=
  let s := match (ringSt k s).held with
    | some o => if o.frame = h.frame && o.dir ≠ h.dir then s else useHeld k s
    | none => s
  match (ringSt k s).held with
  | some o =>
    useHeader (if h.hops < o.hops || (h.hops = o.hops && h.dir = 0) then h else o) (onRing k (fun r => { r with held := none }) s)
  | none =>
    if (ringSt k s).missing.getD (1 - h.dir) 3 ≥ 3 then useHeader h s else onRing k (fun r => { r with held := some h }) s

/-- A TDC interval in units of 2^-8 ps as local time in units of 2^-16 ns (R225, R247). -/
def localInterval (v : Int) (s : State) : Int := v * 256 * increment s / (1000 * 10737418240)

/-- The L_in that a direction's schedule offset uses, in 2^-16 ns: the first one measured at once, then at most 1 ps a frame toward what
is measured (R241). -/
def nextLin (old : Option Int) (lin : Int) : Int :=
  match old with
  | none => lin
  | some o => o + clampInt (-65) 65 (lin - o)

/-- A stamp moved on by a number of counts of 625 ps. -/
def addCounts (x : RawStamp) (n : Nat) : RawStamp :=
  let c := x.wraps.toNat * 2 ^ 40 + x.coarse.toNat + n
  { x with coarse := BitVec.ofNat 40 c, wraps := BitVec.ofNat 8 (c / 2 ^ 40) }

/-- A header relaunched by a forwarder (R246, R247), `corr` in 2^-16 ns added to CORR and `o` its SCHED. -/
def relaunch (bs : List Byte) (corr o : Int) (s : State) : List Byte :=
  let body := bs.take (bs.length - 4)
  withCrc (body.take 1 ++ beBytes 1 (min 255 (beAt bs 1 1 + 1)) ++ (body.drop 2).take 22 ++
    beBytes 8 (unsignedOf 64 (signedOf 64 (beAt bs 24 8) + corr)) ++ beBytes 6 (unsignedOf 48 o) ++ beBytes 2 (unitId s) ++
    body.drop 40)

/-- The residence of a frame in units of 2^-8 ps of local time (R225, R247). -/
def residence (arrival sent : RawStamp) (s : State) : Int :=
  (rawValue s.time.bins sent - rawValue s.time.bins arrival) * increment s / 10737418240

/-- A forwarder passes a header on (R241, R246, R247): the direction's schedule offset, CORR with L_in and the residence, and the
relaunched marker's stamp. A muted unit relaunches 400 ns after the received marker (R257). -/
def passHeader (lane : Nat) (bs : List Byte) (arrival sent : RawStamp) (s : State) : State :=
  let k := lane / 2
  let d := dirOf lane
  let known := (linkSt lane s).delays ≠ []
  let lin := localInterval (linkDelay lane s) s
  let used := if known then nextLin ((ringSt k s).lins.getD d none) lin else 0
  let s := if known then onRing k (fun r => { r with lins := r.lins.set d (some used) }) s else s
  let o := beAt bs 32 6 + used + 400 * 65536
  let out := if s.bell.muted then addCounts arrival 640 else sent
  let res : Int := if s.bell.muted then 400 * 65536
    else localInterval (rawValue s.time.bins sent - rawValue s.time.bins arrival) s
  let s := noteSend (onward lane) (beAt bs 8 5) (rawValue s.time.bins out) (tdcEdge (10 + onward lane) out s)
  bellSend (onward lane) none (relaunch bs (lin + res) o s) s

/-- A collision while claiming or awaiting a master (R252): the claim stops and a wait of 8 + u frames begins. -/
def claimCollision (k : Nat) (s : State) : State :=
  if (ringSt k s).state ≤ 2 then
    let (u, s) := freeNat s
    raise .bellClaimCollision none (arg0 k 0 0) 0
      (onRing k (fun r => { r with state := 2, collided := true, wait := 8 + u % 64, returns := [(0, 0), (0, 0)] }) s)
  else s

/-- A valid FRAME header at a member (R241, R246, R247, R254): state, master, time, margin, and the relaunch. -/
def memberHeader (lane : Nat) (bs : List Byte) (arrival sent : RawStamp) (s : State) : State :=
  let k := lane / 2
  let d := dirOf lane
  let master := beAt bs 2 2 % 16384
  let r := ringSt k s
  let s1 := onRing k (fun r => { r with state := 3, masterId := master, missing := (r.missing.map (· + 1)).set d 0,
                                        brk := bitOf (beAt bs 7 1) 7, frameNo := beAt bs 8 5, collided := false,
                                        returns := [(0, 0), (0, 0)], silent := false }) s
  let s2 := if r.masterId ≠ master || r.state ≠ 3 then raise .bellMasterChange none (arg0 master k 0) 0 s1 else s1
  let start : Int := (beAt bs 14 6 * 1000000000 + beAt bs 20 4 % 2 ^ 30 : Nat) * 2 ^ 32
  let th := stampTime arrival s2 - (start + (signedOf 64 (beAt bs 24 8) + localInterval (linkDelay lane s2) s2) * 65536)
  let rho := residence arrival sent s2
  let s3 := passHeader lane bs arrival sent s2
  let s4 := if timeSource s3 = 0 && (if isBridge s3 then k = 1 else k = 0) then
      offerHeader k ⟨beAt bs 8 5, d, beAt bs 1 1, th, beAt bs 6 1⟩ s3
    else s3
  noteMargin lane rho s4

/-- A frame the master takes back (R246): it relaunches none, so no residence is measured. -/
def masterHeader (lane : Nat) (s : State) : State :=
  onRing (lane / 2) (fun r => { r with missing := r.missing.set (dirOf lane) 0, silent := false }) s

/-- A marker's arrival on a lane (R223, R248). -/
def noteArrival (lane : Nat) (frame sender : Nat) (arrival : RawStamp) (s : State) : State :=
  let raw := rawValue s.time.bins arrival
  onLink lane (fun k => { k with sender := some sender, arrivals := (raw :: k.arrivals).take 256,
                                 arrived := some (frame % 256, raw) }) s

/-- A claim's key (PRIO, UNIT_ID) of R251. -/
def claimKey (bs : List Byte) : Nat := beAt bs 2 2

/-- This unit's own key. -/
def ownKey (s : State) : Nat := claimPrio s * 16384 + unitId s

/-- BELL_ID_CONFLICT (R253): another unit bears this unit's ID, and this unit mutes until BELL_CFG is rewritten. -/
def idConflict (s : State) : State :=
  let s1 := raise .bellIdConflict none (arg0 (unitId s) 0 0) 0 s
  let s2 := { s1 with bell := { s1.bell with idConflict := true } }
  if s.bell.muted then s2
  else
    let s3 := raise .bellMuted none (arg0 0 0 0) 0 s2
    if timeSource s3 = 0 then loseSource s3 else s3

/-- A claimant's own claim comes back (R251): after 3 consecutive frames in one direction it is master. -/
def claimReturn (k d frame : Nat) (s : State) : State :=
  let x := (ringSt k s).returns.getD d (0, 0)
  let n := if x.2 > 0 && frame = (x.1 + 1) % 2 ^ 40 then x.2 + 1 else 1
  if n ≥ 3 then
    let s1 := onRing k (fun r => { r with state := 4, masterId := unitId s, returns := [(0, 0), (0, 0)], missing := [0, 0], held := none,
                                          silent := false }) s
    raise .bellMasterChange none (arg0 (unitId s) k 0) 0
      { s1 with bell := { s1.bell with margins := (s1.bell.margins.set (2 * k) 10000).set (2 * k + 1) 10000 } }
  else onRing k (fun r => { r with returns := r.returns.set d (frame, n) }) s

/-- A CLAIM header (R251, R253): this unit's own is known by what it launched; of another unit with its ID it raises the conflict, and a
claimant claims no more. -/
def bellClaim (lane : Nat) (bs : List Byte) (arrival sent : RawStamp) (s : State) : State :=
  let k := lane / 2
  let r := ringSt k s
  let mine := beAt bs 2 2 % 16384 = unitId s
  let yield := fun s : State => onRing k (fun r => { r with state := 0, returns := [(0, 0), (0, 0)] }) s
  if mine && headerMark bs ∉ r.claims then idConflict (if r.state = 1 then yield s else s)
  else if r.state = 4 then
    if !mine && claimKey bs < 16384 && claimPrio s = 1 then
      passHeader lane bs arrival sent (onRing k (fun r => { r with state := 0, missing := [3, 3] }) s)
    else s
  else if r.state = 1 then
    if mine then claimReturn k (dirOf lane) (beAt bs 8 5) s
    else if claimKey bs < ownKey s then passHeader lane bs arrival sent (yield s)
    else s
  else passHeader lane bs arrival sent s

/-- A header received (R245 to R247, R251 to R257, R263). -/
def bellHeader (lane : Nat) (bs : List Byte) (arrival sent : RawStamp) (s : State) : State :=
  let k := lane / 2
  let s := tdcEdge (6 + lane) arrival (bellFrame lane s)
  if bs.length < 52 || !crcGood bs then
    let s := bellLaneFail lane (bump (.bellCrcErr (Fin.ofNat 4 lane)) 1 s)
    let s := if isMaster k s then s else bellSend (onward lane) none bs s
    showBell (claimCollision k s)
  else
    let s := noteArrival lane (beAt bs 8 5) (beAt bs 38 2 % 16384) arrival s
    if beAt bs 0 1 / 16 = 2 then showBell (bellClaim lane bs arrival sent s)
    else if beAt bs 0 1 / 16 ≠ 1 then s
    else
      let s := rejoin s
      let s := { s with bell := { s.bell with lastValid := s.tick, isolatedAt := none } }
      showBell (if isMaster k s && beAt bs 2 2 % 16384 = unitId s then masterHeader lane s
        else memberHeader lane bs arrival sent s)

/-- A header's symbols on a lane of a level of this unit (R237, R279); without a start marker they hold no header. -/
def bellHeaderLine (lane : Nat) (line : List Nat) (arrival sent : RawStamp) (s : State) : State :=
  let (bs, s) := lineReceive (64 + lane) line s
  match bs with
  | none => s
  | some bs => if onLevel (lane / 2) s then bellHeader lane bs arrival sent s else s

/-- BELL_HEADER_RECEIVE (R246). -/
def execBellHeaderReceive (lane : Fin 4) (line : List Nat) (arrival sent : RawStamp) (s : State) :
    Host.Outcome State Fault Refusal :=
  act (bellHeaderLine lane.val line arrival sent) s

/-- BELL_CLAIM_RECEIVE (R251); a claim whose CRC fails is the collision of R252. -/
def execBellClaimReceive (lane : Fin 4) (line : List Nat) (arrival sent : RawStamp) (s : State) :
    Host.Outcome State Fault Refusal :=
  act (bellHeaderLine lane.val line arrival sent) s

/-- The link delay a neighbour's report gives (R248): the send it names and the first marker back after the turnaround. -/
def measureLink (lane : Nat) (bs : List Byte) (s : State) : State :=
  let k := linkSt lane s
  if k.sender ≠ some (beAt bs 0 2 % 16384) then s
  else
    let (f, turn) : Nat × Nat := if lane % 2 = 0 then (beAt bs 9 1, beAt bs 15 5) else (beAt bs 8 1, beAt bs 10 5)
    match k.sends.find? fun x => x.1 = f with
    | none => s
    | some (_, t1) =>
      match (k.arrivals.reverse).find? fun t => t ≥ t1 + turn with
      | none => s
      | some t4 => noteDelay lane ((t4 - t1 - turn) / 2) s

/-- A slot body received (R243, R245, R248, R253). A forwarder passes it on unchanged, but for its own slot, which holds its own body
(R246) unless it is muted (log 155). -/
def bellSlot (lane slot : Nat) (bs : List Byte) (s : State) : State :=
  let k := lane / 2
  let pass := fun s : State =>
    if isMaster k s || (slot = ownSlot k s && !s.bell.muted) then s else bellSend (onward lane) (some slot) bs s
  if bs.length < 28 || !crcGood bs then pass (bellLaneFail lane (bump (.bellCrcErr (Fin.ofNat 4 lane)) 1 s))
  else
    let u := beAt bs 0 2 % 16384
    let back := isMaster k s && (s.bell.hbSeq + 2 ^ 32 - beAt bs 4 4) % 2 ^ 32 ≤ 256
    if u = unitId s then (if back then s else showBell (pass (idConflict s)))
    else
      let s := { s with bell := { s.bell with
        members := storeSet (fun _ => none) s.bell.members (memberKey k u) (some (beAt bs 4 4, slot)),
        dead := s.bell.dead.filter (· ≠ memberKey k u) } }
      pass (measureLink lane bs s)

/-- A slot body's symbols on a lane of a level of this unit (R237, R279). -/
def bellSlotLine (lane slot : Nat) (line : List Nat) (s : State) : State :=
  let (bs, s) := lineReceive (64 + lane) line s
  match bs with
  | none => s
  | some bs => if onLevel (lane / 2) s then bellSlot lane slot bs s else s

/-- BELL_SLOT_RECEIVE (R243). -/
def execBellSlotReceive (lane : Fin 4) (slot : Fin 128) (line : List Nat) (s : State) : Host.Outcome State Fault Refusal :=
  act (bellSlotLine lane.val slot.val line) s

/-- BELL_ROLE_RECORD (R260, R262 to R264). -/
def execBellRoleRecord (lane : Fin 4) (rec : List Byte) (s : State) : Host.Outcome State Fault Refusal :=
  if rec.length ≠ 32 then .fault .malformed
  else act (receiveRec lane.val 3 rec fun s =>
    applyRole (beAt rec 6 2) ⟨beAt rec 8 4, beAt rec 12 2 % 16384, bitOf (beAt rec 12 2) 15, beAt rec 14 1⟩ s) s

/-- BELL_DEAD_RECORD (R258). -/
def execBellDeadRecord (lane : Fin 4) (rec : List Byte) (s : State) : Host.Outcome State Fault Refusal :=
  if rec.length ≠ 32 then .fault .malformed
  else act (receiveRec lane.val 4 rec fun s => raise .bellUnitDead none (arg0 (beAt rec 6 2) 0 0) 0 s) s

/-- Delivery of a message by the holder of its role at its epoch; a unit that held the role counts it (R261). -/
def deliverMsg (rec : List Byte) (s : State) : State :=
  let r := beAt rec 6 2
  if holdsAt r (beAt rec 8 4) s then raise .bellMsg none (arg0 r 0 0) 0 (ringAppend 4 rec s)
  else if r ∈ s.bell.heldOnce then
    let s1 := bump .bellWrongRole 1 s
    let due := match s.bell.wrongRoleAt with | none => true | some t => s.tick ≥ t + 400000000
    if due then raise .bellWrongRoleDrop none (arg0 r 0 0) 0
      { s1 with bell := { s1.bell with wrongRoleAt := some s.tick } } else s1
  else s

/-- BELL_MSG_RECORD (R261). -/
def execBellMsgRecord (lane : Fin 4) (rec : List Byte) (s : State) : Host.Outcome State Fault Refusal :=
  if rec.length ≠ 32 then .fault .malformed else act (receiveRec lane.val 5 rec (deliverMsg rec)) s

/-- An eligible unit with a lane up begins its back-off of 0 to 63 frames (R251). -/
def beginBackoff (k : Nat) (s : State) : State :=
  let up := [2 * k, 2 * k + 1].any fun l => getF fLaneBellStatusState (.laneBellStatus (Fin.ofNat 4 l)) s = 4
  if getF fBellCfgMasterElig .bellCfg s = 1 && up then
    let (u, s) := freeNat s
    onRing k (fun r => { r with state := 2, wait := u % 64, collided := false, returns := [(0, 0), (0, 0)] }) s
  else s

/-- BELL_SILENCE_TIMEOUT (R251, R258): a level silent for three frame periods is ISOLATED, and claims when it may; not while a claim,
its back-off or a collision wait runs. A unit is isolated when every level it is on is silent. -/
def silence (k : Nat) (s : State) : State :=
  if onLevel k s && (ringSt k s).state ≠ 1 && (ringSt k s).state ≠ 2 then
    let s := useHeld k s
    let s := onRing k (fun r => { r with state := 0, missing := [3, 3], silent := true }) s
    let all := (ringSt 0 s).silent && (!isBridge s || (ringSt 1 s).silent)
    beginBackoff k (if all then { s with bell := { s.bell with isolatedAt := some (s.bell.isolatedAt.getD s.tick) } } else s)
  else s

/-- BELL_SILENCE_TIMEOUT (R251). -/
def execBellSilenceTimeout (ring : BellRing) (s : State) : Host.Outcome State Fault Refusal :=
  act (fun s => showBell (silence (ringNo ring) s)) s

/-- The end of a level's wait: claiming begins, or after a collision the silence check of R251 again (R252). -/
def backoffEnd (k : Nat) (s : State) : State :=
  if (ringSt k s).state ≠ 2 then s
  else if (ringSt k s).collided then onRing k (fun r => { r with state := 0, collided := false }) s
  else onRing k (fun r => { r with state := 1, returns := [(0, 0), (0, 0)] }) s

/-- BELL_BACKOFF_END (R251). -/
def execBellBackoffEnd (ring : BellRing) (s : State) : Host.Outcome State Fault Refusal :=
  act (fun s => showBell (backoffEnd (ringNo ring) s)) s

/-- BELL_DEAD_TIMEOUT (R258): the master of a level declares a member it has heard there dead and sends a DEAD record. -/
def deadTimeout (k u : Nat) (s : State) : State :=
  match storeGet (fun _ => none) s.bell.members (memberKey k u) with
  | none => s
  | some (hb, _) =>
    if isMaster k s && memberKey k u ∉ s.bell.dead then
      originate 4 (beBytes 2 u ++ beBytes 4 hb ++ beBytes 5 (frameNow s) ++ beBytes 15 0)
        { s with bell := { s.bell with dead := memberKey k u :: s.bell.dead } }
    else s

/-- BELL_DEAD_TIMEOUT (R258). -/
def execBellDeadTimeout (ring : BellRing) (unit : BitVec 14) (s : State) : Host.Outcome State Fault Refusal :=
  act (deadTimeout (ringNo ring) unit.toNat) s

/-- ISOLATE_FENCE_TIMEOUT (R258): every partition that holds a role is fenced. -/
def isolateFence (s : State) : State :=
  if fld fBellCfgIsolateFence s.bell.eff = 1 && s.bell.isolatedAt.isSome then
    (List.finRange 8).foldl (fun s p => if holdsRole p s then fencePart p (roleIdOf p s) (roleEpoch p s) s else s) s
  else s

/-- ISOLATE_FENCE_TIMEOUT (R258). -/
def execIsolateFenceTimeout (s : State) : Host.Outcome State Fault Refusal := act isolateFence s

/-- ROLE_BEACON_TIMER (R259): an authority resends every role it assigned. -/
def execRoleBeaconTimer (s : State) : Host.Outcome State Fault Refusal :=
  act (fun s => if fld fBellCfgAuth s.bell.eff = 1 then
    s.bell.assigned.foldl (fun s a => originate 3 (roleBody a.1 a.2) s) s else s) s

/-- The identity fields of BELL_CFG taken from `v` (R267). -/
def withIdentity (v w : Payload) : Payload :=
  setFld fBellCfgUnitId (fld fBellCfgUnitId v) (setFld fBellCfgRate (fld fBellCfgRate v)
    (setFld fBellCfgBridge (fld fBellCfgBridge v) (setFld fBellCfgMasterElig (fld fBellCfgMasterElig v) w)))

/-- A write of BELL_CFG (R253, R267): identity only while every Bell lane is disabled, the rest at the next frame; a unit muted for
an ID conflict may speak again. UNIT_ID is kept in the Ledger. -/
def bellCfgWrite (v : Payload) (s : State) : State :=
  let off := (List.range 4).all fun l => !bitOf (getF fLaneBellCfgEn .laneBellCfg s) l && laneState (64 + l) s = 0
  let old := regOf .bellCfg s
  let ident := fun w : Payload => (fld fBellCfgUnitId w, fld fBellCfgRate w, fld fBellCfgBridge w, fld fBellCfgMasterElig w)
  let rest := setFld fBellCfgAuth (fld fBellCfgAuth v) (setFld fBellCfgIsolateFence (fld fBellCfgIsolateFence v)
    (setFld fBellCfgDeadFrames (max 1 (fld fBellCfgDeadFrames v)) (setFld fBellCfgTauLog2 (max 6 (fld fBellCfgTauLog2 v)) old)))
  let s := if s.bell.idConflict then showBell { s with bell := { s.bell with idConflict := false } } else s
  if off then
    let s := setReg .bellCfg (withIdentity v rest) s
    let s := { s with bell := { s.bell with eff := withIdentity v s.bell.eff } }
    if fld fBellCfgUnitId v = fld fBellCfgUnitId old then s
    else ledgerQueue (.record (.setting (Reg.bellCfg.offset) (fld fBellCfgUnitId v))) s
  else
    let s := setReg .bellCfg rest s
    if ident v = ident old then s else raise .bellCfgRefused none 0 0 s

/-- BELL_CFG_WRITE (R267). -/
def execBellCfgWrite (m : Master) (value : Payload) (s : State) : Host.Outcome State Fault Refusal := actBy m (bellCfgWrite value) s

end Sys2Proof.Machine
end

