-- ==== Sys2Proof/Machine/Crypto.lean ====
section
/-!
DEFINITION. SHA-384, HMAC-SHA-384 and ECDSA P-384 verification, as the standards the spec names define them (R381, R391; log 61).
-/
namespace Sys2Proof

/-- The integer k-th root of `x` below 2^n, one result bit a round. -/
def rootFrom (k x : Nat) : Nat → Nat → Nat
  | 0, r => r
  | n + 1, r => rootFrom k x n (if (r + 2 ^ n) ^ k ≤ x then r + 2 ^ n else r)

/-- The first 80 primes. -/
def primes80 : List Nat :=
  [2, 3, 5, 7, 11, 13, 17, 19, 23, 29, 31, 37, 41, 43, 47, 53, 59, 61, 67, 71, 73, 79, 83, 89, 97, 101, 103, 107, 109, 113] ++
  [127, 131, 137, 139, 149, 151, 157, 163, 167, 173, 179, 181, 191, 193, 197, 199, 211, 223, 227, 229, 233, 239, 241, 251] ++
  [257, 263, 269, 271, 277, 281, 283, 293, 307, 311, 313, 317, 331, 337, 347, 349, 353, 359, 367, 373, 379, 383, 389, 397, 401, 409]

/-- The round constants: 64 bits of the fraction of each prime's cube root. -/
def shaK : List Nat := primes80.map fun p => rootFrom 3 (p * 2 ^ 192) 68 0 % 2 ^ 64

/-- The initial hash value: 64 bits of the fraction of the square roots of the ninth to sixteenth primes. -/
def shaInit : List Nat := ((primes80.drop 8).take 8).map fun p => rootFrom 2 (p * 2 ^ 128) 68 0 % 2 ^ 64

/-- A 64-bit word rotated right. -/
def ror64 (n x : Nat) : Nat := (x / 2 ^ n + x * 2 ^ (64 - n)) % 2 ^ 64

/-- Exclusive or of three words. -/
def xor3 (a b c : Nat) : Nat := Nat.xor (Nat.xor a b) c

/-- Message schedule words beyond the sixteen of the block, newest first. -/
def shaExtend : Nat → List Nat → List Nat
  | 0, w => w
  | n + 1, w =>
    let a := w.getD 1 0
    let b := w.getD 14 0
    let s1 := xor3 (ror64 19 a) (ror64 61 a) (a / 2 ^ 6)
    let s0 := xor3 (ror64 1 b) (ror64 8 b) (b / 2 ^ 7)
    shaExtend n ((s1 + w.getD 6 0 + s0 + w.getD 15 0) % 2 ^ 64 :: w)

/-- One round on the eight working words. -/
def shaRound (v : List Nat) (kw : Nat × Nat) : List Nat :=
  match v with
  | [a, b, c, d, e, f, g, h] =>
    let t1 := h + xor3 (ror64 14 e) (ror64 18 e) (ror64 41 e) + Nat.xor (Nat.land e f) (Nat.land (2 ^ 64 - 1 - e) g) + kw.1 + kw.2
    let t2 := xor3 (ror64 28 a) (ror64 34 a) (ror64 39 a) + xor3 (Nat.land a b) (Nat.land a c) (Nat.land b c)
    [(t1 + t2) % 2 ^ 64, a, b, c, (d + t1) % 2 ^ 64, e, f, g]
  | _ => v

/-- One block of 128 bytes. -/
def shaBlock (h : List Nat) (bs : List Byte) : List Nat :=
  let w := (shaExtend 64 ((List.range 16).map fun i => beAt bs (8 * i) 8).reverse).reverse
  (h.zip ((shaK.zip w).foldl shaRound h)).map fun x => (x.1 + x.2) % 2 ^ 64

/-- The blocks of a padded message. -/
def shaBlocks : Nat → List Byte → List Nat → List Nat
  | 0, _, h => h
  | n + 1, bs, h => shaBlocks n (bs.drop 128) (shaBlock h (bs.take 128))

/-- SHA-384 of a byte list. -/
def sha384 (bs : List Byte) : List Byte :=
  let n := bs.length
  let z := (239 - n % 128) % 128
  let m := bs ++ [0x80] ++ List.replicate z 0 ++ beBytes 16 (8 * n)
  ((shaBlocks (m.length / 128) m shaInit).take 6).flatMap fun x => beBytes 8 x

/-- HMAC-SHA-384 under a key of at most 128 bytes. -/
def hmac384 (key msg : List Byte) : List Byte :=
  let k := key ++ List.replicate (128 - key.length) 0
  let pad := fun (c : Byte) => k.map fun b => b ^^^ c
  sha384 (pad 0x5C ++ sha384 (pad 0x36 ++ msg))

/-- The field prime of P-384. -/
def p384P : Nat := 2 ^ 384 - 2 ^ 128 - 2 ^ 96 + 2 ^ 32 - 1

/-- The order of P-384's base point. -/
def p384N : Nat := 0xFFFFFFFFFFFFFFFFFFFFFFFFFFFFFFFFFFFFFFFFFFFFFFFFC7634D81F4372DDF581A0DB248B0A77AECEC196ACCC52973

/-- The coefficient b of P-384; a is -3. -/
def p384B : Nat := 0xB3312FA7E23EE7E4988E056BE3F82D19181D9C6EFE8141120314088F5013875AC656398D8A2ED19D2A85C8EDD3EC2AEF

/-- The base point of P-384. -/
def p384G : Nat × Nat :=
  (0xAA87CA22BE8B05378EB1C71EF320AD746E1D3B628BA79B9859F741E082542A385502F25DBF55296C3A545E3872760AB7,
   0x3617DE4A96262C6F5D9E98BF9292DC29F8F41DBD289A147CE9DA3113B5F0B8C00A60B1CE1D7E819D7A431D7C90EA0E5F)

/-- x^e modulo m, for an exponent below 2^n. -/
def powModFrom (m : Nat) : Nat → Nat → Nat → Nat → Nat
  | 0, _, _, r => r
  | n + 1, x, e, r => powModFrom m n (x * x % m) (e / 2) (if e % 2 = 1 then r * x % m else r)

/-- The inverse of x modulo a prime below 2^384. -/
def invMod (m x : Nat) : Nat := powModFrom m 384 (x % m) (m - 2) 1

/-- The sum of two points of P-384, none being the point at infinity. -/
def p384Add (a b : Option (Nat × Nat)) : Option (Nat × Nat) :=
  match a, b with
  | none, _ => b
  | _, none => a
  | some (x1, y1), some (x2, y2) =>
    let p := p384P
    if x1 = x2 ∧ (y1 + y2) % p = 0 then none
    else
      let l := if x1 = x2 then (3 * x1 * x1 + (p - 3)) * invMod p (2 * y1) % p else (y2 + (p - y1)) * invMod p (x2 + (p - x1)) % p
      let x := (l * l + (p - x1) + (p - x2)) % p
      some (x, (l * (x1 + (p - x)) + (p - y1)) % p)

/-- k times a point, for k below 2^n. -/
def p384Mul : Nat → Nat → Option (Nat × Nat) → Option (Nat × Nat) → Option (Nat × Nat)
  | 0, _, _, r => r
  | n + 1, k, q, r => p384Mul n (k / 2) (p384Add q q) (if k % 2 = 1 then p384Add r q else r)

/-- A point of P-384 given by its coordinates. -/
def onP384 (x y : Nat) : Bool :=
  x < p384P && y < p384P && y * y % p384P = (x * x * x + (p384P - 3) * x + p384B) % p384P

/-- ECDSA P-384 verification (FIPS 186-5) of a signature (r, s) over a 48-byte hash under a public point. -/
def ecdsaVerify (hash : List Byte) (x y r s : Nat) : Bool :=
  if r = 0 || s = 0 || r ≥ p384N || s ≥ p384N || !onP384 x y then false
  else
    let w := invMod p384N s
    let u1 := ofBe hash * w % p384N
    let u2 := r * w % p384N
    match p384Add (p384Mul 384 u1 (some p384G) none) (p384Mul 384 u2 (some (x, y)) none) with
    | none => false
    | some (vx, _) => vx % p384N = r

end Sys2Proof
end

