-- ==== Sys2Proof/Machine/Image.lean ====
section
/-!
DEFINITION. Firmware images: the checks of R391, the slots of the Ledger, and FW_WRITE (R393).
-/
namespace Sys2Proof.Machine

/-- `n` bytes of an image store from byte `i`. -/
def imgBytes (get : Nat → Byte) (i n : Nat) : List Byte := (List.range n).map fun k => get (i + k)

/-- A big-endian header field. -/
def imgField (get : Nat → Byte) (i n : Nat) : Nat := ofBe (imgBytes get i n)

/-- LENGTH of an image's body. -/
def imgLength (get : Nat → Byte) : Nat := imgField get 12 4

/-- The header's fields are those of an image (R391). -/
def headerOk (get : Nat → Byte) : Bool :=
  imgField get 0 4 = 0x574F5246 && imgField get 4 2 ≤ 64 && imgField get 6 2 = 0 && imgLength get % 4096 = 0 &&
    imgLength get ≤ 8388608 - 4096

/-- PUBKEY's hash is one of the fused ones whose revoke fuse is intact (R391). -/
def keyOk (get : Nat → Byte) (s : State) : Bool :=
  (List.range 4).any fun k => !(k ∈ s.fuses.revoked) && ofBe (sha384 (imgBytes get 16 96)) = Config.keyHash k

/-- SIG verifies over header bytes 0 to 111 and the body (R391). -/
def sigOk (get : Nat → Byte) : Bool :=
  ecdsaVerify (sha384 (imgBytes get 0 112 ++ imgBytes get 4096 (imgLength get))) (imgField get 16 48) (imgField get 64 48)
    (imgField get 112 48) (imgField get 160 48)

/-- The fault of an image as ERROR codes it, 0 for none (R391, Table 16-8). -/
def imageFault (get : Nat → Byte) (s : State) : Nat :=
  if !headerOk get then 2
  else if !keyOk get s then 3
  else if !sigOk get then 4
  else if imgField get 4 2 < s.fuses.svnMin then 5
  else 0

/-- An image slot. -/
def slotOf (n : Nat) (s : State) : ImgSlot := s.led.slots.getD n ⟨[], 0, true⟩

/-- The state with an image slot stored. -/
def setSlot (n : Nat) (x : ImgSlot) (s : State) : State := { s with led := { s.led with slots := s.led.slots.set n x } }

/-- A byte of a slot; erased flash reads ones. -/
def ImgSlot.byte (x : ImgSlot) (i : Nat) : Byte := storeGet (fun _ => 0xFF) x.bytes i

/-- The fault of a slot: NO_IMAGE where nothing was written or the slot is marked invalid (R391, R393). -/
def slotFault (n : Nat) (s : State) : Nat :=
  let x := slotOf n s
  if x.invalid || x.pages = 0 then 1 else imageFault x.byte s

/-- VERSION of a slot's image; none where it holds none. -/
def slotVersion (n : Nat) (s : State) : Option Nat :=
  let x := slotOf n s
  if x.invalid || x.pages = 0 || imgField x.byte 0 4 ≠ 0x574F5246 then none else some (imgField x.byte 8 4)

/-- A page of a slot programmed (R393). -/
def putPage (n index : Nat) (bytes : List Byte) (s : State) : State :=
  let x := slotOf n s
  setSlot n { x with bytes := storeSetList (fun _ => 0xFF) x.bytes (index * 4096) bytes, pages := x.pages + 1 } s

/-- The slot that runs. -/
def runningSlot (s : State) : Nat := getF fSysBootStatusSlot .sysBootStatus s

/-- The oldest FW_WRITE that has begun and has not ended. -/
def fwDesc (s : State) : Option Desc :=
  s.hif.inflight.find? fun d => d.begun && d.opcode = 0x10 && !d.waits s

/-- The oldest FW_WRITE completes. -/
def fwComplete (status : Nat) (s : State) : State :=
  match fwDesc s with
  | none => s
  | some d => complete d status 0 0 s

/-- The SLOT record of an image write as it is committed (R393): once the pages reach 4,096 + LENGTH the image is checked, and a bad one
marks the slot invalid. -/
def slotCommit (n : Nat) (s : State) : LedRec × State :=
  let x := slotOf n s
  if x.pages * 4096 ≥ 4096 + imgLength x.byte && x.pages > 0 then
    let f := imageFault x.byte s
    if f = 0 then (.slot n x.pages true, fwComplete 0 (raise .sysFwUpdated none (arg0 n 0 0) 0 (setSlot n { x with invalid := false } s)))
    else (.slot n x.pages false, fwComplete 0x39 (raise .sysImageRejected none (n + f * 2 ^ 32) 0 (setSlot n { x with invalid := true } s)))
  else (.slot n x.pages (!x.invalid), fwComplete 0 s)

/-- OFFSET and BUF_LEN of a FW_WRITE (Table 12-8). -/
def fwSpan (d : Desc) : Nat × Nat := (bitsOf (d.qw 1) 31 0, bitsOf (d.qw 3) 31 0)

/-- The checks of FW_WRITE (R393, R397). -/
def fwChecks (readOk : Bool) (d : Desc) (s : State) : List Check :=
  let sp := fwSpan d
  [chk (sp.1 % 4096 ≠ 0 || sp.2 % 4096 ≠ 0 || sp.1 + sp.2 > 8388608) 0x13, chk s.led.readOnly 0x39, chk (!readOk) 0x50]

/-- FW_WRITE queued (R393): at OFFSET 0 the slot is erased first; each page is programmed, and the SLOT record follows. -/
def fwWrite (d : Desc) (s : State) : State :=
  let sp := fwSpan d
  let n := 1 - runningSlot s
  let page := fun i => LedOp.page n (sp.1 / 4096 + i) (hostRead (d.qw 2 + i * 4096) 4096 s)
  let ops := (if sp.1 = 0 then [LedOp.eraseSlot n] else []) ++ (List.range (sp.2 / 4096)).map page ++ [LedOp.record (.slot n 0 false)]
  ops.foldl (fun s o => ledgerQueue o s) s

/-- FW_WRITE (R393). -/
def execFwWrite (tag : BitVec 17) (readOk : Bool) (s : State) : Host.Outcome State Fault Refusal :=
  act (runDesc (· = 0x10) tag.toNat (fwChecks readOk) fwWrite) s

end Sys2Proof.Machine
end

