-- ==== Sys2Proof/Machine/TrigOps.lean ====
section
/-!
DEFINITION. The trigger: ARMs, fires and their dispositions, events, settle, and the trigger log (R166 to R181, R184).
-/
namespace Sys2Proof.Machine

/-- An ARM as a Bell record carries it (Table 10-5). -/
def armBody (a : Arm) (epoch : Nat) : List Byte :=
  beBytes 2 a.id ++ beBytes 8 a.time ++ beBytes 4 a.pre ++ beBytes 4 a.post ++ beBytes 3 a.coinc ++
  beBytes 1 (a.sources * 32 + (if a.rep then 16 else 0)) ++ beBytes 4 epoch

/-- P_min of R167. -/
def postFloor (c : PartCfg) : Nat := 16 * ceilDiv (2 * c.declRate) (16000 * c.chanCount)

/-- A_p of R167; Q_p's 3 × P_p × DECL_RATE / T is 3G. -/
def captureLead (c : PartCfg) : Nat := c.t * (1 + ceilDiv (4 * c.g + ceilDiv (6 * c.declRate) (1000 * c.t)) c.chanCount)

/-- The checks of an ARM (Table 07-3, R167). -/
def armChecks (a : Arm) (s : State) : List Check :=
  chk (a.pre % 16 ≠ 0 || a.post % 16 ≠ 0 || a.coinc % 16 ≠ 0) 0x13 ::
  match capturing s with
  | none => [chk true 0x34]
  | some k =>
    let x := partOf k.part s
    if !x.started then [chk true 0x14]
    else [chk (a.post < postFloor x.cfg) 0x35, chk (a.pre + a.post + a.coinc + captureLead x.cfg > cribLength k s) 0x13]

/-- An event is open: its settle has not ended. -/
def eventOpen (s : State) : Bool := match s.trig.event with | some e => !e.settled | none => false

/-- The accepted ARM that waits takes effect when no event is open and the writer has placed a sample at or after ARM_TIME; an ARM
without sources disarms (R168, Table 07-3). -/
def armEffect (s : State) : State :=
  match s.trig.armPending with
  | [] => s
  | a :: rest =>
    if eventOpen s then s
    else if s.trig.placedMax > a.time then
      raise .trgArmed (s.trig.capt.map (·.part)) (arg0 a.id ((s.trig.capt.map (·.part.val)).getD 0) 0) a.time
        { s with trig := { s.trig with armed := if a.sources = 0 then none else some a, armPending := rest, event := none, eventSeq := 0 } }
    else s

/-- An ARM accepted: it takes the place of one that still waits (log 55). -/
def takeArm (a : Arm) (s : State) : State := armEffect { s with trig := { s.trig with armPending := [a] } }

/-- The order of fires: time, firing unit, beam (R175). -/
def Fire.rank (f : Fire) : Nat := (f.time * 16384 + f.unit) * 1024 + f.beam

/-- A trigger log entry (Table 07-8). -/
def trigLogEntry (f : Fire) (disp crib seq : Nat) (s : State) : List Byte :=
  leBytes 32 (f.time / 256 % 2 ^ 64 * 2 ^ 192 + f.time % 256 * 2 ^ 184 + f.unit * 2 ^ 162 + f.beam * 2 ^ 152 + f.chan * 2 ^ 138 +
    f.source * 2 ^ 136 + disp * 2 ^ 132 + crib * 2 ^ 130 + f.id * 2 ^ 112 + seq % 65536 * 2 ^ 96 + s.time.sec % 2 ^ 34 * 2 ^ 62 +
    s.time.sub / 2 ^ 32 * 2 ^ 32)

/-- A fire written to the trigger log (R184). -/
def logFire (f : Fire) (disp crib seq : Nat) (s : State) : State := ringAppend 3 (trigLogEntry f disp crib seq s) s

/-- The log entry of a superseded winner shows it, where the ring still holds it (Table 07-5, log 56). -/
def logSuperseded (n : Nat) (s : State) : State :=
  let r := sysRing 3 s
  let at' := n % sysRingSize 3
  let e := storeGet (fun _ => []) r.entries at'
  if n + sysRingSize 3 < r.next || e = [] then s
  else setSysRing 3 { r with entries := storeSet (fun _ => []) r.entries at' (leBytes 32 (putBits (ofLe e) 135 132 5)) } s

/-- The copy of the capture partition that holds sample `s0`, where it is open already. -/
def copyAt (k : CaptCfg) (s0 : Nat) (s : State) : Option Copy :=
  let x := partOf k.part s
  (x.fill.toList ++ x.closed).find? fun c => c.batches.any fun b => b.sub = s0 / (x.cfgOf c.epoch).t

/-- The next crib takes over from sample `s0` on (R161, R164, R165): with the captured slots of the copy that holds that sample, where it is
open already. -/
def takeOver (k : CaptCfg) (s0 : Nat) (s : State) : State :=
  let c := copyAt k s0 s
  match cribIn 1 k s, cribIn 0 k s with
  | none, some n =>
    let s := startCrib k (some s0) (c.map fun c => captSlots k c.slots) s
    if c.any fun c => captOverflow k c.slots then raise .trgCaptOverflow (some k.part) (arg0 n 0 0) 0 s else s
  | _, _ => s

/-- EVENT_OPEN (R176): the recording crib seals at S_last, the next one records, TRIG_OUT pulses. -/
def openEvent (a : Arm) (k : CaptCfg) (crib : Nat) (f : Fire) (s : State) : State :=
  let x := cribOf crib s
  let sLast := max (16 * ((f.time / 256 + a.post) / 16) + 15) (x.lastGran.getD 0)
  let seq := wrap 16 s.trig.eventSeq
  let ev : TrigEvent := ⟨a, seq, f, f, crib, 1, (sysRing 3 s).next, s.tick + getF fTrgCfgSettle .trgCfg s * 400000, false⟩
  let x := { x with pos := 0, packets := 0 }
  let s := setCrib crib { x with state := 2, sLast := sLast, id := a.id, seq := seq, winner := some f, preShort := false } s
  let s := { s with trig := { s.trig with event := some ev, eventSeq := s.trig.eventSeq + 1 } }
  let s := takeOver k (sLast + 1) s
  let s := logFire f 0 crib seq (if getF fTrgCfgTrigOutEn .trgCfg s = 1 then pulse 0 100 s else s)
  cribsHeld (raise .trgFireAccepted (some k.part) (arg0 crib k.part.val 0) (f.time / 256) s)

/-- A fire that finds no event open (Table 07-5): it opens one, or is logged without a crib (R180). Answers whether it was captured. -/
def newEvent (a : Arm) (f : Fire) (s : State) : Bool × State :=
  let p := s.trig.capt.map (·.part)
  match capturing s, s.trig.capt.bind fun k => cribIn 1 k s with
  | some k, some crib => (true, openEvent a k crib f s)
  | _, _ =>
    (false, raise .trgNoCrib p (arg0 0 ((p.map (·.val)).getD 0) 0) (f.time / 256) (bump .trgNoCrib 1 (logFire f 2 0 s.trig.eventSeq s)))

/-- After settle, a fire later than the winner and the window opens a new event where the ARM repeats (Table 07-5). -/
def freshAfter (e : TrigEvent) (f : Fire) : Bool := e.settled && e.arm.rep && f.time > e.winner.time + e.arm.coinc * 256

/-- FIRE_DISPOSITION (Table 07-5) of a fire of the armed trigger; answers whether it was disposed of otherwise than as NO_CRIB. -/
def disposeFire (a : Arm) (f : Fire) (s : State) : Bool × State :=
  match s.trig.event with
  | none => newEvent a f s
  | some e =>
    if freshAfter e f then newEvent a f s
    else if e.settled then (true, bump .trgLate 1 (logFire f 4 0 e.seq s))
    else if f.time + e.arm.coinc * 256 < e.opened.time then (true, bump .trgOutside 1 (logFire f 3 0 e.seq s))
    else
      let put := fun (e : TrigEvent) (s : State) => { s with trig := { s.trig with event := some e } }
      if f.rank < e.winner.rank then
        let s := logSuperseded e.entry s
        let s := put { e with winner := f, fires := e.fires + 1, entry := (sysRing 3 s).next } s
        (true, logFire f 0 e.crib e.seq (setCrib e.crib { cribOf e.crib s with winner := some f } s))
      else (true, bump .trgMerged 1 (logFire f 1 e.crib e.seq (put { e with fires := e.fires + 1 } s)))

/-- The FIRE record of a local fire (Table 10-5). -/
def fireBody (f : Fire) (p : Fin 8) (epoch : Nat) : List Byte :=
  beBytes 2 f.id ++ beBytes 8 (f.time / 256) ++ beBytes 1 (f.time % 256) ++ beBytes 1 (f.source * 64 + p.val * 8) ++
  beBytes 2 (f.beam * 64) ++ beBytes 2 f.chan ++ beBytes 4 epoch ++ beBytes 6 0

/-- A local fire of partition `p`: its FIRE record goes out, unless the unit holds an event whose winner is earlier or equal or the
partition is fenced (R174, R262), and it is disposed of. -/
def localFire (a : Arm) (p : Fin 8) (source time beam chan : Nat) (s : State) : Bool × State :=
  let f : Fire := ⟨a.id, time, unitId s, source, beam, chan⟩
  let held : Bool := match s.trig.event with | some e => e.winner.rank ≤ f.rank && !freshAfter e f | none => false
  let s := if held || bitOf (getF fBellFenceFenced .bellFence s) p.val then s
    else originate 1 (fireBody f p (roleEpoch p s)) s
  disposeFire a f s

/-- The ARM in force with a source enabled. -/
def armedFor (source : Nat) (s : State) : Option Arm := s.trig.armed.filter fun a => bitOf a.sources source

/-- Capture samples a packet holds, P_c of R182. -/
def packetSamples (mtu : Nat) (width4 : Bool) : Nat := min 1024 (16 * ((mtu - 80) / (16 * if width4 then 1 else 2)))

/-- Packets of a crib's readout. -/
def Crib.total (x : Crib) (k : CaptCfg) : Nat :=
  k.chanCount * (x.slots.getD []).length * ceilDiv (x.spanLast + 1 - x.spanFirst).toNat x.pc

/-- Readout ends: TRG_CRIB_READ_DONE, and the crib is FREE (R179, R183), its READ_PCT at 100 (log 34). -/
def readDone (crib : Nat) (p : Fin 8) (s : State) : State :=
  freeCrib crib (raise .trgCribReadDone (some p) (arg0 crib p.val 0) 0 (setCrib crib { cribOf crib s with pos := 1, packets := 1 } s))

/-- The span of a crib and how it is marked (R177, R179, R181): first, last, short before, short after. -/
def cribSpan (a : Arm) (x : Crib) (tw lc : Nat) : Int × Int × Bool × Bool :=
  let e : Int := match x.sealedShort with | none => x.sLast | some _ => match x.lastGran with | some g => g | none => -1
  let nominal : Int := 16 * (((tw : Int) - a.pre) / 16)
  let full : Int := 16 * (((tw : Int) + a.post) / 16) + 15
  let last := if x.sealedShort.isSome then min full e else full
  let s0 : Int := match x.s0 with | some z => z | none => x.sLast + 1
  let first := max nominal (max s0 (e + 1 - lc))
  if s0 > last then (s0, s0 - 1, first > nominal, x.sealedShort.isSome && last < full)
  else if first > last then (first, first - 1, first > nominal, x.sealedShort.isSome && last < full)
  else (first, last, first > nominal, x.sealedShort.isSome && last < full)

/-- Settle ends (R178): the winner is final, the crib enters READOUT, and an ARM that waited for the event may take effect. -/
def endSettle (crib : Nat) (e : TrigEvent) (k : CaptCfg) (s : State) : State :=
  let x := cribOf crib s
  let tw := e.winner.time / 256
  let sp := cribSpan e.arm x tw (k.length (captRegion s) (if x.width4 then 1 else 2))
  let y := { x with state := 4, winner := some e.winner, merged := e.fires > 1, spanFirst := sp.1.toNat, spanLast := sp.2.1,
                    preShort := sp.2.2.1, postShort := sp.2.2.2, pos := 0, pc := packetSamples (routeOf k.route s).mtu x.width4 }
  let y := { y with packets := y.total k }
  let s := setCrib crib y { s with trig := { s.trig with event := some { e with settled := true } } }
  let s := if sp.2.2.1 then raise .trgPreShort (some k.part) (arg0 crib k.part.val 0) (tw - y.spanFirst) s else s
  let s := raise .trgCribSealed (some k.part) (y.spanFirst % 2 ^ 64) (unsignedOf 64 y.spanLast) s
  armEffect (if y.packets = 0 then readDone crib k.part s else s)

/-- A capture packet's type header and samples (Table 07-6): packet `j` of channel `chan` and captured slot `m`. -/
def capturePacket (x : Crib) (chan : Nat) (m : CaptSlot) (j : Nat) : List Byte :=
  let first := x.spanFirst + j * x.pc
  let count := min x.pc ((x.spanLast + 1).toNat - first)
  let gran := fun i => storeGet (fun _ => none) x.grans (granKey chan m.slot (first / 16 + i))
  let flags := (List.range (count / 16)).foldl (fun a i => if (gran i).all (·.flag) then a + 2 ^ i else a) 0
  let tw := ((x.winner.map (·.time)).getD 0) / 256
  let word := (if x.postShort then 8 else 0) + (if x.width4 then 4 else 0) + (if x.merged then 2 else 0) + (if x.preShort then 1 else 0)
  let smp := fun q : Int × Int =>
    if x.width4 then beBytes 1 (unsignedOf 4 q.1 * 16 + unsignedOf 4 q.2) else beBytes 1 (unsignedOf 8 q.1) ++ beBytes 1 (unsignedOf 8 q.2)
  beBytes 2 chan ++ beBytes 2 m.slot ++ beBytes 4 m.label ++ beBytes 8 first ++ beBytes 2 count ++ beBytes 2 x.id ++ beBytes 2 x.seq ++
  beBytes 2 word ++ beBytes 8 flags ++ beBytes 8 tw ++ beBytes 1 (((x.winner.map (·.time)).getD 0) % 256) ++ beBytes 1 0 ++
  beBytes 2 ((x.winner.map (·.unit)).getD 0) ++ beBytes 4 (saturateNat 32 (tw - x.spanFirst)) ++
  (List.range (count / 16)).flatMap fun i =>
    ((gran i).map (·.samples)).getD (List.replicate 16 (0, 0)) |>.flatMap smp

/-- The position of a stamp in the sample stream of a configuration, in 1/256 samples (R217); none before its origin. A stamp carries the
upper 16 of its 32 fraction bits (R208). -/
def samplePos (c : PartCfg) (q : Int) : Option Nat :=
  let d := q / 65536 * 65536 - (((c.originS * 1000000000 + c.originNs) * 2 ^ 32 + c.originFrac * 2 ^ 16 : Nat) : Int)
  if d < 0 then none else some ((d * 256).toNat / c.period)

/-- The position of a stamp in a partition's samples (R216, R217): under the configuration its own sample belongs to, one that takes effect
later than the one in force, the one in force, or the one before it. -/
def Part.samplePos (x : Part) (q : Int) : Option Nat :=
  let later := x.points.filter fun z => (Machine.samplePos z.2.2.cfg q).any fun ft => z.1 ≤ ft / 256
  match later.getLast? with
  | some z => Machine.samplePos z.2.2.cfg q
  | none =>
    let now := Machine.samplePos x.cfg q
    if now.any fun ft => x.partAnchor.sa * x.cfg.t ≤ ft / 256 then now
    else match x.epochs with
      | _ :: e :: _ => Machine.samplePos e.cfg q
      | _ => now

end Sys2Proof.Machine
end

