-- ==== Sys2Proof/Machine/Chain.lean ====
section
/-!
DEFINITION. The decimation chain: CIC decimators, scaling, detectors, reports, power packets, range changes and trigger taps (R144 to
R158, R170 to R172).
-/
namespace Sys2Proof.Machine

/-- Where an instance is kept: its entry, channel and Stokes parameter. -/
def chainKey (entry chan stokes : Nat) : Nat := (entry * 16384 + chan) * 4 + stokes

/-- An instance that starts at input `c` under an entry (R149). -/
def newChain (raw c range : Nat) : Chain :=
  let e := decodeChain raw
  { raw := raw, startIdx := c, nextIdx := c, lastMissing := none, clamps := 0, integ := List.replicate e.order 0,
    dly := List.replicate e.order (List.replicate e.dm 0), started := false, peak := 0, hold := 0, env := 0, sum := 0, sum2 := 0,
    rmsLog2 := e.rmsLog2, blkSat := false, blkInc := false, blkChg := false, range := range, newRange := none, later := none,
    tap1 := none, tap2 := none }

/-- The integrators fed one input, each adding the one before it, modulo 2^81 (R146). -/
def integrate : Int → List Int → List Int
  | _, [] => []
  | x, a :: as => let b := (a + x) % 2 ^ 81; b :: integrate b as

/-- The combs: the output and the delay lines moved on (R146). -/
def combs : Int → List (List Int) → Int × List (List Int)
  | y, [] => (y, [])
  | y, d :: ds =>
    let r := combs ((y - d.getLastD 0) % 2 ^ 81) ds
    (r.1, (y :: d.dropLast) :: r.2)

/-- The clamp limits of R150: I and monitor outputs unsigned, Q, U and V signed. -/
def clampOut (stokes : Nat) (x : Int) : Int :=
  if stokes = 0 then clampInt 0 (2 ^ 32 - 1) x else clampInt (-(2 ^ 31 - 1)) (2 ^ 31 - 1) x

/-- A shift by `d`, right with rounding as in R150, left where negative (R157). -/
def shiftBy (d : Int) (v : Int) : Int := if d > 0 then shiftRound v d.toNat else v * 2 ^ (-d).toNat

/-- RANGE_CHANGE_APPLY (R157): the detectors rescaled for the new RANGE; the sums are held to their registers (log 59). -/
def rescale (stokes new : Nat) (x : Chain) : Chain :=
  let d : Int := (new : Int) - x.range
  { x with range := new, newRange := none, peak := clampOut stokes (shiftBy d x.peak), env := clampOut stokes (shiftBy d x.env),
           sum := saturate 50 (shiftBy d x.sum), sum2 := clampInt 0 (2 ^ 82 - 1) (shiftBy (2 * d) x.sum2) }

/-- The peak and envelope detectors (R151). -/
def detectPeak (e : ChainEntry) (o : Int) (x : Chain) : Chain :=
  if !x.started then { x with started := true, peak := o, hold := e.hold, env := o }
  else
    let d := o - x.env
    let env := if d > 0 then x.env + d / 2 ^ e.envAttack else x.env + d / 2 ^ e.envDecay
    if o ≥ x.peak then { x with env := env, peak := o, hold := e.hold }
    else if x.hold > 0 then { x with env := env, hold := x.hold - 1 }
    else { x with env := env, peak := x.peak + (o - x.peak) / 2 ^ e.pkDecay }

/-- An output enters its RMS block; a new RMS_LOG2 applies from a block start of both settings (R151, R153, log 60). -/
def enterBlock (e : ChainEntry) (out : ChainOut) (x : Chain) : Chain :=
  let start := out.k % 2 ^ x.rmsLog2 = 0
  let x := if start then { x with sum := 0, sum2 := 0, blkSat := false, blkInc := false, blkChg := false,
                                  rmsLog2 := if out.k % 2 ^ e.rmsLog2 = 0 then e.rmsLog2 else x.rmsLog2 } else x
  { x with sum := saturate 50 (x.sum + out.o), sum2 := clampInt 0 (2 ^ 82 - 1) (x.sum2 + out.o * out.o), blkSat := x.blkSat || out.sat,
           blkInc := x.blkInc || out.inc, blkChg := x.blkChg || out.chg }

/-- A detector report (Table 06-3). -/
def detectorReport (entry chan stokes k : Nat) (x : Chain) : List Byte :=
  let mean := x.sum / 2 ^ x.rmsLog2
  let rms := isqrt (x.sum2.toNat / 2 ^ x.rmsLog2)
  let u := unsignedOf 32
  leBytes 32 (k * 2 ^ 192 + rms % 2 ^ 32 * 2 ^ 160 + u mean * 2 ^ 128 + u x.peak * 2 ^ 96 + u x.env * 2 ^ 64 + x.range * 2 ^ 58 +
    (if x.blkChg then 2 ^ 57 else 0) + (if x.blkInc then 2 ^ 56 else 0) + (if x.blkSat then 2 ^ 55 else 0) + chan * 2 ^ 38 +
    stokes * 2 ^ 36 + entry * 2 ^ 25)

/-- p(q/256) ≥ THRESH, exactly (R171): linear where `z2` is none. -/
def reaches (th z : Int) (z1 : Int) (z2 : Option Int) (q : Nat) : Bool :=
  match z2 with
  | none => z1 * 256 + q * (z - z1) ≥ th * 256
  | some y => z1 * 131072 + q * 256 * (z - y) + q * q * (z - 2 * z1 + y) ≥ th * 131072

/-- The bisection of R171 between two bounds, a step a round. -/
def bisect (f : Nat → Bool) : Nat → Nat → Nat → Nat
  | 0, _, hi => hi
  | n + 1, lo, hi => let m := (lo + hi) / 2; if f m then bisect f n lo m else bisect f n m hi

/-- The fire time of a crossing at output `k` in 1/256 samples, none where there is no crossing (R170, R171, R172). -/
def crossing (e : ChainEntry) (trig k : Nat) (z : Int) (inc : Bool) (x : Chain) : Option Nat :=
  match x.tap1 with
  | none => none
  | some (z1, inc1) =>
    let th : Int := bitsOf trig 111 32
    if bitOf trig 0 && !inc && !inc1 && z1 < th && th ≤ z then
      let z2 : Option Int := if bitOf trig 1 then (match x.tap2 with | some (y, false) => some y | _ => none) else none
      let q := bisect (reaches th z z1 z2) 8 0 256
      let ft : Int := 256 * k * e.ratio + q * e.ratio - 256 - 128 * e.order * ((e.ratio * e.dm : Nat) - 1)
      if ft < 0 then none else some ft.toNat
    else none

/-- What a batch's inputs give: the instance, its outputs, reports and crossings, newest first. -/
structure ChainRun where
  chain : Chain
  outs : List ChainOut
  reports : List (List Byte)
  fires : List Nat
  deriving DecidableEq, Repr

/-- One output of an instance: scaled, detected, reported at a block's end, and offered to the trigger (R148 to R152, R157, R170). -/
def chainOutput (entry chan stokes trig : Nat) (e : ChainEntry) (z : Int) (r : ChainRun) : ChainRun :=
  let x := r.chain
  let k := (x.nextIdx - 1) / e.ratio
  let from' : Int := ((k + 1) * e.ratio : Nat) - (e.span : Int)
  let inc := from' < x.startIdx || (match x.lastMissing with | some m => from' ≤ m | none => false)
  let chg := match x.newRange with | some n => n ≠ x.range | none => false
  let x := if chg then rescale stokes (x.newRange.getD 0) x else { x with newRange := none }
  let o0 := shiftRound z x.range
  let o := clampOut stokes o0
  let out : ChainOut := ⟨k, o, x.clamps, inc, o ≠ o0, chg⟩
  let fires := match crossing e trig k z inc x with | some t => t :: r.fires | none => r.fires
  let x := enterBlock e out (detectPeak e o { x with tap2 := x.tap1, tap1 := some (z, inc), clamps := 0 })
  let reports := if (k + 1) % 2 ^ x.rmsLog2 = 0 then detectorReport entry chan stokes k x :: r.reports else r.reports
  ⟨x, out :: r.outs, reports, fires⟩

/-- One input of an instance, none where it is missing, with its clamps under R138 (R146, R149). -/
def chainInput (entry chan stokes trig : Nat) (e : ChainEntry) (r : ChainRun) (v : Option Int × Nat) : ChainRun :=
  let x := r.chain
  let integ := integrate (v.1.getD 0) x.integ
  let x := { x with integ := integ, nextIdx := x.nextIdx + 1, clamps := x.clamps + v.2,
                    lastMissing := if v.1.isNone then some x.nextIdx else x.lastMissing }
  if x.nextIdx % e.ratio = 0 then
    let c := combs (integ.getLastD 0) x.dly
    chainOutput entry chan stokes trig e (signedOf 81 (unsignedOf 81 c.1)) { r with chain := { x with dly := c.2 } }
  else { r with chain := x }

/-- The instance as it takes a batch from input `c` on: kept, changed, or started anew by a new ORDER, DM, RATIO, a gap or a loss
(R149, R153). At the integration a table write names its RANGE takes effect, later than any DET_RANGE_SET before it (R156); a gap keeps the
RANGE in force; an instance not there yet has the entry's, or what DET_RANGE_SET made of it. -/
def chainFor (entry raw c : Nat) (old : Option Chain) (s : State) : Chain :=
  let e := decodeChain raw
  let set := storeGet (fun _ => (0, 0)) s.det.ranges entry
  let range := if set.1 > 0 && set.2 ≥ raw / 2 ^ 128 then set.1 - 1 else e.range
  match old with
  | none => newChain raw c range
  | some x =>
    let p := decodeChain x.raw
    if raw ≠ x.raw && (x.nextIdx ≠ c || p.order ≠ e.order || p.dm ≠ e.dm || p.ratio ≠ e.ratio) then newChain raw c e.range
    else if x.nextIdx ≠ c then newChain raw c (x.newRange.getD x.range)
    else if raw ≠ x.raw then { x with raw := raw, newRange := some e.range }
    else x

/-- The instance takes a batch's inputs from input `c` on: the state with it stored, its counters, reports and fires, and its outputs. -/
def runChain (p : Fin 8) (entry chan stokes int c : Nat) (xs : List (Option Int × Nat)) (s : State) : List ChainOut × State :=
  let raw := entryFor 5 entry p chan int s
  let e := decodeChain raw
  let trig := if entry < 1024 && stokes = 0 then entryFor 6 entry p chan int s else 0
  let key := chainKey entry chan stokes
  let r := xs.foldl (chainInput entry chan stokes trig e) ⟨chainFor entry raw c (storeGet (fun _ => none) s.det.chains key) s, [], [], []⟩
  let outs := r.outs.reverse
  let s := { s with det := { s.det with chains := storeSet (fun _ => none) s.det.chains key (some r.chain) } }
  let s := bump (.detSat p) (outs.filter fun o => o.sat).length (bump (.detRangeChg p) (outs.filter fun o => o.chg).length s)
  let s := r.reports.reverse.foldl (fun s b => ringAppend 1 b s) s
  let s := r.fires.reverse.foldl (fun s ft =>
    match armedFor 0 s with
    | some a => if ft / 256 < a.time then s else (localFire a p 0 ft entry chan s).2
    | none => s) s
  (outs, s)

/-- POWER_PACKET (R141, R150): one packet of outputs, each a list of the Stokes parameters at one index. Its STATUS has TORN, MODEL_STALE,
LIVE_EDIT and SUSPECT of the batch that completes its outputs, the model's choice where they span several (log 150). -/
def powerPacket (i : ChainInput) (beam : BeamCtl) (ratio : Nat) (g : List (List ChainOut)) (s : State) : State :=
  let all := g.flatten
  let first := ((all.head?).map (·.k)).getD 0
  let clamps := (g.map fun o => ((o.head?).map (·.clamps)).getD 0).foldl (· + ·) 0
  let sat := all.any (·.sat) || clamps > 0
  let word := if beam.stokes = 4 then 15 else 8
  let s := if sat then beamSaturated i.part i.int i.beam s else s
  let s := if i.marks.suspect then { s with dep := { s.dep with outage := s.dep.outage ++ [i.part.val] } } else s
  sendProduct i.part 0x03 beam.route
    (beBytes 2 i.chan ++ beBytes 2 (word * 4096 + i.beam) ++ beBytes 2 (beamStatus sat i.marks (all.any (·.inc))) ++ beBytes 2 g.length ++
      beBytes 8 first ++ beBytes 4 ratio ++ beBytes 4 (saturateNat 32 clamps) ++ beBytes 8 0 ++
      all.flatMap fun o => beBytes 4 (unsignedOf 32 o.o)) s

/-- Outputs in packets: full ones from the front, at most `n` outputs each, and a new one at a change of RANGE (R150, R157). -/
def packets (n : Nat) (os : List (List ChainOut)) : List (List (List ChainOut)) :=
  os.foldl (fun gs o =>
    match gs.getLast? with
    | none => [[o]]
    | some g => if g.length < n && !o.any (·.chg) then gs.dropLast ++ [g ++ [o]] else gs ++ [[o]]) []

/-- All the power packets of a batch, once every Stokes instance has taken it (R150). -/
def sendPower (i : ChainInput) (s : State) : State :=
  let beam := decodeBeam (entryFor 4 i.beam i.part i.chan i.int s)
  let ratio := (decodeChain (entryFor 5 i.beam i.part i.chan i.int s)).ratio
  if beam.mode < 2 then s
  else
    let by' := fun st => ((i.outs.find? fun o => o.1 = st).map (·.2)).getD []
    let n := (by' 0).length
    let os := (List.range n).map fun j => (List.range beam.stokes).filterMap fun st => (by' st)[j]?
    (packets (powerPer (routeOf beam.route s).mtu beam.stokes) os).foldl (fun s g => powerPacket i beam ratio g s) s

/-- The first sample of the batch an input comes from. -/
def ChainInput.start (i : ChainInput) (s : State) : Nat := i.sub * ((partOf i.part s).cfgOf i.epoch).t

/-- An earlier batch of the channel still owes this beam its samples. -/
def owedEarlier (i : ChainInput) (s : State) : Bool :=
  let x := partOf i.part s
  x.closed.any fun c => c.batches.any fun b =>
    b.chan = i.chan && b.sub * (x.cfgOf c.epoch).t < i.start s && !b.withheld && !(i.beam ∈ b.beamsSent)

/-- Of the batches that wait for an instance, the first in ascending time (R146). -/
def nextInput (beam chan stokes : Nat) (s : State) : Option ChainInput :=
  let l := s.det.chainIn.filter fun i => i.beam = beam && i.chan = chan && stokes ∈ i.left
  (sortBy (fun i : ChainInput => i.start s) l).head?

/-- A batch that some but not all of a beam's Stokes instances have taken. -/
def ChainInput.begun (i : ChainInput) : Bool := i.left ≠ [] && i.outs ≠ []

/-- The instance has taken its batch: a RANGE held back until then stands for its next output (R157). -/
def releaseRange (key : Nat) (s : State) : State :=
  match storeGet (fun _ => none) s.det.chains key with
  | none => s
  | some x =>
    if x.later.isNone then s
    else { s with det := { s.det with chains := storeSet (fun _ => none) s.det.chains key (some { x with newRange := x.later, later := none }) } }

/-- The Stokes value of a detected sample. -/
def stokesOf (st : Nat) (v : Int × Int × Int × Int) : Int :=
  match st with | 0 => v.1 | 1 => v.2.1 | 2 => v.2.2.1 | _ => v.2.2.2

/-- A beam instance takes the earliest batch that waits for it; a rail outside its window pauses it (R330). -/
def chainBeam (beam chan stokes : Nat) (s : State) : State :=
  match nextInput beam chan stokes s with
  | none => s
  | some i =>
    if owedEarlier i s || s.dep.paused then s
    else
      let t := ((partOf i.part s).cfgOf i.epoch).t
      let xs : List (Option Int × Nat) :=
        if i.missing then List.replicate t (none, 0) else (i.samples.zip i.sats).map fun v => (some (stokesOf stokes v.1), v.2)
      let r := runChain i.part beam chan stokes i.int (i.sub * t) xs s
      let j := { i with left := i.left.filter (· ≠ stokes), outs := i.outs ++ [(stokes, r.1)] }
      let s := releaseRange (chainKey beam chan stokes) r.2
      if j.left.isEmpty then sendPower j { s with det := { s.det with chainIn := s.det.chainIn.filter (· ≠ i) } }
      else { s with det := { s.det with chainIn := s.det.chainIn.map fun k => if k = i then j else k } }

/-- A monitor instance takes the oldest batch that waits for it: its granules' POW (Table 06-1). -/
def chainMonitor (entry chan : Nat) (s : State) : State :=
  match s.det.monIn.find? fun i => i.entry = entry && i.chan = chan with
  | none => s
  | some i =>
    let t := ((partOf i.part s).cfgOf i.epoch).t
    let xs : List (Option Int × Nat) := i.pows.map fun v => (v.map fun n => (n : Int), 0)
    let r := runChain i.part entry chan 0 i.int (i.sub * (t / 16)) xs s
    { r.2 with det := { r.2.det with monIn := r.2.det.monIn.filter (· ≠ i) } }

/-- CHAIN_BATCH (R146): one instance takes one batch. -/
def execChainBatch (entry : Nat) (chan : Fin 16384) (stokes : Fin 4) (s : State) : Host.Outcome State Fault Refusal :=
  act (if entry < 1024 then chainBeam entry chan.val stokes.val else chainMonitor entry chan.val) s

/-- A new RANGE for an instance's next output (R156). Where the beam's other Stokes instances have taken a batch that this one has still to
take, it waits until that batch is taken: the Stokes parameters of an output have one RANGE, and so has a packet (R157, log 151). -/
def setRange (key range : Nat) (x : Chain) (s : State) : Chain :=
  if s.det.chainIn.any fun i => i.begun && key % 4 ∈ i.left && chainKey i.beam i.chan (key % 4) = key then { x with later := some range }
  else { x with newRange := some range, later := none }

/-- A write of DET_RANGE_SET (R156, R158); answers whether it was taken. -/
def detRange (v : Payload) (s : State) : Bool × State :=
  let entry := fld fDetRangeSetEntry v
  let range := fld fDetRangeSetRange v
  if range > 47 || entry > 1087 || !(decodeChain (entryNow 5 entry s)).valid then (false, raise .detBadRange none (arg0 entry 0 0) 0 s)
  else
    let raw := entryNow 5 entry s
    let chains := s.det.chains.map fun kv => (kv.1, if kv.1 / 65536 = entry then kv.2.map fun x => setRange kv.1 range x s else kv.2)
    (true, { s with det := { s.det with chains := chains,
                                        ranges := storeSet (fun _ => (0, 0)) s.det.ranges entry (range + 1, raw / 2 ^ 128) } })

/-- DET_RANGE_SET (R156). -/
def execDetRangeSet (m : Master) (value : Payload) (s : State) : Host.Outcome State Fault Refusal := actBy m (fun s => (detRange value s).2) s

end Sys2Proof.Machine
end

