-- ==== Sys2Proof/Machine/Placing.lean ====
section
/-!
DEFINITION. The classifier: frame headers, the checks of Table 02-2, and the placing of granules (R40 to R49).
-/
namespace Sys2Proof.Machine

/-- Place one granule of an accepted frame (R46, R48, R49, R51): into the filling copy, into the lookahead store, or discarded
and counted. A late granule is counted late whether it is mapped or not, and the partition's newest sub-integration is the next whose
buffer will open (log 143). -/
def placeGranule (p : Fin 8) (raw : List (Int × Int)) (pk : Parked) (s : State) : State :=
  let x0 := partOf p s
  let s := if x0.fill.isNone && x0.nextOrd.isNone then openFirst p pk s else s
  let x := partOf p s
  let bits := if (x.cfgAt pk.sample).width4 then 4 else 8
  let inNew := (x.switchFor pk.sample).isSome
  let q := pk.ord x.cfg
  if !inNew && (q < x.firstOpen || pk.sample / x.cfg.t + 2 ^ 20 < x.nextSub) then bump (.ingLate p) 1 s
  else if inNew && (match x.switchFor pk.sample with
      | some (z, e) => pk.sample / e.cfg.t < ceilDiv z e.cfg.t
      | none => false) then bump (.ingLate p) 1 s
  else
    match (if inNew then none else x.fill.bind fun c => (c.batch q).map fun b => (c, b)) with
    | some (c, b) =>
      match c.slots.find? fun m => m.input = pk.input with
      | none => bump (.ingUnmapped p) 16 s
      | some m =>
        if (storeGet (fun _ => none) b.grans (m.slot * 4096 + (pk.sample % x.cfg.t) / 16)).isSome then bump (.ingDup p) 1 s
        else placeInBatch p c b m pk (bump (.ingClamp p) (clampCount raw bits) s)
    | none =>
      if x.parked.any fun o => o.chan = pk.chan && o.sample = pk.sample && o.input = pk.input then bump (.ingDup p) 1 s
      else
        let n := 16 * (x.cfgAt pk.sample).bytes
        if parkedBytes s + n > 1610612736 || parkDebt s + n > 80000000 then readyOldest p (bump (.ingParkDrop p) 1 s)
        else
          let s := parkWritten n (bump (.ingClamp p) (clampCount raw bits) s)
          setPart p { partOf p s with parked := (partOf p s).parked ++ [pk] } s

/-- The header of a Woruf ingress frame (Table 02-1). -/
structure IngressHdr where
  ver : Nat
  hlen : Nat
  fmt4 : Bool
  part : Fin 8
  chanFirst : Nat
  chanCount : Nat
  inFirst : Nat
  inCount : Nat
  timeCount : Nat
  tq : Nat
  sample : Nat
  upflags : Nat
  rsvd : Bool
  magic : Nat
  deriving DecidableEq, Repr

/-- Read the ingress header of a UDP payload (Table 02-1). -/
def readHdr (u : List Byte) : IngressHdr :=
  let b2 := beAt u 2 1
  let b3 := beAt u 3 1
  { ver := b2 / 16, hlen := b2 % 16, fmt4 := bitOf b3 7, part := Fin.ofNat 8 (b3 % 8), chanFirst := bitsOf (beAt u 4 2) 13 0,
    chanCount := bitsOf (beAt u 6 2) 14 0, inFirst := bitsOf (beAt u 8 2) 11 0, inCount := bitsOf (beAt u 10 2) 12 0,
    timeCount := beAt u 12 2, tq := beAt u 14 1, sample := beAt u 16 8, upflags := if b2 / 16 = 2 then beAt u 32 8 else 0,
    rsvd := bitsOf b3 6 3 ≠ 0 || bitsOf (beAt u 4 2) 15 14 ≠ 0 || bitsOf (beAt u 6 2) 15 15 ≠ 0 ||
      bitsOf (beAt u 8 2) 15 12 ≠ 0 || bitsOf (beAt u 10 2) 15 13 ≠ 0 || beAt u 15 1 ≠ 0 || beAt u 24 8 ≠ 0,
    magic := beAt u 0 2 }

/-- Sample (t, c, i) of a frame (R43, R44): two signed bytes, or two signed nibbles. -/
def frameSample (h : IngressHdr) (u : List Byte) (t c i : Nat) : Int × Int :=
  let n := (t * h.chanCount + c) * h.inCount + i
  let o := 8 * h.hlen
  if h.fmt4 then let b := beAt u (o + n) 1; (signedOf 4 (b / 16), signedOf 4 (b % 16))
  else (signedOf 8 (beAt u (o + 2 * n) 1), signedOf 8 (beAt u (o + 2 * n + 1) 1))

/-- The granules of an accepted frame, granule by granule (R45, R48): clamp, then place. -/
def placeFrame (h : IngressHdr) (u : List Byte) (tqLow : Bool) (s : State) : State :=
  let bits := if h.fmt4 then 4 else 8
  let grp := ceilDiv h.inCount 64
  (List.range (h.timeCount / 16)).foldl (fun s g =>
    (List.range h.chanCount).foldl (fun s c =>
      (List.range h.inCount).foldl (fun s i =>
        let raw := (List.range 16).map fun k => frameSample h u (16 * g + k) c i
        let xs := raw.map fun v => (clampOne bits v.1, clampOne bits v.2)
        placeGranule h.part raw
          { chan := h.chanFirst + c, sample := h.sample + 16 * g, input := h.inFirst + i, tqLow := tqLow,
            upflag := bitOf h.upflags (i / grp), samples := xs, clamped := raw ≠ xs } s) s) s) s

/-- The checks of Table 02-2 in the table's order on a payload whose UDP header states `len` bytes: the counter of the first that fails
(R42). -/
def frameCheck (u : List Byte) (len : Nat) (s : State) : Option Counter :=
  let h := readHdr u
  let x := partOf h.part s
  let c := x.cfgAt h.sample
  if u.length < 32 || u.length < 8 * h.hlen then some .ingBadHdr
  else if h.magic ≠ 0x5746 || !((h.ver = 1 && getF fIngCfgV1En .ingCfg s = 1) || (h.ver = 2 && getF fIngCfgV2En .ingCfg s = 1)) ||
      h.hlen ≠ (if h.ver = 1 then 4 else 5) || (h.ver = 1 && h.fmt4) || h.rsvd then some .ingBadHdr
  else if !x.started || x.stopped then some .ingNoPart
  else if h.fmt4 ≠ c.width4 then some (.ingBadRange h.part)
  else if h.chanCount = 0 || h.chanFirst + h.chanCount > 16384 || !c.hasChan h.chanFirst ||
      !c.hasChan (h.chanFirst + h.chanCount - 1) then some (.ingBadRange h.part)
  else if h.inCount = 0 || h.inFirst + h.inCount > 4096 then some (.ingBadRange h.part)
  else if h.timeCount < 16 || h.timeCount % 16 ≠ 0 || h.sample % 16 ≠ 0 ||
      h.sample / c.t ≠ (h.sample + h.timeCount - 1) / c.t then some (.ingBadRange h.part)
  else if len ≠ u.length || len - 8 * h.hlen ≠ h.timeCount * h.chanCount * h.inCount * c.bytes then some .ingBadLen
  else none

/-- A UDP payload to UDP_PORT reaches the classifier (R41, R42): checked, and its granules placed. A stopped device's capture
writer and Mill stop, and ingress of no started partition goes anywhere (R314). -/
def ingressPayload (u : List Byte) (len : Nat) (s : State) : State :=
  match frameCheck u len s with
  | some c => bump c 1 s
  | none =>
    let h := readHdr u
    let tqLow := h.tq < ((partOf h.part s).cfgAt h.sample).tqMin
    let s := if tqLow then bump (.ingLowTq h.part) 1 s else s
    cribsHeld (placeFrame h u tqLow s)

/-- How the classifier sorts an Ethernet frame less its FCS (R40): an ingress payload comes with the length its UDP header states. -/
inductive EthClass where
  | ingress (u : List Byte) (len : Nat)
  | badHdr
  | badCsum
  | other
  deriving DecidableEq, Repr

/-- The one's complement checksum of a UDP datagram with its pseudo-header is right. -/
def udpSumOk (addrs : List Byte) (udp : List Byte) (len : Nat) : Bool :=
  onesSum (addrs ++ beBytes 2 17 ++ beBytes 2 len ++ udp.take len) = 0xFFFF

/-- Classify a frame (R40): tag, IPv4 with options, fragments, IPv6 without extension headers, UDP port and checksum. -/
def ethClass (f : List Byte) (port : Nat) : EthClass :=
  let o := if beAt f 12 2 = 0x8100 then 18 else 14
  let ty := beAt f (o - 2) 2
  if f.length > 9212 then .other
  else if ty = 0x0800 && beAt f o 1 / 16 = 4 then
    let ihl := 4 * (beAt f o 1 % 16)
    let frag := beAt f (o + 6) 2
    let udp := f.drop (o + ihl)
    let len := beAt udp 4 2
    if beAt f (o + 9) 1 ≠ 17 || frag % 8192 ≠ 0 || beAt udp 2 2 ≠ port then .other
    else if bitOf frag 13 then .badHdr
    else if beAt udp 6 2 ≠ 0 && !udpSumOk (bytesAt f (o + 12) 8) udp len then .badCsum
    else .ingress ((udp.take len).drop 8) (len - 8)
  else if ty = 0x86DD && beAt f o 1 / 16 = 6 && beAt f (o + 6) 1 = 17 then
    let udp := f.drop (o + 40)
    let len := beAt udp 4 2
    if beAt udp 2 2 ≠ port then .other
    else if beAt udp 6 2 = 0 then .badHdr
    else if !udpSumOk (bytesAt f (o + 8) 32) udp len then .badCsum
    else .ingress ((udp.take len).drop 8) (len - 8)
  else .other

end Sys2Proof.Machine
end

