-- ==== Sys2Proof/Machine/Ptp.lean ====
section
/-!
DEFINITION. The ordinary PTP clock (R232 to R234): message layouts of IEEE 1588-2019 (log 15), transports, roles and the exchange.
-/
namespace Sys2Proof.Machine

/-- The port the clock runs on. -/
def ptpPort (s : State) : Nat := getF fTimePtpCfgPort .timePtpCfg s

/-- ROLE of the clock. -/
def ptpRole (s : State) : Nat := getF fTimePtpCfgRole .timePtpCfg s

/-- The clock's port identity: the EUI-64 of the port's MAC address, then port number 1 (log 15). -/
def ptpIdentity (s : State) : List Byte :=
  let m := beBytes 6 (portOf (ptpPort s) s).mac
  m.take 3 ++ beBytes 2 0xFFFE ++ m.drop 3 ++ beBytes 2 1

/-- A log interval of TIME_PTP_CFG as a message carries it: 4 bits sign-extended to a byte. -/
def logByte (x : Nat) : Nat := unsignedOf 8 (signedOf 4 x)

/-- A PTP message: the common header of 34 bytes with its correctionField, and its body. -/
def ptpMessage (typ seq flags interval corr : Nat) (body : List Byte) (s : State) : List Byte :=
  beBytes 1 typ ++ beBytes 1 0x12 ++ beBytes 2 (34 + body.length) ++ beBytes 1 (getF fTimePtpCfgDomain .timePtpCfg s) ++
  beBytes 1 0 ++ beBytes 2 flags ++ beBytes 8 corr ++ beBytes 4 0 ++ ptpIdentity s ++ beBytes 2 seq ++
  beBytes 1 (match typ with | 0 => 0 | 1 => 1 | 8 => 2 | 9 => 3 | _ => 5) ++ beBytes 1 interval ++ body

/-- An IPv4 header of 20 bytes for a UDP datagram of `len` bytes. -/
def ip4Header (src dst len : Nat) : List Byte :=
  let h := fun c : Nat => beBytes 2 0x4500 ++ beBytes 2 (20 + len) ++ beBytes 4 0x4000 ++ beBytes 2 0x4011 ++ beBytes 2 c ++
    beBytes 4 src ++ beBytes 4 dst
  h (0xFFFF - onesSum (h 0))

/-- A UDP datagram over IPv6, its checksum over the pseudo-header. -/
def udp6 (src dst sport dport : Nat) (body : List Byte) : List Byte :=
  let n := 8 + body.length
  let d := fun c : Nat => beBytes 2 sport ++ beBytes 2 dport ++ beBytes 2 n ++ beBytes 2 c ++ body
  let sum := 0xFFFF - onesSum (beBytes 16 src ++ beBytes 16 dst ++ beBytes 4 n ++ beBytes 4 17 ++ d 0)
  d (if sum = 0 then 0xFFFF else sum)

/-- A PTP message as an Ethernet frame on the configured transport (R232, Annexes C, D and E of IEEE 1588-2019). -/
def ptpFrame (event : Bool) (msg : List Byte) (s : State) : List Byte :=
  let p := portOf (ptpPort s) s
  let port := if event then 319 else 320
  match getF fTimePtpCfgTransport .timePtpCfg s with
  | 0 =>
    let u := beBytes 2 port ++ beBytes 2 port ++ beBytes 2 (8 + msg.length) ++ beBytes 2 0 ++ msg
    beBytes 6 0x01005E000181 ++ beBytes 6 p.mac ++ beBytes 2 0x0800 ++ ip4Header p.ip4 0xE0000181 u.length ++ u
  | 1 =>
    let dst := 0xFF0E0000000000000000000000000181
    let u := udp6 p.ip6 dst port port (msg ++ beBytes 2 0)
    beBytes 6 0x333300000181 ++ beBytes 6 p.mac ++ beBytes 2 0x86DD ++ beBytes 4 0x60000000 ++ beBytes 2 u.length ++
      beBytes 2 0x1101 ++ beBytes 16 p.ip6 ++ beBytes 16 dst ++ u
  | _ => beBytes 6 0x011B19000000 ++ beBytes 6 p.mac ++ beBytes 2 0x88F7 ++ msg

/-- The state with the clock changed. -/
def onPtp (f : PtpClock → PtpClock) (s : State) : State := { s with time := { s.time with ptp := f s.time.ptp } }

/-- A 10-byte PTP timestamp of a local time in 2^-32 ns. -/
def ptpStamp (q : Int) : List Byte :=
  let u := (q % (2 ^ 48 * secUnits : Nat)).toNat
  beBytes 6 (u / secUnits) ++ beBytes 4 ((u % secUnits) / 2 ^ 32)

/-- A received 10-byte timestamp with a correction in 2^-16 ns, in 2^-32 ns. -/
def readPtpStamp (m : List Byte) (i : Nat) : Int := ((beAt m i 6 * 1000000000 + beAt m (i + 6) 4 : Nat) : Int) * 2 ^ 32

/-- correctionField in 2^-32 ns. -/
def ptpCorrection (m : List Byte) : Int := signedOf 64 (beAt m 8 8) * 2 ^ 16

/-- The port's FEC is RS(544,514) or RS(528,514), whose codewords move its stamps (R234, R269). -/
def portFec (g : Nat) (s : State) : Bool := (2 ≤ gmode g s && gmode g s ≤ 5) || (gmode g s = 1 && (portOf g s).fec)

/-- A PCS stamp on the scale of the count, in units of 2^-8 ps (R234): on the line through the last two stamps of the port clock on channel 15
(log 153), the delimiter's place in its block and, under FEC, in its codeword counted in cycles; none before there are two. -/
def pcsValue (x : PcsStamp) (s : State) : Option Int :=
  match s.time.pcs with
  | [(n1, v1), (n0, v0)] =>
    let d : Int := ((x.cycle : Int) - n1 + (if portFec (ptpPort s) s then x.codeword else 0)) * 66 + x.sfd.val
    some (v1 + divRound (d * (v1 - v0)) (66 * ((n1 : Int) - n0)))
  | _ => none

/-- The local time of a PTP event message, with the latency of its direction (R234); before the port clock has been stamped it is free. -/
def ptpEventTime (sent : Bool) (x : PcsStamp) (s : State) : Int × State :=
  let lat := fun n : Nat => (n : Int) * 2 ^ 32 / 1000
  let l : Int := if sent then -lat (getF fTimePtpLatTx .timePtpLat s) else lat (getF fTimePtpLatRx .timePtpLat s)
  match pcsValue x s with
  | some v => (countTime (v / 160000).toNat (v % 160000).toNat s + l, s)
  | none => let (n, s) := freeNat s; ((n : Int) + l, s)

/-- An event message's stamp for the timestamp queue (R235). -/
def ptpOffer (sent : Bool) (q : Int) (seq msg : Nat) (s : State) : State :=
  if getF fTimeTsqCfgPtpEn .timeTsqCfg s = 1 then tsqOffer q seq (if sent then 0x11 else 0x10) msg s else s

/-- This clock's data set in the order the best master clock algorithm compares (log 15). -/
def ownData (s : State) : List Nat :=
  [getF fTimePtpCfgPriority1 .timePtpCfg s, if ptpRole s = 1 then 255 else 248, 0xFE, 0xFFFF,
   getF fTimePtpCfgPriority2 .timePtpCfg s, ofBe ((ptpIdentity s).take 8)]

/-- Lexicographic order of data sets. -/
def dataBetter : List Nat → List Nat → Bool
  | a :: as, b :: bs => a < b || (a = b && dataBetter as bs)
  | _, _ => false

/-- An Announce's data set, then steps removed and the sender's port identity. -/
def announceData (m : List Byte) : List Nat :=
  [beAt m 47 1, beAt m 48 1, beAt m 49 1, beAt m 50 2, beAt m 52 1, beAt m 53 8, beAt m 61 2, beAt m 20 10]

/-- An announce interval in ticks. -/
def announceTicks (s : State) : Nat :=
  let k := signedOf 4 (getF fTimePtpCfgLogAnnounce .timePtpCfg s)
  if k < 0 then 400000000 / 2 ^ (-k).toNat else 400000000 * 2 ^ k.toNat

/-- A foreign master qualifies by two Announces within four announce intervals (IEEE 1588-2019, log 15). -/
def ForeignMaster.qualified (f : ForeignMaster) (s : State) : Bool := (f.heard.filter fun t => s.tick ≤ t + 4 * announceTicks s).length ≥ 2

/-- The best of the foreign masters that qualify. -/
def bestForeign (s : State) : Option (List Nat) :=
  (s.time.ptp.heard.filter fun f => f.qualified s).foldl (fun b f =>
    match b with | none => some f.data | some d => if dataBetter f.data d then some f.data else b) none

/-- The state decision (R232): the clock follows the best foreign master where it is slave-only or that one is better, else it is master, or
listens while slave-only. -/
def ptpDecide (s : State) : State :=
  match bestForeign s with
  | some d => onPtp (fun c => { c with foreign := some d, state := if ptpRole s = 1 || dataBetter (d.take 6) (ownData s) then 2 else 1 }) s
  | none => onPtp (fun c => { c with foreign := none, state := if c.state = 2 then (if ptpRole s = 2 then 1 else 0) else c.state }) s

/-- Foreign masters unheard for three announce intervals go, and the state follows (announceReceiptTimeout of IEEE 1588-2019, log 15). -/
def ptpExpire (s : State) : State :=
  let keep := s.time.ptp.heard.filter fun f => s.tick ≤ f.heard.headD 0 + 3 * announceTicks s
  if keep = s.time.ptp.heard then s else ptpDecide (onPtp (fun c => { c with heard := keep }) s)

/-- An Announce: its sender is noted, and the best master clock algorithm decides (R232). -/
def ptpAnnounce (m : List Byte) (s : State) : State :=
  let d := announceData m
  let mine := fun f : ForeignMaster => f.data.getD 7 0 = d.getD 7 0
  let old := ((s.time.ptp.heard.find? mine).map (·.heard)).getD []
  ptpDecide (onPtp (fun c => { c with heard := (c.heard.filter fun f => !mine f) ++ [⟨d, (s.tick :: old).take 2⟩] }) s)

/-- The message comes from the master this clock follows. -/
def fromMaster (m : List Byte) (s : State) : Bool :=
  match s.time.ptp.foreign with | some f => s.time.ptp.state = 2 && f.getD 7 0 = beAt m 20 10 | none => false

/-- A Delay_Resp completes an exchange (R214): θ goes to the servo under SOURCE = PTP. -/
def ptpDelayResp (m : List Byte) (s : State) : State :=
  let c := s.time.ptp
  if !fromMaster m s || bytesAt m 44 10 ≠ ptpIdentity s || beAt m 30 2 ≠ wrap 16 (c.delaySeq + 65535) then s
  else match c.t1, c.t2, c.t3 with
    | some t1, some t2, some t3 =>
      let t4 := readPtpStamp m 34 - ptpCorrection m
      let th := ((t2 - t1) - (t4 - t3)) / 2
      let s := onPtp (fun c => { c with t1 := none, t2 := none, t3 := none }) s
      if timeSource s = 2 then servoUpdate th s else s
    | _, _, _ => s

/-- A PTP message received on the clock's port, transport and domain (R233); kinds not supported are counted (R232). -/
def ptpReceive (m : List Byte) (x : PcsStamp) (s : State) : State :=
  let typ := beAt m 0 1 % 16
  let seq := beAt m 30 2
  let (q, s) := if typ ≤ 1 then ptpEventTime false x (ptpExpire s) else (0, ptpExpire s)
  match typ with
  | 0 =>
    let s := ptpOffer false q seq 0 s
    if !fromMaster m s then s
    else if bitOf (beAt m 6 2) 9 then onPtp (fun c => { c with t2 := some (q - ptpCorrection m), t1 := none, waitFollow := some seq }) s
    else onPtp (fun c => { c with t1 := some (readPtpStamp m 34), t2 := some (q - ptpCorrection m), waitFollow := none }) s
  | 1 =>
    let s := ptpOffer false q seq 1 s
    if s.time.ptp.state ≠ 1 then s
    else portFrame (ptpPort s) (ptpFrame false (ptpMessage 9 seq 0 (logByte (getF fTimePtpCfgLogDelayReq .timePtpCfg s)) (beAt m 8 8)
      (ptpStamp q ++ bytesAt m 20 10) s) s) s
  | 8 =>
    if fromMaster m s && s.time.ptp.waitFollow = some seq then
      onPtp (fun c => { c with t1 := some (readPtpStamp m 34 + ptpCorrection m), waitFollow := none }) s
    else s
  | 9 => ptpDelayResp m s
  | 11 => ptpAnnounce m s
  | _ => bump .ptpDiscard 1 s

/-- The PTP message of a frame and its transport: IEEE 802.3, or UDP ports 319 and 320 over IPv4 or IPv6; no IPv4 fragment carries one
(R40). -/
def ptpOf (f : List Byte) : Option (Nat × List Byte) :=
  let o := if beAt f 12 2 = 0x8100 then 18 else 14
  let ty := beAt f (o - 2) 2
  let udp := fun i : Nat => beAt f (i + 2) 2 = 319 || beAt f (i + 2) 2 = 320
  if ty = 0x88F7 then some (2, f.drop o)
  else if ty = 0x0800 && beAt f (o + 9) 1 = 17 && beAt f (o + 6) 2 % 16384 = 0 && udp (o + 4 * (beAt f o 1 % 16)) then
    some (0, f.drop (o + 4 * (beAt f o 1 % 16) + 8))
  else if ty = 0x86DD && beAt f (o + 6) 1 = 17 && udp (o + 40) then some (1, f.drop (o + 48))
  else none

/-- A PTP frame that reached a port (R233). -/
def ptpFrameIn (g transport : Nat) (m : List Byte) (x : PcsStamp) (s : State) : State :=
  if ptpRole s = 0 || g ≠ ptpPort s || transport ≠ getF fTimePtpCfgTransport .timePtpCfg s ||
      beAt m 4 1 ≠ getF fTimePtpCfgDomain .timePtpCfg s || m.length < 44 then bump .ptpDiscard 1 s
  else ptpReceive m x s

/-- PTP_TX_INTERVAL (R232): Sync with its Follow_Up and Announce as master, Delay_Req as slave. -/
def ptpTx (msg : PtpInterval) (sent : PcsStamp) (s : State) : State :=
  let s := ptpExpire s
  let c := s.time.ptp
  let g := ptpPort s
  if !portUp g s then s
  else match msg with
  | .sync =>
    if ptpRole s ≠ 2 || c.state ≠ 1 then s
    else
      let (q, s) := ptpEventTime true sent s
      let iv := logByte (getF fTimePtpCfgLogSync .timePtpCfg s)
      let s1 := portFrame g (ptpFrame true (ptpMessage 0 c.syncSeq 0x0200 iv 0 (beBytes 10 0) s) s) s
      let s2 := portFrame g (ptpFrame false (ptpMessage 8 c.syncSeq 0 iv 0 (ptpStamp q) s1) s1) s1
      ptpOffer true q c.syncSeq 0 (onPtp (fun c => { c with syncSeq := wrap 16 (c.syncSeq + 1) }) s2)
  | .announce =>
    if ptpRole s ≠ 2 || c.state = 2 then s
    else
      let (utc, s) := freeNat s
      let body := beBytes 10 0 ++ beBytes 2 utc ++ beBytes 1 0 ++ beBytes 1 (getF fTimePtpCfgPriority1 .timePtpCfg s) ++
        beBytes 4 0xF8FEFFFF ++ beBytes 1 (getF fTimePtpCfgPriority2 .timePtpCfg s) ++ (ptpIdentity s).take 8 ++ beBytes 2 0 ++
        beBytes 1 0xA0
      let f := ptpFrame false (ptpMessage 11 c.annSeq 0 (logByte (getF fTimePtpCfgLogAnnounce .timePtpCfg s)) 0 body s) s
      onPtp (fun c => { c with annSeq := wrap 16 (c.annSeq + 1), state := 1 }) (portFrame g f s)
  | .delayReq =>
    if ptpRole s = 0 || c.state ≠ 2 then s
    else
      let (q, s) := ptpEventTime true sent s
      let f := ptpFrame true (ptpMessage 1 c.delaySeq 0 0x7F 0 (beBytes 10 0) s) s
      ptpOffer true q c.delaySeq 1
        (onPtp (fun c => { c with t3 := some q, delaySeq := wrap 16 (c.delaySeq + 1) }) (portFrame g f s))

/-- PTP_TX_INTERVAL (R232). -/
def execPtpTxInterval (msg : PtpInterval) (sent : PcsStamp) (s : State) : Host.Outcome State Fault Refusal :=
  act (ptpTx msg sent) s

/-- A write of TIME_PTP_CFG, stored under the limits of Table 09-12. -/
def timePtpCfgWrite (v : Payload) (s : State) : State :=
  let role := fld fTimePtpCfgRole v
  let tr := fld fTimePtpCfgTransport v
  let lim := fun (lo hi : Int) (x : Nat) => unsignedOf 4 (clampInt lo hi (signedOf 4 x))
  let w := setFld fTimePtpCfgRole (if role = 3 then 0 else role) (setFld fTimePtpCfgTransport (if tr = 3 then 0 else tr)
    (setFld fTimePtpCfgLogSync (lim (-7) 4 (fld fTimePtpCfgLogSync v)) (setFld fTimePtpCfgLogAnnounce (lim (-3) 4 (fld fTimePtpCfgLogAnnounce v))
      (setFld fTimePtpCfgLogDelayReq (lim (-7) 5 (fld fTimePtpCfgLogDelayReq v)) (v &&& BitVec.ofNat 48 0xFFFFFFFFFFC0)))))
  let s1 := setReg .timePtpCfg w s
  if getF fTimePtpCfgRole .timePtpCfg s = fld fTimePtpCfgRole w then s1
  else onPtp (fun c => { c with state := 0, heard := [], foreign := none, t1 := none, t2 := none, t3 := none, waitFollow := none }) s1

end Sys2Proof.Machine
end

