-- ==== Sys2Proof/Machine/Ethernet.lean ====
section
/-!
DEFINITION. What an Ethernet port does with a frame it receives (R22, R40, R270, R278, R328).
-/
namespace Sys2Proof.Machine

/-- IFACE of a group: 0 C2M, 1 CR, 2 KR (Table 11-7). -/
def portIface (g : Nat) (s : State) : Nat := getF fLaneGroupCfgIface (.laneGroupCfg (Fin.ofNat 8 g)) s

/-- A port on CR or KR advertises its mode under Clause 73, and at 100GbE the FEC of Clause 91 that the mode leaves open; one on C2M does
not auto-negotiate (R269). -/
def advertise (g : Nat) (s : State) : State :=
  if 1 ≤ gmode g s && gmode g s ≤ 5 && portIface g s ≠ 0 then emit (.advert g (gmode g s) (gmode g s = 1)) s else s

/-- ETH_LINK_LOSS (R278): the port restarts Clause 73 and training; on C2M, which has neither, its lanes wait for the module (R269). -/
def ethLinkLoss (g : Nat) (s : State) : State :=
  if gmode g s = 0 || gmode g s ≥ 6 || !(portOf g s).ethUp then s
  else
    let auto := portIface g s ≠ 0
    let s := (portLanes g s).foldl (fun s n => bump (.laneRetrain (Fin.ofNat 64 n)) 1 s) s
    let s := ethLanes g (if auto then 3 else 0) (onPort g (fun p => { p with ethUp := false, fecRecent := [] }) s)
    raise .laneRetrain none (arg0 (8 * g) g 0) 0 (advertise g s)

/-- FEC results of a frame (R278): counted, reported at most once a second, lasting beyond 1,000 uncorrectable in 1 s. -/
def fecCount (g corr uncorr : Nat) (s : State) : State :=
  let s := bump (.laneFecCorr (Fin.ofNat 8 g)) corr s
  if uncorr = 0 then s
  else
    let s := bump (.laneFecUncorr (Fin.ofNat 8 g)) uncorr s
    let recent := (s.tick, uncorr) :: (portOf g s).fecRecent.filter fun x => s.tick < x.1 + 400000000
    let due := match (portOf g s).fecAt with | none => true | some t => s.tick ≥ t + 400000000
    let s := onPort g (fun p => { p with fecRecent := recent, fecAt := if due then some s.tick else p.fecAt }) s
    let s := if due then raise .laneFecUncorr none (arg0 (8 * g) g 0) uncorr s else s
    if (recent.map (·.2)).foldl (· + ·) 0 > 1000 then ethLinkLoss g s else s

/-- The reply to an ARP request for the port's own address (R270). -/
def arpReply (g : Nat) (f : List Byte) (s : State) : Option (List Byte) :=
  let p := portOf g s
  if beAt f 12 2 = 0x0806 && beAt f 14 8 = 0x0001080006040001 && beAt f 38 4 = p.ip4 then
    some (bytesAt f 22 6 ++ beBytes 6 p.mac ++ beBytes 2 0x0806 ++ beBytes 8 0x0001080006040002 ++ beBytes 6 p.mac ++
      beBytes 4 p.ip4 ++ bytesAt f 22 6 ++ bytesAt f 28 4 ++ beBytes 18 0)
  else none

/-- The reply to a neighbour solicitation for the port's own address (R270). -/
def neighbourReply (g : Nat) (f : List Byte) (s : State) : Option (List Byte) :=
  let p := portOf g s
  if beAt f 12 2 = 0x86DD && beAt f 20 1 = 58 && beAt f 21 1 = 255 && beAt f 54 2 = 0x8700 && beAt f 62 16 = p.ip6 then
    let icmp := fun c : Nat => beBytes 2 0x8800 ++ beBytes 2 c ++ beBytes 4 0x60000000 ++ beBytes 16 p.ip6 ++ beBytes 2 0x0201 ++
      beBytes 6 p.mac
    let dst := bytesAt f 22 16
    let sum := 0xFFFF - onesSum (beBytes 16 p.ip6 ++ dst ++ beBytes 4 32 ++ beBytes 4 58 ++ icmp 0)
    some (bytesAt f 6 6 ++ beBytes 6 p.mac ++ beBytes 2 0x86DD ++ beBytes 4 0x60000000 ++ beBytes 2 32 ++ beBytes 2 0x3AFF ++
      beBytes 16 p.ip6 ++ dst ++ icmp sum)
  else none

/-- Non-ingress handling (R270): PTP, ARP requests and neighbour solicitations for the port's own address; the rest is counted. -/
def nonIngress (g : Nat) (f : List Byte) (x : PcsStamp) (s : State) : State :=
  match ptpOf f with
  | some (tr, m) => ptpFrameIn g tr m x s
  | none =>
    match arpReply g f s with
    | some r => portFrame g r s
    | none => match neighbourReply g f s with
      | some r => portFrame g r s
      | none => bump (.laneOther (Fin.ofNat 8 g)) 1 s

/-- A port's ingress FIFO, one in every mode, is found full (R22): a clock fault, whatever else befell the frame in progress, which is
discarded. The event numbers it by the port, past the 14 clocks (log 138). -/
def fifoFault (g : Nat) (s : State) : State := raise .clkMonFault none (arg0 (14 + g) g 0) 0 s

/-- ETH_FRAME_RECEIVE (R22, R40, R270, R278, R328). -/
def ethFrame (g : Nat) (rx : EthRx) (s : State) : State :=
  if !portUp g s then s
  else
    let s := fecCount g rx.fecCorr rx.fecUncorr s
    let body := rx.frame.take (rx.frame.length - 4)
    if rx.fifoFull then fifoFault g s
    else if rx.fecUncorr > 0 then s
    else if rx.frame.length > 9216 || rx.frame.length < 18 || leAt rx.frame (rx.frame.length - 4) 4 ≠ crc32 body then
      bump (.laneFcsErr (Fin.ofNat 8 g)) 1 s
    else if rx.parityError then sramError .uncorrectable s
    else match ethClass body (getF fIngCfgUdpPort .ingCfg s) with
      | .ingress u n => ingressPayload u n s
      | .badHdr => bump .ingBadHdr 1 s
      | .badCsum => bump .ingBadCsum 1 s
      | .other => nonIngress g body rx.stamp s

/-- ETH_FRAME_RECEIVE (R270). -/
def execEthFrameReceive (port : Fin 8) (rx : EthRx) (s : State) : Host.Outcome State Fault Refusal := act (ethFrame port.val rx) s

end Sys2Proof.Machine
end

