-- ==== Sys2Proof/Machine/DmaOps.lean ====
section
/-!
DEFINITION. The DMA engine: windows, bursts, the end of a transfer and of a chain (R367 to R376).
-/
namespace Sys2Proof.Machine

/-- A window of the DMA address map (Table 15-3), with the place in it. -/
inductive DmaPlace where
  | host (a : Nat)
  | steward (core addr : Nat)
  | delay (bank offset : Nat)
  | scratch (a : Nat)
  deriving DecidableEq, Repr

/-- Bytes of the system region beyond the need of R191: the system scratch window. -/
def scratchBytes (s : State) : Nat :=
  (getF fMemLayoutSysMib .memLayout s * pa s * 128 - (3264 * 128 + captMib s * pa s)) * 8192

/-- The window that holds `n` bytes from address `a` and whose alignment rule they keep (R368). -/
def dmaPlace (a n : Nat) (write : Bool) (s : State) : Option DmaPlace :=
  let stw := 0x1000000000000000
  let del := 0x1000000100000000
  let scr := 0x1000000200000000
  if a + n ≤ 2 ^ 60 then some (.host a)
  else if stw ≤ a && a < stw + 8 * 0x40000 then
    let c := (a - stw) / 0x40000
    let o := (a - stw) % 0x40000
    if o + n ≤ 0x40000 && o % 4 = 0 && n % 4 = 0 then some (.steward c (o / 4)) else none
  else if del ≤ a && a < del + 0x8000000 then
    let o := a - del
    if o % 0x4000000 + n ≤ 0x4000000 && (!write || (o % 16 = 0 && n % 16 = 0)) then some (.delay (o / 0x4000000) (o % 0x4000000)) else none
  else if scr ≤ a && a + n ≤ scr + scratchBytes s then some (.scratch (a - scr))
  else none

/-- The target port of a DMA place and the address at it (Table 15-3): HBM by its interleave. -/
def DmaPlace.target (p : DmaPlace) (s : State) : FabTarget × Nat :=
  let hbm := fun o => let x := portAddr (placeOf .sys o s); (.hbm (Fin.ofNat 64 x.1), x.2)
  match p with
  | .host a => (.hostOut, a)
  | .steward c a => (.stwMem (Fin.ofNat 8 c), 4 * a)
  | .delay k o => hbm (delayBase + k * 67108864 + o)
  | .scratch a => hbm (scratchBase s + a)

/-- A channel's burst is raised at the target port of its place (R367); its serial is the fabric's next. -/
def dmaRaise (ch : Nat) (write : Bool) (p : DmaPlace) (n : Nat) (data : List Byte) (s : State) : State :=
  let t := p.target s
  raiseReq (targetKey t.1) ⟨.dma, Fin.ofNat 32 ch, write, t.2, n, data⟩ s

/-- The response to a serial, where it has come. -/
def replyOf (n : Nat) (s : State) : Option (Option (List Byte)) := (s.fab.replies.find? fun r => r.serial = n).map (·.bytes)

/-- The response is taken. -/
def takeReply (n : Nat) (s : State) : State := { s with fab := { s.fab with replies := s.fab.replies.filter fun r => r.serial ≠ n } }

/-- A delay entry among `n` bytes of a bank is poisoned (R201). -/
def delayPoisoned (k o n : Nat) (s : State) : Bool :=
  (List.range ((o % 16 + n + 15) / 16)).any fun j => bitOf (tabGet 2 k (o / 16 + j) s) 128

/-- Read `n` bytes at a place; none where the host cannot be reached or the data is poisoned (R201, Table 15-4). -/
def dmaRead (p : DmaPlace) (n : Nat) (s : State) : Option (List Byte) :=
  match p with
  | .host a => if hostOpen s then some (hostRead a n s) else none
  | .steward c a => some ((List.range (n / 4)).flatMap fun i => leBytes 4 ((coreOf c s).container (a + i)))
  | .delay k o =>
    if delayPoisoned k o n s then none
    else some ((List.range n).map fun i => BitVec.ofNat 8 (entryBytes (tabGet 2 k ((o + i) / 16) s) ((o + i) % 16) 1))
  | .scratch a => some (storeGetList (fun _ => 0) s.scratch a n)

/-- Write bytes at a place; none where the host cannot be reached. -/
def dmaWrite (p : DmaPlace) (bs : List Byte) (s : State) : Option State :=
  match p with
  | .host a => if hostOpen s then some (hostWrite a bs s) else none
  | .steward c a => some ((List.range (bs.length / 4)).foldl (fun s i => onCore c (Core.putContainer (a + i) (leAt bs (4 * i) 4)) s) s)
  | .delay k o => some ((List.range (bs.length / 16)).foldl (fun s i => portWrite k (o / 16 + i) (leAt bs (16 * i) 16) s) s)
  | .scratch a => some { s with scratch := storeSetList (fun _ => 0) s.scratch a bs }

/-- A channel that runs. -/
def dmaOf (ch : Nat) (s : State) : Option DmaChan := storeGet (fun _ => none) s.dma ch

/-- The state with a channel stored; none when it idles. -/
def setDma (ch : Nat) (c : Option DmaChan) (s : State) : State := { s with dma := storeSet (fun _ => none) s.dma ch c }

/-- A channel's registers. -/
def dmaReg (f : Fin 32 → Reg) (ch : Nat) : Reg := f (Fin.ofNat 32 ch)

/-- Source and destination overlap (R370). -/
def DmaChan.overlaps (c : DmaChan) : Bool := c.src < c.dst + c.count && c.dst < c.src + c.count

/-- The length of the next burst: cut at every 256 B boundary of source and destination (R370). -/
def DmaChan.burst (c : DmaChan) : Nat :=
  min (c.count - c.next) (min (256 - (c.src + c.next) % 256) (256 - (c.dst + c.next) % 256))

/-- A channel pauses in THROTTLE when it is the host's (Table 16-6). -/
def dmaPaused (ch : Nat) (s : State) : Bool := ch < 28 && throttled s

/-- The writes of bursts read are issued in order (R370); a burst whose destination fails ends the transfer (R373). -/
def dmaIssueWrites (ch : Nat) : Nat → State → State
  | 0, s => s
  | n + 1, s =>
    match dmaOf ch s with
    | none => s
    | some c =>
      match c.got with
      | [] => s
      | (o, bs) :: rest =>
        match dmaPlace (c.dst + o) bs.length true s with
        | none => setDma ch (some { c with got := [], ending := some 3, discard := true }) s
        | some p => dmaIssueWrites ch n (setDma ch (some { c with got := rest, writes := c.writes ++ [(o, bs.length, s.fab.serial)] })
            (dmaRaise ch true p bs.length bs s))

/-- The channel whose turn at the engine comes next: active channels take bursts in round-robin order (R370). It stands beside the turns of the
slices, under 9. -/
def dmaTurn (s : State) : Nat := storeGet (fun _ => 0) s.fab.turn 9

/-- A channel has taken its burst: the turn is the next one's. -/
def dmaTook (ch : Nat) (s : State) : State :=
  { s with fab := { s.fab with turn := storeSet (fun _ => 0) s.fab.turn 9 ((ch + 1) % 32) } }

/-- Issue reads while fewer than 16 bursts are outstanding, one at a time where the ranges overlap; a burst outside every window fails
the transfer (R368, R370). -/
def dmaIssueReads (ch : Nat) : Nat → State → State
  | 0, s => s
  | n + 1, s =>
    match dmaOf ch s with
    | none => s
    | some c =>
      let out := c.reads.length + c.got.length + c.writes.length
      if c.ending.isSome || c.next ≥ c.count || out ≥ 16 || (c.overlaps && out > 0) || dmaPaused ch s then s
      else
        let len := c.burst
        match dmaPlace (c.src + c.next) len false s with
        | none => setDma ch (some { c with ending := some 2 }) s
        | some p =>
          if (dmaPlace (c.dst + c.next) len true s).isNone then setDma ch (some { c with ending := some 3 }) s
          else dmaIssueReads ch n (setDma ch (some { c with next := c.next + len, reads := c.reads ++ [(c.next, len, s.fab.serial)] })
            (dmaTook ch (dmaRaise ch false p len [] s)))

/-- The address a descriptor may have (R375): 32 B-aligned, in the host memory or the scratch window. -/
def descPlace (a : Nat) (s : State) : Option DmaPlace :=
  if a % 32 ≠ 0 then none
  else match dmaPlace a 32 false s with
    | some (.host b) => some (.host b)
    | some (.scratch b) => some (.scratch b)
    | _ => none

/-- A channel that waits for a descriptor raises its fetch, unless its class drains (R36, R375). -/
def dmaFetch (ch : Nat) (c : DmaChan) (s : State) : State :=
  match (if .dma ∈ s.fab.draining then none else descPlace c.descAt s) with
  | none => setDma ch (some c) s
  | some p => setDma ch (some { c with fetchNo := some s.fab.serial }) (dmaRaise ch false p 32 [] s)

/-- A channel issues what it may, at most `n` reads: nothing while its class drains (R36); the fetch of its descriptor (R375), or writes, then
reads. -/
def dmaIssue (ch n : Nat) (s : State) : State :=
  match dmaOf ch s with
  | none => s
  | some c =>
    if .dma ∈ s.fab.draining then s
    else if c.fetching then
      if c.fetchNo.isNone && !dmaPaused ch s then dmaFetch ch c s else s
    else dmaIssueReads ch n (dmaIssueWrites ch 16 s)

/-- The channel's STATUS and flags at its end (R371 to R376): DONE, RESULT, RESIDUE, BUSY, ABORT cleared, the event. -/
def dmaFinish (ch result residue : Nat) (s : State) : State :=
  let done := match dmaOf ch s with | some c => if c.chain then c.done else 0 | none => 0
  let r := dmaReg .dmaStatus ch
  let s := setReg r (BitVec.ofNat 48 (result * 2 ^ 45 + 2 ^ 43 + (done % 1024) * 2 ^ 33 + residue % 2 ^ 33)) s
  let s := setF fDmaCtlAbort (dmaReg .dmaCtl ch) 0 (setDma ch none s)
  if result = 0 then
    if getF fDmaCtlEvtEn (dmaReg .dmaCtl ch) s = 1 then raise .dmaDone none (arg0 ch 0 0) 0 s else s
  else raise (if result = 1 then .dmaAbort else .dmaBusError) none (arg0 ch 0 result) residue s

/-- The write-back record of a descriptor (R376); none where its place does not take it. -/
def dmaRecord (c : DmaChan) (result residue : Nat) (s : State) : Option State :=
  match dmaPlace (c.ringAt + 16 * (c.k % 256)) 16 true s with
  | none => none
  | some p => dmaWrite p (leBytes 8 (residue % 2 ^ 33 + result * 2 ^ 33 + 2 ^ 63) ++ leBytes 8 c.descAt) s

/-- A descriptor or a register-mode transfer ends (R371, R372, R376): the record, then the next descriptor or the channel's end. -/
def dmaEnd (ch : Nat) (c : DmaChan) (result residue : Nat) (s : State) : State :=
  if !c.chain then dmaFinish ch result residue s
  else
    match dmaRecord c result residue s with
    | none => dmaFinish ch 3 residue s
    | some s =>
      if result ≠ 0 then dmaFinish ch result residue (setDma ch (some c) s)
      else
        let c := { c with k := c.k + 1, done := c.done + 1 }
        let s := if c.evt then raise .dmaDone none (arg0 ch 0 0) 0 s else s
        if c.last then dmaFinish ch 0 0 (setDma ch (some c) s)
        else
          let c := { c with descAt := c.nextAt, fetching := true, next := 0, written := 0, count := 0 }
          if (descPlace c.descAt s).isSome then dmaFetch ch c s
          else
            let (x, s) := freeNat s
            let r := x % 2 ^ 33
            match dmaRecord c 4 r s with
            | none => dmaFinish ch 3 r (setDma ch (some c) s)
            | some s => dmaFinish ch 4 r (setDma ch (some c) s)

/-- After every response: the transfer ends when nothing is outstanding and it is complete or is to end; else bursts are issued. -/
def dmaSettle (ch : Nat) (s : State) : State :=
  let s := dmaIssue ch 16 s
  match dmaOf ch s with
  | none => s
  | some c =>
    if c.reads ≠ [] || c.got ≠ [] || c.writes ≠ [] || c.fetching then s
    else
      match c.ending with
      | some r => dmaEnd ch c r (c.count - c.written) s
      | none => if c.written = c.count then dmaEnd ch c 0 0 s else s

/-- A channel is made to end with a result (R372, R373): no further burst is issued, reads in flight are performed and discarded
(R35); an idle channel is left alone. A descriptor not yet read has no COUNT, so its residue is free. -/
def dmaStop (ch result : Nat) (s : State) : State :=
  match dmaOf ch s with
  | none => s
  | some c =>
    if c.ending.isSome then s
    else if c.fetching && c.fetchNo.isNone then
      let x := freeNat (masterReset .dma (some ch) s)
      dmaEnd ch { c with fetching := false } result (x.1 % 2 ^ 33) x.2
    else
      let c' := { c with ending := some result, discard := true, got := [] }
      dmaSettle ch (setDma ch (some c') (masterReset .dma (some ch) s))

/-- Channels that paused go on: each issues a burst in turn, and again while any may (R370). -/
def dmaResume (s : State) : State :=
  let t := dmaTurn s
  let chs := (List.range 32).map fun i => (t + i) % 32
  chs.foldl (fun s ch => dmaSettle ch s) ((List.range 16).foldl (fun s _ => chs.foldl (fun s ch => dmaIssue ch 1 s) s) s)

/-- A chain whose first descriptor lies at no place a descriptor may (R375): it ends at once, what its record says of the residue free. -/
def dmaNoChain (ch : Nat) (c : DmaChan) (s : State) : State :=
  let x := freeNat s
  let r := x.1 % 2 ^ 33
  match dmaRecord c 4 r x.2 with
  | none => dmaFinish ch 3 r (setDma ch (some c) x.2)
  | some s => dmaFinish ch 4 r (setDma ch (some c) s)

/-- START in descriptor mode (R375): the chain at `src` with its write-back ring at `dst`. -/
def dmaStartChain (ch src dst : Nat) (s : State) : State :=
  let c : DmaChan := ⟨0, 0, 0, 0, [], [], [], 0, none, false, true, true, none, src, 0, false, false, dst, 0, 0⟩
  if (descPlace src s).isSome then dmaIssue ch 16 (setDma ch (some c) s) else dmaNoChain ch c s

/-- START in register mode (R369): a COUNT of 0 stands for 2^32. -/
def dmaStartCopy (ch src dst n : Nat) (s : State) : State :=
  dmaSettle ch (setDma ch (some ⟨src, dst, if n = 0 then 2 ^ 32 else n, 0, [], [], [], 0, none, false, false, false, none, 0, 0, true, false,
    0, 0, 0⟩) s)

/-- An address a channel's pair of registers holds. -/
def dmaAddr (ch : Nat) (h l : Fin 32 → Reg) (s : State) : Nat :=
  getF fDmaSrcHAddrH (dmaReg h ch) s * 2 ^ 48 + (regOf (dmaReg l ch) s).toNat

/-- START on an idle channel (R369, R375): DONE and RESULT clear, BUSY is set. -/
def dmaStart (ch : Nat) (s : State) : State :=
  let src := dmaAddr ch .dmaSrcH .dmaSrcL s
  let dst := dmaAddr ch .dmaDstH .dmaDstL s
  let r := dmaReg .dmaStatus ch
  let t := setF fDmaStatusResult r 0 (setF fDmaStatusDone r 0 (setF fDmaStatusBusy r 1 s))
  if getF fDmaCtlMode (dmaReg .dmaCtl ch) s = 1 then dmaStartChain ch src dst t
  else dmaStartCopy ch src dst (getF fDmaCountCount (dmaReg .dmaCount ch) s) t

/-- A write of a channel's CTL (R367, R371, R372, R377): the host may not write channels 28 to 31; MODE and QOS keep while BUSY; QOS 15
is stored as 14. -/
def dmaCtlWrite (m : Master) (ch : Nat) (v : Payload) (s : State) : State :=
  if m = .host && ch ≥ 28 then s
  else
    let r := dmaReg .dmaCtl ch
    let busy := (dmaOf ch s).isSome
    let s := setF fDmaCtlEvtEn r (fld fDmaCtlEvtEn v) s
    if busy then
      if fld fDmaCtlAbort v = 1 then dmaStop ch 1 (setF fDmaCtlAbort r 1 s) else s
    else
      let s := setF fDmaCtlMode r (fld fDmaCtlMode v) (setF fDmaCtlQos r (min 14 (fld fDmaCtlQos v)) s)
      if fld fDmaCtlStart v = 1 then dmaStart ch s else s

/-- A write of an address or COUNT register: ignored while BUSY (R371), and by the host at channels 28 to 31. -/
def dmaRegWrite (m : Master) (f : Fin 32 → Reg) (ch : Nat) (v : Payload) (s : State) : State :=
  if (m = .host && ch ≥ 28) || (dmaOf ch s).isSome then s else setReg (dmaReg f ch) (v &&& (dmaReg f ch).rwMask) s

end Sys2Proof.Machine
end

