-- ==== Sys2Proof/Machine/StopOps.lean ====
section
/-!
DEFINITION. The stopped state (R314): what entering it does, whatever the cause, and the emergency stop.
-/
namespace Sys2Proof.Machine

/-- Descriptors not yet begun complete with DEVICE_STOP (R314). -/
def stopDescs (s : State) : State :=
  (s.hif.inflight.filter fun d => !d.begun).foldl (fun s d => complete d 0x52 0 0 s) s

/-- The stopped state entered (R314), with the DMA channels ended (R373) and the capture reader reset (R183). -/
def stopDevice (s : State) : State :=
  if s.sys.stopped then s
  else
    let s := noteAttn s { s with sys := { s.sys with stopped := true }, hif := { s.hif with sev := 3, withheld := true } }
    let s := (List.range 32).foldl (fun s ch => dmaStop ch 5 s) s
    stopDescs (masterReset .captureReader none s)

/-- The emergency stop of HIF_ESTOP and of the monitor's ESTOP (R314, R382). -/
def emergencyStop (s : State) : State := stopDevice (raise .hifEstop none 0 0 s)

/-- A write of HIF_ESTOP (R314). -/
def estopWrite (v : Payload) (s : State) : State := if fld fHifEstopKey v = 0x53544F50 then emergencyStop s else s

/-- HIF_ESTOP (R314). -/
def execHifEstop (m : Master) (value : Payload) (s : State) : Host.Outcome State Fault Refusal := actBy m (estopWrite value) s

end Sys2Proof.Machine
end

