-- ==== Sys2Proof/Machine/Dependability.lean ====
section
/-!
DEFINITION. Clocks, voltage, the Reeve, configuration scans, outage and the power-loss warning (R328 to R336).
-/
namespace Sys2Proof.Machine

/-- A reference clock of a port is lost (R330): the port is down, and each of its lanes with LANE_DOWN. -/
def portClockLost (g : Nat) (s : State) : State :=
  (portLanes g s).foldl (fun s n => laneEnter n 0 s) (onPort g (fun p => { p with ethUp := false, fecRecent := [] }) s)

/-- CLK_MON_FAULT (R23, R330). ARG0 numbers the clocks 0 MCLK, 1 FCLK, 2 CCLK, 3 TCLK, then each DL_REFCLK and PE_REFCLK: the model's
choice, DESIGN CHOICE (log 138). -/
def clkMonFault (c : MonitoredClock) (s : State) : State :=
  match c with
  | .dlRefclk g => if gmode g.val s = 0 then s else portClockLost g.val s
  | .peRefclk => linkEvent false s
  | .mclk => stopDevice (raise .clkMonFault none (arg0 0 0 0) 0 s)
  | .fclk => stopDevice (raise .clkMonFault none (arg0 1 0 0) 0 s)
  | .cclk => stopDevice (raise .clkMonFault none (arg0 2 0 0) 0 s)
  | .tclk => stopDevice (raise .clkMonFault none (arg0 3 0 0) 0 s)

/-- CLK_MON_FAULT (R330). -/
def execClkMonFault (clk : MonitoredClock) (s : State) : Host.Outcome State Fault Refusal := act (clkMonFault clk) s

/-- A monitor session ends (R381, R384): what has not committed is not performed. -/
def endSession (keep : Bool) (s : State) : State :=
  { s with mon := { s.mon with unlocked := false, challenge := none, baud := 0, waiting := if keep then s.mon.waiting else [] } }

/-- REEVE_LOCKSTEP (R329): the Reeve stops; channels 28 to 31 end, the monitor's session ends, time is held; a second mismatch within
10 s stops the device. -/
def reeveLockstep (s : State) : State :=
  let again : Bool := match s.dep.mismatchAt with | some t => s.tick < t + 4000000000 | none => false
  let s1 := raise .depReeveLockstep none 0 0
    { s with sys := { s.sys with reeveRuns := false, remapped := false }, dep := { s.dep with mismatchAt := some s.tick },
             time := { s.time with holdover := true } }
  let s2 := endSession false (setReg .reeveCtl 0 s1)
  let s3 := [28, 29, 30, 31].foldl (fun s ch => dmaStop ch 5 s) s2
  if again then stopDevice s3 else s3

/-- REEVE_LOCKSTEP (R329). -/
def execReeveLockstep (sram : Bool) (s : State) : Host.Outcome State Fault Refusal :=
  act (fun s => reeveLockstep (if sram then sramError .uncorrectable s else s)) s

/-- DEP_REEVE_RESTARTED (R329): services resume and the completions that waited are written; the boot ROM sets REMAP again (R38). -/
def reeveRestarted (s : State) : State :=
  if s.sys.reeveRuns then s
  else
    completeWaiting (raise .depReeveRestarted none 0 0
      (setReg .reeveCtl 1 { s with sys := { s.sys with reeveRuns := true },
                                   time := { s.time with holdover := s.time.holdover && timeSource s ≠ 3 } }))

/-- DEP_REEVE_RESTARTED (R329). -/
def execDepReeveRestarted (s : State) : Host.Outcome State Fault Refusal := act reeveRestarted s

/-- Operating windows in tenths of a millivolt, by rail (Table 18-2). -/
def railWindow : List (Int × Int) :=
  [(7275, 7725), (7760, 8240), (10670, 11330), (3880, 4120), (7275, 7725), (11640, 12360), (17100, 18900)]

/-- Absolute maximum ratings in tenths of a millivolt, by rail (Table 18-1). -/
def railLimit : List (Int × Int) :=
  [(-3000, 9000), (-3000, 9500), (-3000, 13500), (-3000, 5500), (-3000, 9000), (-3000, 14000), (-3000, 21000)]

/-- A rail lies outside its bounds. -/
def railOut (bounds : List (Int × Int)) (i : Nat) (v : Int) : Bool :=
  let b := bounds.getD i (0, 0)
  v < b.1 || v > b.2

/-- Every task bit of the open sets of a partition's channels is set (R331). -/
def suspectAll (p : Fin 8) (s : State) : State :=
  (s.chans.filter fun kv => kv.1 / 16384 = p.val).foldl (fun s kv =>
    match kv.2 with
    | none => s
    | some c => setChan p (kv.1 % 16384) (some { c with suspect := List.range ((partOf p s).cfgOf c.epoch).xCount }) s) s

/-- Every task bit of one channel's open set is set. -/
def suspectChan (p : Fin 8) (chan : Nat) (s : State) : State :=
  match chanOf p chan s with
  | none => s
  | some c => setChan p chan (some { c with suspect := List.range ((partOf p s).cfgOf c.epoch).xCount }) s

/-- A rail left its window (R330): batches not yet harvested are withheld, those computed in the last 2 ms are suspect. -/
def voltagePause (s : State) : State :=
  let s := { s with dep := { s.dep with paused := true, voltageLow := true } }
  let s := (List.finRange 8).foldl (fun s p =>
    ((partOf p s).held).foldl (fun s c => c.batches.foldl (fun s b => withholdBatch p c.epoch b.ord s) s) s) s
  (s.dep.computed.filter fun r => s.tick ≤ r.2.2.2 + 800000).foldl (fun s r =>
    suspectChan (Fin.ofNat 8 r.1) r.2.2.1 s) s

/-- VOLTAGE_SAMPLE (R330, R411, R412) of the seven rails in tenths of a millivolt. -/
def takeRails (rails : List Int) (s : State) : State :=
  let old := s.dep.rails
  let out := (rails.zipIdx).filter fun r => railOut railWindow r.2 r.1
  let left := out.filter fun r => !railOut railWindow r.2 (old.getD r.2 0) || !s.dep.voltageLow
  let was := old.zipIdx.any fun r => railOut railWindow r.2 r.1
  let s := { s with dep := { s.dep with rails := rails, railsAt := if was && out.isEmpty then s.tick else s.dep.railsAt } }
  let s := left.foldl (fun s r => raise .sysVoltage none (r.2 + (unsignedOf 32 (r.1 / 10)) * 2 ^ 32) (timeWord s) s) s
  let s := if left.isEmpty then s else voltagePause s
  match (rails.zipIdx).find? fun r => railOut railLimit r.2 r.1 with
  | none => s
  | some r => if s.sys.stopped then s
    else stopDevice (raise .sysVoltageStop none (arg0 r.2 0 0) 0 s)

/-- VOLTAGE_SAMPLE (R330); there are seven rails. -/
def execVoltageSample (rails : List Int) (s : State) : Host.Outcome State Fault Refusal :=
  if rails.length ≠ 7 then .fault .malformed else act (takeRails rails) s

/-- VOLTAGE_RECOVERED (R330): the rails have been in their windows for 2 ms. -/
def voltageRecovered (s : State) : State :=
  if s.dep.paused && !(s.dep.rails.zipIdx.any fun r => railOut railWindow r.2 r.1) && s.tick ≥ s.dep.railsAt + 800000 then
    { s with dep := { s.dep with paused := false, voltageLow := false } }
  else s

/-- VOLTAGE_RECOVERED (R330). -/
def execVoltageRecovered (s : State) : Host.Outcome State Fault Refusal := act voltageRecovered s

/-- One mismatch of the configuration scan (R331): the block is restored, and the partitions that use it are marked. -/
def scanMismatch (b : ConfigBlock) (s : State) : State :=
  let s := raise .depConfigCrc none (b.block.toNat + b.parts.toNat * 65536) s.dep.scanAt s
  (List.finRange 8).foldl (fun s p => if bitOf b.parts.toNat p.val then suspectAll p s else s) s

/-- CONFIG_SCAN (R331). -/
def configScan (ms : List ConfigBlock) (s : State) : State :=
  if !s.sys.reeveRuns then s
  else if ms.isEmpty then { s with dep := { s.dep with scanAt := timeWord s } }
  else ms.foldl (fun s b => scanMismatch b s) s

/-- CONFIG_SCAN (R331). -/
def execConfigScan (mismatches : List ConfigBlock) (s : State) : Host.Outcome State Fault Refusal := act (configScan mismatches) s

/-- OUTAGE_TICK (R334): the partitions in outage in this tick, and a millisecond more where there is any. -/
def outageTick (s : State) : State :=
  let out := (List.finRange 8).filter fun p => (partOf p s).started && (s.sys.stopped || p.val ∈ s.dep.outage)
  let mask := out.foldl (fun m p => m + 2 ^ p.val) 0
  let t := getF fDepOutageTotalMs .depOutage s
  setF fDepOutageActive .depOutage mask (setF fDepOutageTotalMs .depOutage (if out = [] then t else min (2 ^ 32 - 1) (t + 1))
    { s with dep := { s.dep with outage := [] } })

/-- OUTAGE_TICK (R334). -/
def execOutageTick (s : State) : Host.Outcome State Fault Refusal := act outageTick s

/-- OUTAGE_COMMIT_TIMER (R334): the unit's outage goes to the Ledger. -/
def execOutageCommitTimer (s : State) : Host.Outcome State Fault Refusal :=
  act (fun s => ledgerQueue (.record (.outage (getF fDepOutageTotalMs .depOutage s))) s) s

/-- PWR_WARN (R336, R416): from FIRMWARE on, the device stops, and the event log goes to the Ledger ahead of a suspended program. -/
def pwrWarnNow (s : State) : State :=
  if !pinsLive s || s.sys.pwrWarned then s
  else
    let s := stopDevice (raise .pwrWarn none 0 0 s)
    let rec' := LedOp.record (.eventLog s.led.events (getF fDepOutageTotalMs .depOutage s))
    let s := { s with sys := { s.sys with pwrWarned := true } }
    if s.led.readOnly then s
    else noteAttn s { s with led := { s.led with busy := rec' :: s.led.busy, events := [], oldestAt := none } }

/-- PWR_WARN (R336). -/
def execPwrWarn (s : State) : Host.Outcome State Fault Refusal := act pwrWarnNow s

end Sys2Proof.Machine
end

