-- ==== Sys2Proof/Machine/Hbm.lean ====
section
/-!
DEFINITION. HBM: the layout, allotments, ECC, the repeat tracker, poison, scrub, refresh and failed pseudo-channels (R186 to R206).
-/
namespace Sys2Proof.Machine

/-- The DRAM bank and row of a PC-local address (R189). -/
def bankRow (a : Nat) : Nat × Nat := ((a / 1024) % 48, a / 49152)

/-- The queue of a pseudo-channel's controller. -/
def ctlQueue (pc : Nat) (s : State) : List CtlReq := storeGet (fun _ => []) s.hbm.queue pc

/-- The state with a controller's queue stored. -/
def setCtlQueue (pc : Nat) (l : List CtlReq) (s : State) : State :=
  { s with hbm := { s.hbm with queue := storeSet (fun _ => []) s.hbm.queue pc l } }

/-- The rows a pseudo-channel has open. -/
def openRows (pc : Nat) (s : State) : List (Nat × Nat) := storeGet (fun _ => []) s.hbm.rows pc

/-- The 32 B bursts of a granted access join their controller's queue in the order of the grants (R187, R192). -/
def ctlEnqueue (pc a len : Nat) (write : Bool) (qos : Nat) (s : State) : State :=
  setCtlQueue pc (ctlQueue pc s ++
    (List.range ((a % 32 + len + 31) / 32)).map fun i => ⟨a / 32 * 32 + 32 * i, write, qos, s.tick⟩) s

/-- The direction of a pseudo-channel's bus and the bursts since it last turned. -/
def busOf (pc : Nat) (s : State) : Bool × Nat := storeGet (fun _ => (false, 0)) s.hbm.bus pc

/-- A request may pass the older ones of its direction (R192): it overlaps none, and where it is not the oldest it hits an open row and
each older one is for a different row and has waited fewer than 64 FCLK cycles, three to a tick. -/
def mayPass (pc : Nat) (older : List CtlReq) (r : CtlReq) (s : State) : Bool :=
  older = [] || (bankRow r.addr ∈ openRows pc s &&
    older.all fun o => bankRow o.addr ≠ bankRow r.addr && 3 * (s.tick - o.at_) < 64)

/-- The requests of one direction the controller may serve next, in order of grant (R192). -/
def servable (pc : Nat) (dir : Bool) (s : State) : List CtlReq :=
  let q := ctlQueue pc s
  (List.range q.length).filterMap fun i =>
    match q[i]? with
    | none => none
    | some r =>
      let older := q.take i
      if r.write = dir && (older.all fun o => o.addr ≠ r.addr) && mayPass pc (older.filter fun o => o.write = dir) r s then some r else none

/-- The requests the controller may serve next: of the direction of its bus while the bus may not turn, which it may once in 32 bursts
while both directions wait, or when nothing of its direction can be served (R192, log 140). -/
def serveNext (pc : Nat) (s : State) : List CtlReq :=
  let b := busOf pc s
  let same := servable pc b.1 s
  if same = [] || b.2 ≥ 32 then same ++ servable pc (!b.1) s else same

/-- The row of a burst stands open after it, any other of its bank closed (R192). -/
def openRow (pc addr : Nat) (s : State) : State :=
  let x := bankRow addr
  { s with hbm := { s.hbm with rows := storeSet (fun _ => []) s.hbm.rows pc (x :: (openRows pc s).filter fun y => y.1 ≠ x.1) } }

/-- The bus serves a burst of a direction: the count since it last turned. -/
def busServe (pc : Nat) (dir : Bool) (s : State) : State :=
  let b := busOf pc s
  { s with hbm := { s.hbm with bus := storeSet (fun _ => (false, 0)) s.hbm.bus pc (if b.1 = dir then (dir, b.2 + 1) else (dir, 1)) } }

/-- A transaction of level 15 waits for a pseudo-channel: in its controller's queue, or at its port (R193). -/
def level15Waits (pc : Nat) (s : State) : Bool :=
  (ctlQueue pc s).any (fun r => r.qos = 15) ||
  let p := targetOf (pc / 2) s
  (p.queue ++ p.waiting).any fun t => t.qos = 15 && portPc (pc / 2) t.req.addr = pc

/-- `n` refreshes are issued: every open row of the pseudo-channel closes (R193). -/
def refreshes (pc n : Nat) (s : State) : State :=
  { s with hbm := { s.hbm with refreshed := storeSet (fun _ => 0) s.hbm.refreshed pc (storeGet (fun _ => 0) s.hbm.refreshed pc + n),
                               rows := storeSet (fun _ => []) s.hbm.rows pc [] } }

/-- Postponed refreshes are issued as soon as no level-15 transaction waits (R193). -/
def refreshFree (pc : Nat) (s : State) : State :=
  let owed := storeGet (fun _ => 0) s.hbm.postponed pc
  if owed = 0 || level15Waits pc s then s
  else refreshes pc owed { s with hbm := { s.hbm with postponed := storeSet (fun _ => 0) s.hbm.postponed pc 0 } }

/-- A burst's key: its pseudo-channel and PC-local address. -/
def burstKey (pc addr : Nat) : Nat := pc * 2 ^ 32 + addr

/-- The stack of a pseudo-channel (R186). -/
def stackOf (pc : Nat) : Fin 4 := Fin.ofNat 4 (pc / 32)

/-- A pseudo-channel has failed: it is quarantined or retired (Table 08-7). -/
def pcFailed (pc : Nat) (s : State) : Bool := bitOf (getF fMemPcStatusFailed (.memPcStatus (stackOf pc)) s) (pc % 32)

/-- The pseudo-channels with a FAILED bit. -/
def failedPcs (s : State) : List Nat := (List.range 128).filter fun n => pcFailed n s

/-- The FAILED bit of a pseudo-channel set. -/
def markPc (pc : Nat) (s : State) : State :=
  let r := Reg.memPcStatus (stackOf pc)
  setF fMemPcStatusFailed r (putBits (getF fMemPcStatusFailed r s) (pc % 32) (pc % 32) 1) s

/-- A pseudo-channel fails (R205): it is quarantined, and its retirement is due. -/
def failPc (pc : Nat) (s : State) : State :=
  if pcFailed pc s then s
  else
    let s := markPc pc s
    raise .memPcFailed none (arg0 pc (stackOf pc).val 0) 0
      (ledgerQueue (.record (.retirePc pc)) { s with hbm := { s.hbm with relayout := true } })

/-- What every region held is discarded (R190). -/
def discardRegions (s : State) : State :=
  let s := (List.range 4).foldl (fun s k => setCrib k (cribOf k s).cleared s) s
  { s with granary := [], chans := [], scratch := [], det := { s.det with chains := [] },
           hbm := { s.hbm with poisoned := [] },
           tables := s.tables.filter fun kv => kv.1 / 2 ^ 33 ≠ 2,
           rings := storeMap (fun _ => ⟨[], 0, []⟩) (fun r => { r with entries := [] }) s.rings,
           parts := storeMap (fun _ => Part.idle) (fun x => { x with parked := [] }) s.parts }

/-- A layout of Table 08-4 may be applied with `p` active pseudo-channels (R190, R191). -/
def layoutOk (v : Payload) (p : Nat) : Bool :=
  let sys := fld fMemLayoutSysMib v
  let gran := fld fMemLayoutGranMib v
  sys + gran ≤ 1152 && fld fMemLayoutCaptGrain v ≤ 8 && fld fMemLayoutGranGrain v ≤ 8 && fld fMemLayoutSysGrain v ≤ 8 &&
    systemFits sys gran p

/-- The layout is applied: regions discarded, failed pseudo-channels retired (R190, R206). -/
def applyLayout (v : Payload) (s : State) : State :=
  let s := discardRegions (setReg .memLayout (v &&& Reg.memLayout.rwMask) s)
  raise .memLayoutApplied none 0 0 { s with hbm := { s.hbm with retired := failedPcs s, relayout := false } }

/-- A write of MEM_LAYOUT (R190). -/
def memLayout (v : Payload) (s : State) : State :=
  if ((List.finRange 8).any fun p => (partOf p s).started) || (capturing s).isSome ||
      !layoutOk v (128 - (failedPcs s).length) then
    raise .memLayoutRefused none 0 0 s
  else applyLayout v s

/-- MEM_LAYOUT_WRITE (R190). -/
def execMemLayoutWrite (m : Master) (value : Payload) (s : State) : Host.Outcome State Fault Refusal := actBy m (memLayout value) s

/-- A write of MEM_ALLOT_m (R199): 0 is stored as 1, and a higher RATE must be admitted. -/
def memAllot (m : Fin 3) (v : Payload) (s : State) : State :=
  let rate := max 1 (fld fMemAllotRate v)
  let burst := max 1 (fld fMemAllotBurst v)
  let old := getF fMemAllotRate (.memAllot m) s
  let l := planNow s
  if rate > old && ({ l with rates := l.rates - old + rate } : Plan).hbm s > budget s then
    raise .memAllotRefused none (arg0 m.val 0 0) 0 s
  else setReg (.memAllot m) (setFld fMemAllotBurst burst (setFld fMemAllotRate rate 0)) s

/-- MEM_ALLOT_WRITE (R199). -/
def execMemAllotWrite (m : Master) (cls : Fin 3) (value : Payload) (s : State) : Host.Outcome State Fault Refusal :=
  actBy m (memAllot cls value) s

/-- A structure's row in Table 08-3. -/
def structNo : HbmTarget → Nat
  | .granary .. => 0
  | .channelState .. => 1
  | .cribSamples .. => 2
  | .cribFlags .. => 3
  | .lookahead .. => 4
  | .delayEntry => 5
  | .chainState _ => 6
  | .ring _ => 7
  | .master _ => 8
  | .unused => 0

/-- A record of a channel that holds an integration becomes poisoned (R201). -/
def poisonRecord (p : Fin 8) (chan v : Nat) (s : State) : State :=
  match chanOf p chan s with
  | none => s
  | some _ => granarySet p chan v { granaryGet p chan v s with poisoned := true } s

/-- A granule of a crib changed where it is there. -/
def onCribGran (c g : Nat) (f : Gran → Gran) (s : State) : State :=
  let x := cribOf c s
  match storeGet (fun _ => none) x.grans g with
  | none => s
  | some y => setCrib c { x with grans := storeSet (fun _ => none) x.grans g (some (f y)) } s

/-- The records of a channel block that the 32 B from offset `o` in it cover (Tables 04-1, 04-2): two EXACT records, four COMPACT sums,
or sixteen COMPACT JOINT words. -/
def blockRecords (c : PartCfg) (o : Nat) : List Nat :=
  let vs := if !c.compact then (List.range 2).map (o / 16 + ·)
    else if o < ceil256 (8 * c.vis) then (List.range 4).map (o / 8 + ·)
    else (List.range 16).map ((o - ceil256 (8 * c.vis)) / 2 + ·)
  vs.filter (· < c.vis)

/-- The Granary records of a channel that a burst covers (R92, R109, R189). -/
def burstRecords (p : Fin 8) (chan pc addr : Nat) (s : State) : List Nat :=
  let x := partOf p s
  match chanOf p chan s, regionOf pc addr s with
  | some st, some (.gran, o) =>
    let c := x.cfgOf st.epoch
    match x.rangeAt st.epoch with
    | some r =>
      let base := r.base + c.pos chan * c.block
      if base ≤ o && o < base + c.block then blockRecords c (o - base) else []
    | none => []
  | _, _ => []

/-- The delay table entries that a burst covers, two of them (R127, R189, log 139). -/
def burstEntries (pc addr : Nat) (s : State) : List Nat :=
  match regionOf pc addr s with
  | some (.sys, o) => if delayBase ≤ o && o < chanStateBase then [(o - delayBase) / 16, (o - delayBase) / 16 + 1] else []
  | _ => []

/-- Where a ring or log begins in the system region (Table 08-1, log 139). -/
def ringBase (k : Nat) : Nat := ringsBase + ((List.range k).map fun i => sysRingBytes i * sysRingSize i).foldl (· + ·) 0

/-- The positions of a ring or log that a burst covers. -/
def burstPositions (k pc addr : Nat) (s : State) : List Nat :=
  match regionOf pc addr s with
  | some (.sys, o) =>
    if ringBase k ≤ o && o < ringBase (k + 1) then
      (List.range (max 1 (32 / sysRingBytes k))).map ((o - ringBase k) / sysRingBytes k + ·)
    else []
  | _ => []

/-- A delay table entry torn by poison, or whole again (R136, R201). -/
def setDelayPoison (i : Nat) (on : Bool) (s : State) : State :=
  tabSet 2 (i / 4194304) (i % 4194304) (tabGet 2 (i / 4194304) (i % 4194304) s % 2 ^ 128 + if on then 2 ^ 128 else 0) s

/-- The consumer's reaction to poisoned data of a burst (Table 08-3). -/
def poisonReact (pc addr : Nat) (t : HbmTarget) (s : State) : State :=
  match t with
  | .granary p chan => (burstRecords p chan.val pc addr s).foldl (fun s v => poisonRecord p chan.val v s) s
  | .channelState p chan =>
    match chanOf p chan.val s with
    | none => s
    | some c => (List.range ((partOf p s).cfgOf c.epoch).vis).foldl (fun s v => poisonRecord p chan.val v s) s
  | .cribSamples c g => setWithheld (onCribGran c.val g (fun y => { y with samples := List.replicate 16 (0, 0), flag := true }) s)
  | .cribFlags c gs => gs.foldl (fun s g => onCribGran c.val g (fun y => { y with flag := true }) s) s
  | .lookahead p i => setWithheld (onPart p (fun x => { x with parked := x.parked.eraseIdx i }) s)
  | .delayEntry => (burstEntries pc addr s).foldl (fun s i => setDelayPoison i true s) s
  | .chainState k => { s with det := { s.det with chains := storeSet (fun _ => none) s.det.chains k none } }
  | .ring k =>
    setWithheld ((burstPositions k.val pc addr s).foldl (fun s i =>
      let r := sysRing k.val s
      setSysRing k.val { r with entries := storeSet (fun _ => []) r.entries i [] } s) s)
  | .master cls => emit (.busError cls) s
  | .unused => s

/-- A corrected read error (R200, R202): counted and tracked, and lasting when its address is tracked already; the Ledger records an address
once. -/
def correctedError (pc addr : Nat) (s : State) : State :=
  let st := stackOf pc
  let key := burstKey pc addr
  let pass := storeGet (fun _ => 0) s.hbm.passes pc
  let s := bump (.memCe st) 1 s
  let live := (storeGet (fun _ => []) s.hbm.tracker st.val).filter fun e =>
    storeGet (fun _ => 0) s.hbm.passes (e.1 / 2 ^ 32) ≤ e.2 + 1
  let put := fun (l : List (Nat × Nat)) (s : State) =>
    { s with hbm := { s.hbm with tracker := storeSet (fun _ => []) s.hbm.tracker st.val l } }
  if live.any fun e => e.1 = key then
    let s := put ((live.filter fun e => e.1 ≠ key) ++ [(key, pass)]) s
    let s := if key ∈ s.hbm.lasting then s
      else ledgerQueue (.record (.repeatAddr pc addr)) { s with hbm := { s.hbm with lasting := s.hbm.lasting ++ [key] } }
    let s := raise .memRepeatAddr none (arg0 pc st.val 0) addr (bump (.memRepeat st) 1 s)
    if (s.hbm.lasting.filter fun k => k / 2 ^ 32 = pc).length ≥ 16 then failPc pc s else s
  else put ((if live.length ≥ 64 then live.drop 1 else live) ++ [(key, pass)]) s

/-- An uncorrectable read error (R200, R202): counted and reported; at an address written since its last one, the channel fails. -/
def uncorrectableError (pc addr : Nat) (t : HbmTarget) (s : State) : State :=
  let key := burstKey pc addr
  let again := storeGet (fun _ => 0) s.hbm.ueAt key = 2
  let s := raise .memUe none (pc + structNo t * 65536) addr (bump (.memUe (stackOf pc)) 1 s)
  let s := { s with hbm := { s.hbm with ueAt := storeSet (fun _ => 0) s.hbm.ueAt key 1,
                                        poisoned := if key ∈ s.hbm.poisoned then s.hbm.poisoned else s.hbm.poisoned ++ [key] } }
  if again then failPc pc s else s

/-- A command/address parity error (R200, R205): three commands whose retry fails within 1 s make the channel fail. -/
def caParityError (pc : Nat) (failed : Bool) (s : State) : State :=
  let s := raise .memCaParity none (arg0 pc (stackOf pc).val 0) 0 s
  if failed then
    let l := ((storeGet (fun _ => []) s.hbm.caFails pc).filter fun t => s.tick < t + 400000000) ++ [s.tick]
    let s := { s with hbm := { s.hbm with caFails := storeSet (fun _ => []) s.hbm.caFails pc l } }
    if l.length ≥ 3 then failPc pc s else s
  else s

/-- What the code makes of a burst (R200). -/
inductive Ecc where
  | clean | corrected | uncorrectable
  deriving DecidableEq, Repr

/-- The symbol code of R200: one symbol in error is corrected, two are detected; what more of them give is free. -/
def eccOf (bad : List (Fin 36)) (s : State) : Ecc × State :=
  match bad.dedup.length with
  | 0 => (.clean, s)
  | 1 => (.corrected, s)
  | 2 => (.uncorrectable, s)
  | _ =>
    let (x, s) := freeNat s
    (match x % 3 with | 0 => .clean | 1 => .corrected | _ => .uncorrectable, s)

/-- A burst read (R200, R201): a burst poisoned before is uncorrectable. Answers what the code made of it and the state with its
errors counted. -/
def burstRead (pc addr : Nat) (e : HbmError) (t : HbmTarget) (s : State) : Ecc × State :=
  match e with
  | .caParity failed => (if failed then .uncorrectable else .clean, caParityError pc failed s)
  | .symbols bad =>
    let (c, s) := if burstKey pc addr ∈ s.hbm.poisoned then (.uncorrectable, s) else eccOf bad s
    match c with
    | .clean => (c, s)
    | .corrected => (c, correctedError pc addr s)
    | .uncorrectable => (c, uncorrectableError pc addr t s)

/-- What a read by the structure's consumer found (R200, R201). -/
def readError (pc addr : Nat) (e : HbmError) (t : HbmTarget) (s : State) : State :=
  match burstRead pc addr e t s with
  | (.uncorrectable, s) => poisonReact pc addr t s
  | (_, s) => s

/-- A burst written whole (R200, R202): its poison is cleared, and an address that had an uncorrectable error has been written since. A
command whose retry failed too wrote nothing. -/
def burstWritten (pc addr : Nat) (e : HbmError) (s : State) : State :=
  let key := burstKey pc addr
  let s := match e with | .caParity failed => caParityError pc failed s | _ => s
  if e = .caParity true then s
  else
    let s := if key ∈ s.hbm.poisoned then
        (burstEntries pc addr s).foldl (fun s i => setDelayPoison i false s)
          { s with hbm := { s.hbm with poisoned := s.hbm.poisoned.filter (· ≠ key) } }
      else s
    if storeGet (fun _ => 0) s.hbm.ueAt key = 1 then { s with hbm := { s.hbm with ueAt := storeSet (fun _ => 0) s.hbm.ueAt key 2 } }
    else s

/-- A burst is performed (R200 to R205): a quarantined pseudo-channel discards writes and reads poison, of which a ring or log tells by
MEM_UE. -/
def burstDone (a : HbmBurst) (s : State) : State :=
  if pcFailed a.pc.val s then
    if a.write then s
    else
      let s := match a.target with | .ring _ => raise .memUe none (a.pc.val + structNo a.target * 65536) a.addr s | _ => s
      poisonReact a.pc.val a.addr a.target s
  else if a.write then burstWritten a.pc.val a.addr a.err s
  else readError a.pc.val a.addr a.err a.target s

/-- HBM_ACCESS (R192, R193, R200 to R205): a burst that waits in its controller's queue is performed where the controller may serve it,
and its row then stands open; one that no grant brought is performed at once (log 140). -/
def hbmBurst (a : HbmBurst) (s : State) : State :=
  let pc := a.pc.val
  match (ctlQueue pc s).find? fun r => r.addr = a.addr && r.write = a.write with
  | none => burstDone a s
  | some r =>
    if r ∈ serveNext pc s then
      burstDone a (refreshFree pc (busServe pc r.write (openRow pc r.addr (setCtlQueue pc ((ctlQueue pc s).erase r) s))))
    else s

/-- A burst lies in a pseudo-channel: 32 B aligned, below 1,152 MiB (R186, R187). -/
def burstOk (addr : Nat) : Bool := addr % 32 = 0 && addr < 1152 * 1048576

/-- HBM_ACCESS (R200); no other address is a burst's. -/
def execHbmAccess (a : HbmBurst) (s : State) : Host.Outcome State Fault Refusal :=
  if burstOk a.addr then act (hbmBurst a) s else .fault .malformed

/-- A refresh falls due (R193): postponed while a level-15 transaction waits, up to eight times; else it is issued with every one owed. In
STANDBY the memory refreshes itself (R403). -/
def refreshNow (pc : Nat) (s : State) : State :=
  let owed := storeGet (fun _ => 0) s.hbm.postponed pc
  let put := fun (n : Nat) => { s with hbm := { s.hbm with postponed := storeSet (fun _ => 0) s.hbm.postponed pc n } }
  if s.sys.standby || !s.hbm.powered then s
  else if level15Waits pc s then (if owed < 8 then put (owed + 1) else refreshes pc 1 s) else refreshes pc (owed + 1) (put 0)

/-- The controller retrains a pseudo-channel through the IEEE 1500 port, here with a refresh (log 142); where that fails, the
pseudo-channel fails (R187, R205). -/
def retrained (pc : Nat) (ok : Option Bool) (s : State) : State := if ok = some false then failPc pc s else s

/-- REFRESH_DUE (R193). -/
def execRefreshDue (pc : Fin 128) (retrain : Option Bool) (s : State) : Host.Outcome State Fault Refusal :=
  act (fun s => retrained pc.val retrain (refreshNow pc.val s)) s

/-- The scrubber of a pseudo-channel moves on; the event when every active one has finished a pass (R203). -/
def scrubNext (pc : Nat) (s : State) : State :=
  let a := storeGet (fun _ => 0) s.hbm.scrubAt pc + 32
  if a < 1152 * 1048576 then { s with hbm := { s.hbm with scrubAt := storeSet (fun _ => 0) s.hbm.scrubAt pc a } }
  else
    let h := s.hbm
    let passed := if pc ∈ h.passed then h.passed else h.passed ++ [pc]
    let s := { s with hbm := { h with scrubAt := storeSet (fun _ => 0) h.scrubAt pc 0, passed := passed,
                                      passes := storeSet (fun _ => 0) h.passes pc (storeGet (fun _ => 0) h.passes pc + 1) } }
    if (activePcs s).all fun n => n ∈ passed then raise .memScrubPass none 0 0 { s with hbm := { s.hbm with passed := [] } } else s

/-- SCRUB_READ (R203, R204): the next burst is read; its corrected data is written back unless a newer write was granted, which stands.
An uncorrectable burst is left poisoned for its consumer; a retired pseudo-channel is not scrubbed, and STANDBY stops the scrubber. -/
def scrubStep (pc : Nat) (e : HbmError) (t : HbmTarget) (newer : Bool) (s : State) : State :=
  if pc ∈ s.hbm.retired || s.sys.standby then s
  else if pcFailed pc s then scrubNext pc s
  else
    let addr := storeGet (fun _ => 0) s.hbm.scrubAt pc
    let s := (burstRead pc addr e t s).2
    scrubNext pc (if newer then { s with hbm := { s.hbm with poisoned := s.hbm.poisoned.filter (· ≠ burstKey pc addr) } } else s)

/-- SCRUB_READ (R203). -/
def execScrubRead (pc : Fin 128) (err : HbmError) (target : HbmTarget) (newerWrite : Bool) (s : State) :
    Host.Outcome State Fault Refusal := act (scrubStep pc.val err target newerWrite) s

end Sys2Proof.Machine
end

