-- ==== Sys2Proof/Machine/Lanes.lean ====
section
/-!
DEFINITION. The commands of the data lanes and the Bell lanes (R268 to R282).
-/
namespace Sys2Proof.Machine

/-- The lane is in use: a data lane of a Viros port that has not failed, an enabled Bell lane. -/
def laneUsed (n : Nat) (s : State) : Bool :=
  if n < 64 then isViros n s && !laneFailed n s && !s.sys.standby && !s.sys.exiting
  else bitOf (getF fLaneBellCfgEn .laneBellCfg s) (n - 64)

/-- VRATE_MAX of a data lane, RATE on a Bell lane. -/
def ownRate (n : Nat) (s : State) : Nat :=
  if n < 64 then getF fLaneCfgVrateMax (.laneCfg (Fin.ofNat 64 n)) s else getF fBellCfgRate .bellCfg s

/-- The NEG frame a lane sends: rate, lane number, port lane count, low-power support (Table 11-3); their places in the payload are the
model's choice (log 92). -/
def sendNeg (n : Nat) (s : State) : State :=
  let lanes := if n < 64 then (portLanes (n / 8) s).length else 1
  linkSend n 0 (linkFrame 4 0 0 false false false
    (beBytes 1 (ownRate n s) ++ beBytes 1 (n % 64) ++ beBytes 1 lanes ++ beBytes 1 (if n < 64 then 1 else 0))) s

/-- A group configuration may not be written (R271). -/
def groupRefused (v : Payload) : Bool :=
  let m := fld fLaneGroupCfgGmode v
  let i := fld fLaneGroupCfgIface v
  let n := fld fLaneGroupCfgVlanes v
  m = 7 || i = 3 || (m = 3 && i ≠ 0) || (m = 6 && (n = 0 || n > 8))

/-- LANE_GROUP_CFG_WRITE (R271): refused, or the port goes down and bring-up begins anew. -/
def laneGroupCfgWrite (g : Nat) (v : Payload) (s : State) : State :=
  if groupRefused v then raise .laneCfgRefused none (arg0 (8 * g) g 0) 0 s
  else
    let p := portOf g s
    let s := (List.range 8).foldl (fun s i =>
      setReg (laneReg (8 * g + i)) 0 (onLane (8 * g + i) (fun _ => LaneSt.idle) s)) s
    let s := onPort g (fun _ => { PortSt.idle with mac := p.mac, ip4 := p.ip4, ip6 := p.ip6 }) s
    let s := setReg (.laneGroupCfg (Fin.ofNat 8 g)) (v &&& BitVec.ofNat 48 0x1FF) s
    raise .laneDown none (arg0 (8 * g) g 0) 0 (advertise g { s with egr := { s.egr with short := s.egr.short.filter (· ≠ g) } })

/-- LANE_GROUP_CFG_WRITE (R271). -/
def execLaneGroupCfgWrite (m : Master) (g : Fin 8) (value : Payload) (s : State) : Host.Outcome State Fault Refusal :=
  actBy m (laneGroupCfgWrite g.val value) s

/-- The partner of a Viros lane supports low power (R280). -/
def lowPowerOk (n : Nat) (s : State) : Bool :=
  isViros n s && (match (laneOf n s).partner with | some f => f.lowPower | none => false)

/-- LANE_CFG_WRITE (R280 to R282): polarity, PRBS and loopback at once, low-power requests where the port and the partner allow, each
direction's on its own. An Ethernet port's lane that leaves a loopback carries the port's traffic again. -/
def laneCfgWrite (n : Nat) (v : Payload) (s : State) : State :=
  let r := Reg.laneCfg (Fin.ofNat 64 n)
  let old := regOf r s
  let asks := fld fLaneCfgTxSleep v = 1 || fld fLaneCfgRxSleep v = 1 || fld fLaneCfgEidle v = 1
  let ok := lowPowerOk n s
  let w := v &&& BitVec.ofNat 48 0xFFF8
  let w := if ok then w else setFld fLaneCfgTxSleep (fld fLaneCfgTxSleep old) (setFld fLaneCfgRxSleep (fld fLaneCfgRxSleep old)
    (setFld fLaneCfgEidle (fld fLaneCfgEidle old) w))
  let s := setReg r w s
  let s := if asks && !ok then raise .laneCfgRefused none (arg0 n (n / 8) 0) 0 s else s
  if fld fLaneCfgLoop w ≠ 0 then setF fLaneStatusState (laneReg n) 7 s
  else if laneState n s = 7 then (if (portOf (n / 8) s).ethUp then setF fLaneStatusState (laneReg n) 4 s else laneEnter n 0 s)
  else if !ok then s
  else
    let keep : LowPower := ⟨fld fLaneCfgTxSleep v = 1, fld fLaneCfgRxSleep v = 1, fld fLaneCfgEidle v = 1⟩
    let s := exitLowPower n keep s
    settleLowPower (n / 8) (onLane n (fun x => { x with
      wants := ⟨keep.tx && !x.asleep.tx, keep.rx && !x.asleep.rx, keep.eidle && !x.asleep.eidle⟩ }) s)

/-- LANE_CFG_WRITE (R282). -/
def execLaneCfgWrite (m : Master) (l : Fin 64) (value : Payload) (s : State) : Host.Outcome State Fault Refusal :=
  actBy m (laneCfgWrite l.val value) s

/-- LANE_BELL_CFG_WRITE (R279): a lane whose bit clears goes DOWN; one whose bit sets begins bring-up from DOWN. -/
def laneBellCfgWrite (v : Payload) (s : State) : State :=
  let en := fld fLaneBellCfgEn v
  let s := setF fLaneBellCfgEn .laneBellCfg en s
  (List.range 4).foldl (fun s l => if bitOf en l then s else laneEnter (64 + l) 0 (onLane (64 + l) (fun _ => LaneSt.idle) s)) s

/-- LANE_BELL_CFG_WRITE (R279). -/
def execLaneBellCfgWrite (m : Master) (value : Payload) (s : State) : Host.Outcome State Fault Refusal :=
  actBy m (laneBellCfgWrite value) s

/-- LANE_NEG_TIMER (R274): a lane that is DOWN sends NEG at the lowest rate. -/
def execLaneNegTimer (lane : Lane) (s : State) : Host.Outcome State Fault Refusal :=
  act (fun s => if laneUsed (laneNo lane) s && laneState (laneNo lane) s = 0 then sendNeg (laneNo lane) (setRate (laneNo lane) 0 s) else s) s

/-- LANE_MARKER_LOCK (R274): DOWN to NEG, STEP to TRAIN. -/
def markerLock (n : Nat) (s : State) : State :=
  if !laneUsed n s then s
  else match laneState n s with
    | 0 => laneEnter n 1 (onLane n (fun x => { x with negSent := 0, negGot := 0, negAfter := 0, partner := none }) s)
    | 2 => laneEnter n 3 (onLane n (fun x => { x with readyRun := 0, taps := [0, 4, 8] }) s)
    | _ => s

/-- LANE_MARKER_LOCK (R274). -/
def execLaneMarkerLock (lane : Lane) (s : State) : Host.Outcome State Fault Refusal := act (markerLock (laneNo lane)) s

/-- The rate two ends agree on: the highest index beyond neither VRATE_MAX, or exactly RATE on a Bell lane (R274). -/
def agreedRate (n : Nat) (f : NegFrame) (s : State) : Option Nat :=
  if n < 64 then some (min (ownRate n s) f.rate) else if f.rate = ownRate n s then some f.rate else none

/-- VIROS_NEG_FRAME (R274): each frame is answered; after 8 matching ones both ways the ends agree, and the 64th after that is the
switch to the target rate. -/
def negFrame (n : Nat) (f : NegFrame) (s : State) : State :=
  if !laneUsed n s || laneState n s ≠ 1 then s
  else
    let x := laneOf n s
    let same := x.partner = some f && (agreedRate n f s).isSome
    let got := if same then x.negGot + 1 else if (agreedRate n f s).isSome then 1 else 0
    let sent := x.negSent + 1
    let agreed := got ≥ 8 && sent ≥ 8
    let after := if agreed then x.negAfter + 1 else 0
    let s := sendNeg n (onLane n (fun x => { x with negSent := sent, negGot := got, negAfter := after, partner := some f,
                                                    target := (agreedRate n f s).getD 0 }) s)
    if after ≥ 64 then laneEnter n 2 (setRate n (laneOf n s).target s) else s

/-- VIROS_NEG_FRAME (R274). -/
def execVirosNegFrame (lane : Lane) (neg : NegFrame) (s : State) : Host.Outcome State Fault Refusal :=
  act (negFrame (laneNo lane) neg) s

/-- A request for a tap in 64ths (R275): its new value and status, 0 UPDATED, 1 AT_MAX, 2 AT_MIN, 3 NOT_UPDATED. -/
def tapStep (hi v : Nat) (r : TapRequest) : Nat × Nat :=
  match r with
  | .hold => (v, 3)
  | .inc => if v + 1 > hi then (v, 1) else (v + 1, 0)
  | .dec => if v = 0 then (v, 2) else (v - 1, 0)

/-- VIROS_TRAIN_FRAME (R275): the partner's requests applied within their ranges; the answer carries their status beside this receiver's own
requests (their places in the payload: log 92). 64 frames with both ends READY reach ACTIVE, or SLEEP while a direction still sleeps
(R280). -/
def trainFrame (n : Nat) (f : TrainFrame) (s : State) : State :=
  if !laneUsed n s || laneState n s ≠ 3 then s
  else
    let x := laneOf n s
    let t := if f.preset then [0, 4, 8] else x.taps
    let pam := n < 64 && laneRate n s ≥ 6
    let a := tapStep (if pam then 6 else 0) (t.getD 0 0) f.pre2
    let b := tapStep 16 (t.getD 1 0) f.pre1
    let c := tapStep 24 (t.getD 2 0) f.post
    let run := if f.ready && f.ownReady then x.readyRun + 1 else 0
    let s := onLane n (fun x => { x with taps := [a.1, b.1, c.1], readyRun := run }) s
    let req := fun r : TapRequest => match r with | .hold => 0 | .inc => 1 | .dec => 2
    let s := linkSend n 1 (linkFrame 3 0 0 false false false
      (beBytes 1 (req f.ownPre2 * 16 + req f.ownPre1 * 4 + req f.ownPost) ++
        beBytes 1 ((if f.ownPreset then 2 else 0) + (if f.ownReady then 1 else 0)) ++ beBytes 1 (a.2 * 16 + b.2 * 4 + c.2))) s
    if run ≥ 64 then laneEnter n (if (laneOf n s).asleep.tx || (laneOf n s).asleep.rx then 5 else 4) s else s

/-- VIROS_TRAIN_FRAME (R275). -/
def execVirosTrainFrame (lane : Lane) (train : TrainFrame) (s : State) : Host.Outcome State Fault Refusal :=
  act (trainFrame (laneNo lane) train) s

/-- LANE_STATE_TIMEOUT (R274): NEG and STEP fall to DOWN; TRAIN to STEP one rate lower, on a Bell lane or at the lowest to DOWN. -/
def stateTimeout (n : Nat) (s : State) : State :=
  if !laneUsed n s then s
  else match laneState n s with
  | 1 => laneEnter n 0 (setRate n 0 s)
  | 2 => laneEnter n 0 (setRate n 0 s)
  | 3 => if n < 64 && laneRate n s > 0 then laneEnter n 2 (setRate n (laneRate n s - 1) s) else laneEnter n 0 (setRate n 0 s)
  | _ => s

/-- LANE_STATE_TIMEOUT (R274). -/
def execLaneStateTimeout (lane : Lane) (s : State) : Host.Outcome State Fault Refusal := act (stateTimeout (laneNo lane)) s

/-- The header of a link frame that its CRC-32C admits (Table 11-4). -/
def linkHeader (bs : List Byte) : Option Nat :=
  if 12 ≤ bs.length && beAt bs (bs.length - 4) 4 = crcLsb 32 0x1EDC6F41 (2 ^ 32 - 1) (2 ^ 32 - 1) (bs.take (bs.length - 4)) &&
      bitsOf (beAt bs 0 8) 32 20 = bs.length - 12 then some (beAt bs 0 8) else none

/-- A link frame whose CRC failed (R277, R278): counted, NAKed each time, and lasting when the same SEQ fails a fourth time. -/
def linkCrcFail (n : Nat) (bs : List Byte) (s : State) : State :=
  let g := n / 8
  let seq := bitsOf (beAt bs 0 8) 59 48
  let x := laneOf n s
  let k := if x.failSeq.1 = seq && x.failSeq.2 ≠ 0 then x.failSeq.2 + 1 else 1
  let s := onLane n (fun x => { x with failSeq := (seq, k) }) (bump (.laneCrcErr (Fin.ofNat 64 n)) 1 s)
  let s := sendCtrl g true (onPort g (fun p => { p with naking := true }) s)
  if k ≥ 4 then retrainLane n s else s

/-- The payload of an in-order DATA frame joins the Ethernet frame it is part of; a finished one goes to the port's MAC, through an
ingress FIFO that may be found full (R22). -/
def joinPayload (g : Nat) (sof eof full : Bool) (body : List Byte) (s : State) : State :=
  let p := portOf g s
  let bs := if sof then body else p.rxPart ++ body
  if !sof && !p.inFrame then s
  else if eof then
    ethFrame g { frame := bs, fifoFull := full, parityError := false, fecCorr := 0, fecUncorr := 0, stamp := ⟨0, ⟨0, by decide⟩, 0⟩ }
      (onPort g (fun p => { p with rxPart := [], inFrame := false }) s)
  else onPort g (fun p => { p with rxPart := bs, inFrame := true }) s

/-- VIROS_DATA_FRAME (R276, R277): acknowledgements taken, payload delivered in SEQ order, or a NAK and discards until replay. -/
def virosData (n : Nat) (bs : List Byte) (full : Bool) (s : State) : State :=
  let g := n / 8
  if !isViros n s || laneState n s ≠ 4 then s
  else match linkHeader bs with
    | none => linkCrcFail n bs s
    | some h =>
      if bitsOf h 63 60 ≠ 1 then s
      else
        let s := takeAck g n (bitsOf h 47 36) (bitOf h 35) s
        let seq := bitsOf h 59 48
        if seq = ((portOf g s).lastGot + 1) % 4096 then
          joinPayload g (bitOf h 34) (bitOf h 33) full ((bs.drop 8).take (bs.length - 12))
            (onPort g (fun p => { p with lastGot := seq, naking := false }) s)
        else if (portOf g s).naking then s
        else sendCtrl g true (onPort g (fun p => { p with naking := true }) s)

/-- The frame that a lane's symbols hold is used (R272, R273); without a start marker they hold none. -/
def onLine (n : Nat) (line : List Nat) (use : List Byte → State → State) (s : State) : State :=
  let (bs, s) := lineReceive n line s
  match bs with
  | none => s
  | some bs => use bs s

/-- VIROS_DATA_FRAME (R277). -/
def execVirosDataFrame (l : Fin 64) (line : List Nat) (fifoFull : Bool) (s : State) :
    Host.Outcome State Fault Refusal :=
  act (fun s => onLine l.val line (fun bs s => virosData l.val bs fifoFull s) s) s

/-- A partner's low-power request or exit (R280): its transmitter is this lane's receiver. -/
def partnerLowPower (n : Nat) (q : LowPowerRequest) (s : State) : State :=
  let on := lowPowerOk n s && (laneState n s = 4 || laneState n s = 5)
  let a := (laneOf n s).asleep
  match q with
  | .none => s
  | .txSleep => if on then sleepLane n (fun a => { a with rx := true }) s else s
  | .rxSleep => if on then sleepLane n (fun a => { a with tx := true }) s else s
  | .eidle => if on && laneState n s = 4 then sleepLane n (fun a => { a with eidle := true }) s else s
  | .txExit => if a.rx then wakeLane n (fun a => { a with rx := false }) s else s
  | .rxExit => if a.tx then wakeLane n (fun a => { a with tx := false }) s else s
  | .eidleExit => if a.eidle then leaveIdle n s else s

/-- VIROS_CTRL_FRAME (R277, R280). -/
def virosCtrl (n : Nat) (bs : List Byte) (q : LowPowerRequest) (s : State) : State :=
  if !isViros n s || laneState n s < 4 || laneState n s = 7 then s
  else match linkHeader bs with
    | none => linkCrcFail n bs s
    | some h => if bitsOf h 63 60 ≠ 2 then s else partnerLowPower n q (takeAck (n / 8) n (bitsOf h 47 36) (bitOf h 35) s)

/-- VIROS_CTRL_FRAME (R277). -/
def execVirosCtrlFrame (l : Fin 64) (line : List Nat) (lowPower : LowPowerRequest) (s : State) :
    Host.Outcome State Fault Refusal :=
  act (fun s => onLine l.val line (fun bs s => virosCtrl l.val bs lowPower s) s) s

/-- VIROS_REPLAY_TIMEOUT (R277, R278): what is unacknowledged is sent again, counted on lane `l`. -/
def replayTimeout (g l : Nat) (s : State) : State :=
  if (portOf g s).unacked = [] || l / 8 ≠ g || !isViros l s then s
  else
    let recent := s.tick :: (laneOf l s).replays.filter fun t => s.tick < t + 400000
    let s := (portOf g s).unacked.foldl (fun s f => sendLink g f s) (bump (.laneReplay (Fin.ofNat 64 l)) 1 s)
    let s := onLane l (fun x => { x with replays := recent }) s
    if recent.length > 64 then retrainLane l s else s

/-- VIROS_REPLAY_TIMEOUT (R277). -/
def execVirosReplayTimeout (g : Fin 8) (l : Fin 64) (s : State) : Host.Outcome State Fault Refusal :=
  act (replayTimeout g.val l.val) s

/-- VIROS_IDLE_TIMER (R277): a CTRL frame with ACK_SEQ. -/
def execVirosIdleTimer (g : Fin 8) (s : State) : Host.Outcome State Fault Refusal :=
  act (fun s => if gmode g.val s = 6 then sendCtrl g.val false s else s) s

/-- ETH_LINK_LOSS (R278). -/
def execEthLinkLoss (g : Fin 8) (s : State) : Host.Outcome State Fault Refusal := act (ethLinkLoss g.val) s

/-- ETH_LINK_UP (R269): the port's lanes are ACTIVE and it carries frames. At 100GbE Clause 73 resolves the FEC of Clause 91 or none; on
C2M, which does not negotiate, it is there; the other modes have their own (Table 11-1). -/
def ethLinkUp (g : Nat) (rsFec : Bool) (s : State) : State :=
  if gmode g s = 0 || gmode g s ≥ 6 || (portOf g s).ethUp || s.sys.standby || s.sys.exiting then s
  else
    let fec := gmode g s ≠ 1 || portIface g s = 0 || rsFec
    let s := ethLanes g 4 (onPort g (fun p => { p with ethUp := true, fec := fec }) s)
    raise .laneUp none (arg0 (8 * g) g 0) 0 { s with egr := { s.egr with short := s.egr.short.filter (· ≠ g) } }

/-- ETH_LINK_UP (R269). -/
def execEthLinkUp (g : Fin 8) (rsFec : Bool) (s : State) : Host.Outcome State Fault Refusal := act (ethLinkUp g.val rsFec) s

end Sys2Proof.Machine
end

