-- ==== Sys2Proof/Machine/Trigger.lean ====
section
/-!
DEFINITION. The trigger's commands: ARM and FIRE descriptors and records, the pin, settle and readout (R166 to R184, R265, R266).
-/
namespace Sys2Proof.Machine

/-- The ARM fields of TRIGGER_ARM (Table 12-8). -/
def decodeArm (d : Desc) : Arm :=
  let q := d.qw 1
  { id := bitsOf q 15 0, scope := bitOf q 16, sources := bitsOf q 19 17, rep := bitOf q 20, coinc := bitsOf q 44 21, time := d.qw 2,
    pre := bitsOf (d.qw 3) 31 0, post := bitsOf (d.qw 3) 63 32 }

/-- TRIGGER_ARM accepted (R166, R265): with SCOPE = 1 the trigger master sends it as an ARM record. -/
def triggerArm (d : Desc) (s : State) : State :=
  let a := decodeArm d
  let s := if a.scope then originate 2 (armBody a (s.bell.role0.getD 0)) s else s
  complete d 0 0 0 (takeArm a s)

/-- TRIGGER_ARM (R166, R167, R168). -/
def execTriggerArm (tag : BitVec 17) (s : State) : Host.Outcome State Fault Refusal :=
  act (runDesc (· = 0x07) tag.toNat
    (fun d s => chk ((decodeArm d).scope && s.bell.role0.isNone) 0x32 :: armChecks (decodeArm d) s) triggerArm) s

/-- The ARM in force that a TRIGGER_FIRE matches (R173): its TRIGGER_ID and the HOST source. -/
def hostArm (d : Desc) (s : State) : Option Arm := (armedFor 2 s).filter fun a => a.id = bitsOf (d.qw 1) 15 0

/-- TRIGGER_FIRE's effect (R173): NO_CRIB when no crib could hold the event; a fire below ARM_TIME does not count (Table 07-3, log 57). -/
def triggerFire (d : Desc) (s : State) : State :=
  match hostArm d s with
  | none => s
  | some a =>
    if d.qw 2 < a.time then complete d 0 0 0 s else
    let r := localFire a ((s.trig.capt.map (·.part)).getD 0) 2 (d.qw 2 * 256 + bitsOf (d.qw 1) 23 16) 0 0 s
    complete d (if r.1 then 0 else 0x34) 0 0 r.2

/-- TRIGGER_FIRE (R173). -/
def execTriggerFire (tag : BitVec 17) (s : State) : Host.Outcome State Fault Refusal :=
  act (runDesc (· = 0x08) tag.toNat (fun d s => [chk (hostArm d s).isNone 0x33]) triggerFire) s

/-- An edge at device time `q` at the capture partition (R173, R217, R218): before its origin TIME_BEFORE_ORIGIN, else a fire where the pin
is a source of the armed trigger. -/
def pinFire (p : Fin 8) (q : Int) (s : State) : State :=
  match (partOf p s).samplePos q with
  | none => raise .timeBeforeOrigin (some p) (arg0 0 p.val 0) 0 s
  | some ft =>
    match armedFor 1 s with
    | none => s
    | some a => if ft / 256 < a.time then s else (localFire a p 1 ft 0 0 s).2

/-- A TRIG_IN edge (R173, R217, R218): stamped on TDC channel 1, and placed in the samples of the capture partition. -/
def trigInEdge (x : RawStamp) (s : State) : State :=
  let q := stampTime x s
  let s := tdcEdge 1 x s
  match capturing s with
  | some k => if (partOf k.part s).started then pinFire k.part q s else s
  | none => s

/-- TRIG_IN_EDGE (R173). -/
def execTrigInEdge (stamp : RawStamp) (s : State) : Host.Outcome State Fault Refusal := act (trigInEdge stamp) s

/-- ARM_EFFECT (R168). -/
def execArmEffect (s : State) : Host.Outcome State Fault Refusal := act armEffect s

/-- SETTLE_END (R178): the event's crib is HELD and TRG_CFG.SETTLE has passed since the event opened. -/
def settleEnd (crib : Nat) (s : State) : State :=
  match s.trig.event, capturing s with
  | some e, some k =>
    if e.crib = crib && !e.settled && (cribOf crib s).state = 3 && s.tick ≥ e.settleAt then endSettle crib e k s else s
  | _, _ => s

/-- SETTLE_END (R178). -/
def execSettleEnd (crib : Fin 4) (s : State) : Host.Outcome State Fault Refusal := act (settleEnd crib.val) s

/-- CAPTURE_PACKET_SEND (R182, R183): the next packet by channel, captured slot and time; after the last one the crib is FREE. THROTTLE
pauses the reader and the stopped state ends it. A packet carries the partition's epoch, or the one a STOP fixed (R181). -/
def capturePacketSend (crib : Nat) (s : State) : State :=
  let x := cribOf crib s
  match capturing s with
  | none => s
  | some k =>
    if x.state ≠ 4 || throttled s || s.sys.stopped || x.pos ≥ x.packets then s
    else
      let slots := x.slots.getD []
      let per := ceilDiv (x.spanLast + 1 - x.spanFirst).toNat x.pc
      let chan := k.chanFirst + x.pos / (slots.length * per)
      let m := slots.getD (x.pos / per % slots.length) ⟨0, 0⟩
      let s := sendProductAs (if x.frozen then x.epoch else roleEpoch k.part s) k.part 0x04 k.route (capturePacket x chan m (x.pos % per)) s
      let s := setCrib crib { x with pos := x.pos + 1 } s
      if x.pos + 1 ≥ x.packets then readDone crib k.part s else s

/-- CAPTURE_PACKET_SEND (R182). -/
def execCapturePacketSend (crib : Fin 4) (s : State) : Host.Outcome State Fault Refusal := act (capturePacketSend crib.val) s

/-- A FIRE record received (R174, R175, R266): late beyond 2 ms by local time against its partition's origin, and disposed of where
its trigger is armed. -/
def fireRecord (rec : List Byte) (s : State) : State :=
  let p : Fin 8 := Fin.ofNat 8 (beAt rec 17 1 / 8 % 8)
  let time := beAt rec 8 8 * 256 + beAt rec 16 1
  let c := (partOf p s).cfgAt (time / 256)
  let at' := (((c.originS * 1000000000 + c.originNs) * 2 ^ 32 + c.originFrac * 2 ^ 16 + time * c.period / 256 : Nat) : Int)
  let s := if (partOf p s).started && (localQ s : Int) - at' > 2000000 * 2 ^ 32 then
      raise .bellFireLate (some p) (arg0 (recOrigin rec) p.val 0) (time / 256) s else s
  match s.trig.armed with
  | none => s
  | some a =>
    if a.id = beAt rec 6 2 && a.time ≤ time / 256 then
      (disposeFire a ⟨a.id, time, recOrigin rec, beAt rec 17 1 / 64, beAt rec 18 2 / 64, beAt rec 20 2 % 16384⟩ s).2
    else s

/-- BELL_FIRE_RECORD (R174, R175). -/
def execBellFireRecord (lane : Fin 4) (rec : List Byte) (s : State) : Host.Outcome State Fault Refusal :=
  if rec.length ≠ 32 then .fault .malformed else act (receiveRec lane.val 1 rec (fireRecord rec)) s

/-- The ARM of an ARM record (Table 10-5). -/
def armOf (rec : List Byte) : Arm :=
  { id := beAt rec 6 2, scope := false, sources := beAt rec 27 1 / 32, rep := bitOf (beAt rec 27 1) 4, coinc := beAt rec 24 3,
    time := beAt rec 8 8, pre := beAt rec 16 4, post := beAt rec 20 4 }

/-- An ARM record received (R168, R260): stale below the known epoch of role 0; a higher one raises it, with the origin as its holder
(log 58); then it is checked and applied, or refused with TRG_ARM_REFUSED. -/
def armRecord (rec : List Byte) (s : State) : State :=
  let epoch := beAt rec 28 4
  let known := roleKnown 0 s
  let stale : Bool := match known with | some r => epoch < r.epoch | none => false
  if stale then staleDrop 0 s
  else
    let higher : Bool := match known with | some r => epoch > r.epoch | none => true
    let s := if higher then
        { s with bell := { s.bell with roles := storeSet (fun _ => none) s.bell.roles 0 (some ⟨epoch, recOrigin rec, false, 0⟩) } }
      else s
    match firstFail (armChecks (armOf rec) s) with
    | some c => raise .trgArmRefused (s.trig.capt.map (·.part)) (arg0 0 ((s.trig.capt.map (·.part.val)).getD 0) c.code) 0 s
    | none => takeArm (armOf rec) s

/-- BELL_ARM_RECORD (R260). -/
def execBellArmRecord (lane : Fin 4) (rec : List Byte) (s : State) : Host.Outcome State Fault Refusal :=
  if rec.length ≠ 32 then .fault .malformed else act (receiveRec lane.val 2 rec (armRecord rec)) s

end Sys2Proof.Machine
end

