-- ==== Sys2Proof/Machine/RegFile.lean ====
section
/-!
DEFINITION. The register file as masters see it: what a read of each register returns, what a write of it does, the split-write latch
and the memory windows (R12, R39, R285, R286, R405 to R408).
-/
namespace Sys2Proof.Machine

/-- A payload from a number. -/
def pay (n : Nat) : Payload := BitVec.ofNat 48 n

/-- TRG_CRIB_STATUS_c (Table 07-11). -/
def cribStatus (c : Nat) (s : State) : Payload :=
  let x := cribOf c s
  let pct := min 100 (x.pos * 100 / max 1 x.packets)
  pay (x.id % 65536 * 2 ^ 32 + x.seq % 65536 * 2 ^ 16 + (if x.preShort then 2 ^ 10 else 0) + pct * 8 + x.state)

/-- MILL_SHADOW_q (Table 13-12). -/
def millShadow (q : Nat) (s : State) : Payload :=
  let x := quadOf q s
  pay (x.shadowed * 2 ^ 42 + (if x.reruns = [] then 0 else 2 ^ 41) + min 65535 (x.lag / 256) * 2 ^ 25 + x.windows % 65536 * 2 ^ 9)

/-- TIME_REF_STATUS (Table 09-6); the offsets are held in units of 2^-8 ppb. -/
def refStatus (s : State) : Payload :=
  let off := fun r : RefMon => unsignedOf 16 (saturate 16 (r.off / 16))
  pay (off s.time.refA * 2 ^ 32 + off s.time.refB * 2 ^ 16 + s.time.pll * 2 ^ 13 + s.time.refA.qual * 2 ^ 11 + s.time.refB.qual * 2 ^ 9 +
    (if s.time.settling then 2 ^ 8 else 0))

/-- TIME_TDC_STATUS (Table 09-10). -/
def tdcStatus (s : State) : Payload :=
  let b := fun (x : Bool) (n : Nat) => if x then 2 ^ n else 0
  pay (s.time.used % 2 ^ 25 * 2 ^ 23 + s.time.ovf * 2 ^ 8 + b s.time.missed 7 + b s.time.bins.isSome 6 + b s.time.calBusy 5 + b s.time.busy 4 +
    b s.time.done 3)

/-- TIME_TSQ_CFG (Table 09-14). -/
def tsqStatus (s : State) : Payload :=
  let n := s.time.tsq.length
  pay (s.time.drops * 2 ^ 32 + min 255 n * 2 ^ 24 + (if n ≥ 256 then 2 ^ 23 else 0) + (regOf .timeTsqCfg s).toNat % 2 ^ 17)

/-- TIME_TSQ_HEAD_n (Table 09-13). -/
def tsqHead (n : Nat) (s : State) : Payload :=
  match s.time.tsq.head? with
  | none => 0
  | some e => match n with
    | 0 => pay e.sec
    | 1 => pay e.nsFrac
    | _ => pay (e.id * 2 ^ 32 + e.qseq * 2 ^ 16 + e.source * 2 ^ 8 + e.msg * 2 ^ 4 + 1)

/-- BELL_LINK_l (Table 10-9). -/
def bellLinkView (l : Nat) (s : State) : Payload :=
  pay (unsignedOf 40 (linkDelay l s) * 2 ^ 8 + (if (linkSt l s).delays.length ≥ 256 then 1 else 0))

/-- STW_STATUS_c (Table 14-10). -/
def stwStatus (c : Nat) (s : State) : Payload :=
  let x := coreOf c s
  pay (x.state * 2 ^ 45 + x.part.val * 2 ^ 42 + x.pc % 2 ^ 14 * 2 ^ 28 + x.ip % 16 * 2 ^ 24 + x.ie % 16 * 2 ^ 20 + x.cause % 16 * 2 ^ 16 +
    x.xfers.length % 8 * 2 ^ 13)

/-- DMA_CH_n_STATUS (Table 15-8, R374): what a running channel has not written, and the descriptors it has completed. -/
def dmaStatusView (ch : Fin 32) (s : State) : Payload :=
  match dmaOf ch.val s with
  | none => regOf (.dmaStatus ch) s
  | some c => pay (2 ^ 44 + (if c.chain then c.done % 1024 * 2 ^ 33 else 0) + (c.count - c.written) % 2 ^ 33)

/-- SYS_POWER.STATE (Table 16-10): 0 ACTIVE, 1 IDLE, 2 STANDBY. -/
def powerState (s : State) : Nat := if s.sys.standby then 2 else if isIdle s then 1 else 0

/-- MON_STATUS (Table 15-13). -/
def monStatus (s : State) : Payload :=
  let b := fun (x : Bool) (n : Nat) => if x then 2 ^ n else 0
  pay (min 15 s.mon.fails * 2 ^ 12 + s.mon.baud * 2 ^ 9 + b s.fuses.lockout 2 + b s.mon.unlocked 1 + b s.mon.enabled 0)

/-- The payload a master reads from a register: what is stored, but for registers that mirror an engine, fuses or a latch (R9, R12,
R210). MILL_LOAD and BF_WSYN_LOAD.ADMITTED round up (log 35). -/
def readReg (m : Master) (r : Reg) (s : State) : Payload :=
  match r with
  | .sysId => setFld fSysIdGrade (if Config.gradeX then 1 else 0) (regOf .sysId s)
  | .sysSerialL => pay Config.serial
  | .sysSerialH => pay (Config.serial / 2 ^ 48 % 2 ^ 16)
  | .sysBootStatus => setFld fSysBootStatusSvnMin s.fuses.svnMin (regOf .sysBootStatus s)
  | .sysPower => setFld fSysPowerState (powerState s) (regOf .sysPower s)
  | .millLoad => pay (ceilQ ((planNow s).mill * 65536 / 1600000000))
  | .millShadow q => millShadow q.val s
  | .bfWsynLoad => pay (ceilQ ((planNow s).wsyn / 65536))
  | .detChainLoad => pay ((planNow s).instances * 2 ^ 22 + ceilQ ((planNow s).chainRate / 65536))
  | .trgCribStatus c => cribStatus c.val s
  | .memBudget =>
    pay ((if s.hbm.relayout then 2 ^ 44 else 0) + ceilQ ((planNow s).hbm s / 16000000) % 2 ^ 18 * 2 ^ 26 + pa s * 2 ^ 18 + budget s / 16000000)
  | .timeNowS => pay s.time.sec
  | .timeNowNs => pay (storeGet (fun _ => 0) s.time.latches (masterKey m))
  | .timeSlew => pay (unsignedOf 40 (s.time.slewLeft.tdiv (2 ^ 24)))
  | .timeCtl => setFld fTimeCtlTqLocal (tqLocal s) (regOf .timeCtl s)
  | .timeRefStatus => refStatus s
  | .timeTdcCtl => setFld fTimeTdcCtlCal (if s.time.calPending then 1 else 0) (regOf .timeTdcCtl s)
  | .timeTdcStatus => tdcStatus s
  | .timeTsqCfg => tsqStatus s
  | .timeTsqHead n => tsqHead n.val s
  | .bellLink l => bellLinkView l.val s
  | .stwStatus c => stwStatus c.val s
  | .dmaStatus ch => dmaStatusView ch s
  | .monStatus => monStatus s
  | r => regOf r s

/-- A master's 64-bit read of a BAR0 register offset (R12, R285): an unimplemented one reads payload 0. -/
def readOffset (m : Master) (o : Nat) (s : State) : Qword :=
  readWord (match Reg.ofOffset o with | some r => readReg m r s | none => 0) s

/-- A plain write: the writable bits stored (R9, R10). -/
def plainWrite (r : Reg) (v : Payload) (s : State) : State := setReg r ((v &&& r.rwMask) ||| (regOf r s &&& ~~~r.rwMask)) s

/-- A write of SYS_FABRIC_QOS (Table 01-4): 15 is stored as 14. -/
def fabricQosWrite (v : Payload) (s : State) : State :=
  let q := fun f => min 14 (fld f v)
  setReg .sysFabricQos (setFld fSysFabricQosHostQos (q fSysFabricQosHostQos) (setFld fSysFabricQosStwQos (q fSysFabricQosStwQos)
    (setFld fSysFabricQosCaprdQos (q fSysFabricQosCaprdQos) 0))) s

/-- A write of SYS_RESET (R387): the key makes a device reset due 1 µs later. -/
def sysResetWrite (v : Payload) (s : State) : State :=
  if fld fSysResetKey v = 0x52535421 then { s with sys := { s.sys with resetDue := some (s.tick + 400) } } else s

/-- A write of TRG_CFG (Table 07-10): SETTLE is held to 1 to 100. -/
def trgCfgWrite (v : Payload) (s : State) : State :=
  plainWrite .trgCfg (setFld fTrgCfgSettle (min 100 (max 1 (fld fTrgCfgSettle v))) v) s

/-- A write of ACC_CFG (Table 04-10): SWEEP_DELAY is held to 1 to 1,000. -/
def accCfgWrite (v : Payload) (s : State) : State :=
  plainWrite .accCfg (setFld fAccCfgSweepDelay (min 1000 (max 1 (fld fAccCfgSweepDelay v))) v) s

/-- A write of TIME_XO_CFG (Table 09-7, R222): HOLD_UNC 0 is stored as 1, and AGEING is kept in the Ledger. -/
def xoCfgWrite (v : Payload) (s : State) : State :=
  ledgerQueue (.record (.setting Reg.timeXoCfg.offset (fld fTimeXoCfgAgeing v)))
    (plainWrite .timeXoCfg (setFld fTimeXoCfgHoldUnc (max 1 (fld fTimeXoCfgHoldUnc v)) v) { s with time := { s.time with xoCal := true } })

/-- A write of TIME_PPS_CFG (Table 09-11): WIN 0 is stored as 1. -/
def ppsCfgWrite (v : Payload) (s : State) : State :=
  plainWrite .timePpsCfg (setFld fTimePpsCfgWin (max 1 (fld fTimePpsCfgWin v)) v) s

/-- A write of REEVE_CTL (R38): only the Reeve sets REMAP, and 0 has no effect. -/
def reeveCtlWrite (m : Master) (v : Payload) (s : State) : State :=
  if m = .reeve && fld fReeveCtlRemap v = 1 then setF fReeveCtlRemap .reeveCtl 1 s else s

/-- A write of MON_CTL (R384, Table 15-12): RELOCK ends any session with what has not committed; DISABLE holds until the next reset that
starts the Reeve. -/
def monCtlWrite (v : Payload) (s : State) : State :=
  let s := if fld fMonCtlRelock v = 1 then endSession false s else s
  if fld fMonCtlDisable v = 1 then
    let s := endSession false (setF fMonCtlDisable .monCtl 1 s)
    { s with mon := { s.mon with enabled := false } }
  else s

/-- What a write of a register does (R9, R408): its own rule where it has one, the plain store of its writable bits where it has none,
nothing where it has none. -/
def regWrite (m : Master) (r : Reg) (v : Payload) (s : State) : State :=
  match r with
  | .sysFabricQos => fabricQosWrite v s
  | .sysReset => sysResetWrite v s
  | .sysPower => sysPowerWrite v s
  | .hifNudge => nudge s
  | .hifAttnClr => attnClr v s
  | .hifEstop => estopWrite v s
  | .ringBase n => ringWrite n .base v s
  | .ringCfg n => ringWrite n .cfg v s
  | .ringIdx n => ringWrite n .idx v s
  | .ingTableInval => tableInval v s
  | .accCfg => accCfgWrite v s
  | .detRangeSet => (detRange v s).2
  | .trgCfg => trgCfgWrite v s
  | .memLayout => memLayout v s
  | .memAllot k => memAllot k v s
  | .timeRate => timeRateWrite m v s
  | .timeSlew => timeSlewWrite m v s
  | .timeCtl => timeCtlWrite m v s
  | .timeRefCfg => timeRefCfgWrite v s
  | .timeXoCfg => xoCfgWrite v s
  | .timePpsCfg => ppsCfgWrite v s
  | .timeTdcCtl => timeTdcCtlWrite v s
  | .timePtpCfg => timePtpCfgWrite v s
  | .timeTsqCfg => timeTsqCfgWrite v s
  | .timeTsqPop => tsqPop v s
  | .bellCfg => bellCfgWrite v s
  | .laneBellCfg => laneBellCfgWrite v s
  | .laneGroupCfg g => laneGroupCfgWrite g.val v s
  | .laneCfg l => laneCfgWrite l.val v s
  | .reeveCtl => reeveCtlWrite m v s
  | .dmaSrcL n => dmaRegWrite m .dmaSrcL n.val v s
  | .dmaSrcH n => dmaRegWrite m .dmaSrcH n.val v s
  | .dmaDstL n => dmaRegWrite m .dmaDstL n.val v s
  | .dmaDstH n => dmaRegWrite m .dmaDstH n.val v s
  | .dmaCount n => dmaRegWrite m .dmaCount n.val v s
  | .dmaCtl n => dmaCtlWrite m n.val v s
  | .monCtl => monCtlWrite v s
  | r => plainWrite r v s

/-- A write at a BAR0 register offset; one that no register has is ignored (R285). -/
def offsetWrite (m : Master) (o : Nat) (v : Payload) (s : State) : State :=
  match Reg.ofOffset o with
  | some r => regWrite m r v s
  | none => s

/-- Bytes of a table entry put in place through a window. -/
def putEntry (old pos n v : Nat) : Nat := putBits old (8 * (pos + n) - 1) (8 * pos) v

/-- A window write of `n` bytes at `o` in the input map window (R55, R285): plain bytes, which the cache may come to read. -/
def mapWindow (o n v : Nat) (s : State) : State :=
  let i := o / 16
  let s := tabSet 0 0 i (putEntry (tabGet 0 0 i s) (o % 16) n v) s
  onPart (Fin.ofNat 8 (i / 4096)) (fun x => { x with dirty := if i % 4096 ∈ x.dirty then x.dirty else x.dirty ++ [i % 4096] }) s

/-- The bytes of a window write: 8 or 4, an access of its own alignment only (R285). -/
def windowBytes (wide : Bool) : Nat := if wide then 8 else 4

/-- INPUT_MAP_WINDOW_WRITE (R55, R285): a BAR0 access of the host. -/
def execInputMapWindowWrite (offset : BitVec 19) (wide : Bool) (value : Qword) (s : State) : Host.Outcome State Fault Refusal :=
  let n := windowBytes wide
  actBy .host (fun s => if offset.toNat % n ≠ 0 then emit .unsupported s else mapWindow offset.toNat n value.toNat s) s

/-- A window write of `n` bytes at `o` in the delay banks, through the beam table port (R133, R406). -/
def delayWindow (o n v : Nat) (s : State) : State :=
  let bank := o / 2 ^ 26
  let i := o % 2 ^ 26 / 16
  portWrite bank i (putEntry (tabGet 2 bank i s) (o % 16) n v) s

/-- DELAY_WINDOW_WRITE (R133, R285, R406). -/
def execDelayWindowWrite (offset : BitVec 27) (wide : Bool) (value : Qword) (s : State) : Host.Outcome State Fault Refusal :=
  let n := windowBytes wide
  actFrom .host (fun s => if offset.toNat % n ≠ 0 then emit .unsupported s else delayWindow offset.toNat n value.toNat s) s

/-- RECOVERY_BUFFER_WRITE (R392, R406): stored while STAGE is RECOVERY, ignored otherwise. -/
def execRecoveryBufferWrite (offset : BitVec 23) (wide : Bool) (value : Qword) (s : State) : Host.Outcome State Fault Refusal :=
  let n := windowBytes wide
  actFrom .host (fun s => if offset.toNat % n ≠ 0 then emit .unsupported s
    else if bootStage s = 6 then
      { s with sys := { s.sys with recovery := storeSetList (fun _ => 0) s.sys.recovery offset.toNat (leBytes n value.toNat) } }
    else s) s

/-- REGISTER_WRITE (R285, R408): bits [63:48] are ignored; an 8 B access not so aligned is not supported. -/
def execRegisterWrite (m : Master) (offset : BitVec 26) (value : Qword) (s : State) : Host.Outcome State Fault Refusal :=
  actBy m (fun s =>
    let o := offset.toNat
    if o % 8 ≠ 0 then emit .unsupported s
    else if 0x1000000 ≤ o && o < 0x1080000 then mapWindow (o - 0x1000000) 8 value.toNat s
    else offsetWrite m o (pay value.toNat) s) s

/-- SPLIT_WRITE_LOW (R286): bytes 0 to 3 of a register wait in the latch. -/
def execSplitWriteLow (offset : BitVec 26) (value : BitVec 32) (s : State) : Host.Outcome State Fault Refusal :=
  actBy .host (fun s =>
    let o := offset.toNat / 8 * 8
    if (Reg.ofOffset o).isSome then { s with hif := { s.hif with latch := some (o, value) } } else s) s

/-- A write of bytes 4 to 7 (R286): the register is written whole where the latch is its own, else nothing is and HIF_SPLIT_DISCARD
says so. -/
def splitHigh (o : Nat) (v : BitVec 32) (s : State) : State :=
  match s.hif.latch with
  | some (k, low) =>
    if k = o then offsetWrite .host o (pay (v.toNat * 2 ^ 32 + low.toNat)) { s with hif := { s.hif with latch := none } }
    else dropLatch s
  | none => if (Reg.ofOffset o).isSome then raise .hifSplitDiscard none 0 0 s else s

/-- SPLIT_WRITE_HIGH (R286). -/
def execSplitWriteHigh (offset : BitVec 26) (value : BitVec 32) (s : State) : Host.Outcome State Fault Refusal :=
  actFrom .host (splitHigh (offset.toNat / 8 * 8) value) s

end Sys2Proof.Machine
end

