-- ==== Sys2Proof/Machine/MonOps.lean ====
section
/-!
DEFINITION. The Fraul monitor's answers, its audit records and what their commitment performs (R379 to R384).
-/
namespace Sys2Proof.Machine

/-- One hexadecimal digit. -/
def hexDigit (n : Nat) : Char := "0123456789ABCDEF".toList.getD n '0'

/-- `n` hexadecimal digits of a number. -/
def hexDigits (n x : Nat) : String := String.ofList ((List.range n).map fun i => hexDigit (x / 16 ^ (n - 1 - i) % 16))

/-- A line sent on MON_TX. -/
def say (line : String) (s : State) : State := emit (.uart line) s

/-- The monitor takes commands: it is enabled, and the Reeve's firmware runs (R379, R414). -/
def monLive (s : State) : Bool := s.mon.enabled && s.sys.reeveRuns && pinsLive s

/-- The effect of a monitor command, where the monitor takes commands. -/
def monAct (f : State → State) (s : State) : Host.Outcome State Fault Refusal := act (fun s => if monLive s then f s else s) s

/-- A command that needs an unlocked session (Table 15-11). -/
def monOpen (f : State → State) (s : State) : Host.Outcome State Fault Refusal :=
  monAct (fun s => if s.mon.unlocked then f s else say "ER LOCKED" s) s

/-- An audit record queued (R382): its number, local time, command (0 UNLK, 1 WR, 2 ESTOP, 3 BAUD, 4 FUSE), offset, value, outcome (0 OK). -/
def audit (cmd offset value outcome : Nat) (s : State) : State :=
  let n := s.mon.auditNo + 1
  ledgerQueue (.record (.audit [n, timeWord s, cmd, offset, value, outcome])) { s with mon := { s.mon with auditNo := n } }

/-- An audited command waits for its record; a read-only Ledger takes none (R382, R397). -/
def auditThen (cmd offset value : Nat) (c : MonCmd) (s : State) : State :=
  if s.led.readOnly then say "ER LEDGER" s
  else
    let s := audit cmd offset value 0 s
    { s with mon := { s.mon with waiting := s.mon.waiting ++ [(s.mon.auditNo, c)] } }

/-- Seconds challenges are throttled after `f` consecutive failures: 60 s at the third, doubling at each further third up to an hour
(R381). -/
def throttleSeconds (f : Nat) : Nat := min 3600 (60 * 2 ^ (f / 3 - 1))

/-- FAILS and the throttle state go to the Ledger (R381). -/
def monStateRecord (s : State) : State :=
  ledgerQueue (.record (.monState s.mon.fails (if s.mon.throttled then throttleSeconds s.mon.fails else 0))) s

/-- The response to a challenge (R381). -/
def monResponse (challenge : BitVec 32) : Nat :=
  ofBe ((hmac384 (beBytes 32 Config.monitorSecret) (beBytes 8 Config.serial ++ beBytes 4 challenge.toNat)).take 4)

/-- The response is that to the current challenge. -/
def responseOk (r : BitVec 32) (s : State) : Bool :=
  match s.mon.challenge with | some c => monResponse c = r.toNat | none => false

/-- What a command does once its record is committed (R382, R383). -/
def monPerform (c : MonCmd) (s : State) : State :=
  match c with
  | .wr o v => say "OK" (offsetWrite .monitor o.toNat v s)
  | .baud i =>
    let s := say "OK" s
    { s with mon := { s.mon with baud := i } }
  | .fuse =>
    let s := say "OK" { s with fuses := { s.fuses with lockout := true } }
    let s := endSession false (raise .monLockout none 0 0 s)
    { s with mon := { s.mon with enabled := false } }

/-- An audit record has been committed: the command that waits for it is performed. -/
def auditCommitted (n : Nat) (s : State) : State :=
  match s.mon.waiting.find? fun w => w.1 = n with
  | none => s
  | some w => monPerform w.2 { s with mon := { s.mon with waiting := s.mon.waiting.filter fun x => x.1 ≠ n } }

/-- Every command that waits is answered ER LEDGER. -/
def monLedgerFailed (s : State) : State :=
  s.mon.waiting.foldl (fun s _ => say "ER LEDGER" s) { s with mon := { s.mon with waiting := [] } }

end Sys2Proof.Machine
end

