-- ==== Sys2Proof/Machine/Ledger.lean ====
section
/-!
DEFINITION. The Ledger: what the end of a page program or an erase commits, compaction, and the event log (R394 to R397).
-/
namespace Sys2Proof.Machine

/-- A journal bank. -/
def bankOf (b : Nat) (s : State) : LedBank := s.led.banks.getD b ⟨[], 0, false⟩

/-- The state with a journal bank changed. -/
def onBank (b : Nat) (f : LedBank → LedBank) (s : State) : State :=
  { s with led := { s.led with banks := s.led.banks.set b (f (bankOf b s)) } }

/-- GEN of a bank. -/
def LedBank.gen (b : LedBank) : Nat := match b.recs.head? with | some (.bank g _) => g | _ => 0

/-- A bank is valid when its BANK and SNAP_END records are committed (R396). -/
def LedBank.valid (b : LedBank) : Bool := (match b.recs.head? with | some (.bank _ _) => true | _ => false) && LedRec.snapEnd ∈ b.recs

/-- A later record holds the same thing as an earlier one. -/
def supersedes (a b : LedRec) : Bool :=
  match a, b with
  | .setting o _, .setting p _ => o = p
  | .slot m _ _, .slot n _ _ => m = n
  | .monState _ _, .monState _ _ => true
  | .outage _, .outage _ => true
  | _, _ => a = b

/-- The number of records of a list that are event or audit records as `r` is. -/
def sameLog (r : LedRec) (l : List LedRec) : Nat :=
  (l.filter fun x => match r, x with
    | .eventLog _ _, .eventLog _ _ => true
    | .audit _, .audit _ => true
    | _, _ => false).length

/-- The live state of a bank (R396, log 62): the newest record of each thing, and the newest 64 event and audit records. -/
def liveRecords : List LedRec → List LedRec
  | [] => []
  | r :: l =>
    let rest := liveRecords l
    match r with
    | .bank _ _ => rest
    | .snapEnd => rest
    | .eventLog _ _ => if sameLog r l < 64 then r :: rest else rest
    | .audit _ => if sameLog r l < 64 then r :: rest else rest
    | _ => if l.any fun x => supersedes x r then rest else r :: rest

/-- A compaction runs: SNAP_END waits. -/
def compacting (s : State) : Bool := LedOp.compactRecord .snapEnd ∈ s.led.busy

/-- Pages of a journal bank at which it is 75 % full (Table 16-3, R396). -/
def bankLimit : Nat := 4608

/-- Compaction begins when the active bank is 75 % full (R396): its steps come before what waits. -/
def maybeCompact (s : State) : State :=
  let b := bankOf s.led.active s
  if compacting s || b.recs.length < bankLimit then s
  else
    let other := 1 - s.led.active
    let ops := [LedOp.eraseBank other, .compactRecord (.bank (b.gen + 1) ((bankOf other s).erases + 1))] ++
      (liveRecords b.recs).map .compactRecord ++ [.compactRecord .snapEnd]
    { s with led := { s.led with busy := ops ++ s.led.busy } }

/-- A record committed to the active bank; while a compaction runs the new bank takes it too, before SNAP_END. -/
def appendRecord (r : LedRec) (s : State) : State :=
  let s := onBank s.led.active (fun b => { b with recs := b.recs ++ [r] }) s
  if compacting s then
    let snap := LedOp.compactRecord LedRec.snapEnd
    let ops := s.led.busy.flatMap fun o => if o = snap then [LedOp.compactRecord r, snap] else [o]
    { s with led := { s.led with busy := ops } }
  else maybeCompact s

/-- A bank erased (R397). -/
def bankErased (b : Nat) (s : State) : State :=
  let n := (bankOf b s).erases + 1
  let s := onBank b (fun _ => ⟨[], n, false⟩) s
  if n ≥ 80000 && !(b ∈ s.led.wornAt) then
    raise .ledgerWear none (arg0 b 0 0) n { s with led := { s.led with wornAt := s.led.wornAt ++ [b] } }
  else s

/-- What the end of an operation commits (R382, R393 to R397). -/
def opDone (o : LedOp) (s : State) : State :=
  match o with
  | .record (.slot n _ _) => let c := slotCommit n s; appendRecord c.1 c.2
  | .record (.audit l) => auditCommitted (l.headD 0) (appendRecord (.audit l) s)
  | .record r => appendRecord r s
  | .compactRecord .snapEnd =>
    let s := onBank (1 - s.led.active) (fun b => { b with recs := b.recs ++ [.snapEnd] }) s
    { s with led := { s.led with active := 1 - s.led.active } }
  | .compactRecord r => onBank (1 - s.led.active) (fun b => { b with recs := b.recs ++ [r] }) s
  | .eraseBank b => bankErased b s
  | .eraseSlot n => setSlot n ⟨[], 0, false⟩ s
  | .page n i bs => putPage n i bs s

/-- The Ledger fails (R397): it becomes read-only, and what waits for it is refused. -/
def ledgerFails (s : State) : State :=
  let s := match s.led.busy with
    | .record _ :: _ => onBank s.led.active (fun b => { b with dirtyTail := true }) s
    | _ => s
  let fws := s.hif.inflight.filter fun d => d.begun && d.opcode = 0x10
  let s := noteAttn s { s with led := { s.led with busy := [], retries := 0, readOnly := true } }
  monLedgerFailed (fws.foldl (fun s _ => fwComplete 0x39 s) (raise .ledgerFail none 0 0 s))

/-- LEDGER_PROGRAM_DONE (R394, R397): the operation that runs ends; one that fails its read-back is tried again, once. -/
def ledgerDone (ok : Bool) (s : State) : State :=
  match s.led.busy with
  | [] => s
  | o :: rest =>
    if ok then opDone o { s with led := { s.led with busy := rest, retries := 0 } }
    else if s.led.retries = 0 then { s with led := { s.led with retries := 1 } }
    else ledgerFails s

/-- LEDGER_PROGRAM_DONE (R394). -/
def execLedgerProgramDone (readBackOk : Bool) (s : State) : Host.Outcome State Fault Refusal := act (ledgerDone readBackOk) s

/-- EVENT_LOG_COMMIT_TIMER (R395): 64 events are uncommitted, or 10 s have passed since the oldest of them. -/
def eventLogCommit (s : State) : State :=
  let due : Bool := match s.led.oldestAt with | some t => s.tick ≥ t + 4000000000 | none => false
  if s.led.events = [] || !(due || s.led.events.length ≥ 64) then s
  else
    let r := LedRec.eventLog (s.led.events.take 64) (getF fDepOutageTotalMs .depOutage s)
    let rest := s.led.events.drop 64
    ledgerQueue (.record r) { s with led := { s.led with events := rest, oldestAt := if rest = [] then none else some s.tick } }

/-- EVENT_LOG_COMMIT_TIMER (R395). -/
def execEventLogCommitTimer (s : State) : Host.Outcome State Fault Refusal := act eventLogCommit s

end Sys2Proof.Machine
end

