-- ==== Sys2Proof/Machine/MillOps.lean ====
section
/-!
DEFINITION. The Mill's tiles: pieces, verification, re-runs, tiles leaving service and suspect spans (R79 to R84, R318 to R327).
-/
namespace Sys2Proof.Machine

/-- A partition's computing copy and its retained one, with the work of one tile of them changed. -/
def Part.onTile (epoch tile : Nat) (inComp : Bool) (f : TileWork → TileWork) (x : Part) : Part :=
  let g := fun c : Copy => if c.epoch = epoch then
    { c with tiles := storeSet (fun _ => TileWork.idle) c.tiles tile (f (storeGet (fun _ => TileWork.idle) c.tiles tile)) } else c
  if inComp then { x with comp := x.comp.map g } else { x with ret := x.ret.map g }

/-- The batch and task of segment `g` of quadrant `q`'s share of a copy (R79, R80). -/
def locate (p : Fin 8) (c : Copy) (q g : Nat) (s : State) : Option (Batch × Nat) :=
  let cfg := (partOf p s).cfgOf c.epoch
  let go := c.batches.foldl (fun (a : Nat × Option (Batch × Nat)) b =>
    match a.2 with
    | some _ => a
    | none =>
      let n := taskCount cfg (c.beams p b s)
      if a.1 < n then (a.1, some (b, a.1)) else (a.1 - n, none)) (c.shares.getD q 0 + g / cfg.segs, none)
  go.2

/-- A piece that waits to drain: its partition, copy, whether that copy is computing, and its segments. -/
structure Waiting where
  part : Fin 8
  copy : Copy
  inComp : Bool
  lo : Nat
  hi : Nat
  deriving DecidableEq, Repr

/-- The pieces of a tile that wait to drain, the region of the earliest deadline first. -/
def waitingPieces (tile : Nat) (s : State) : List Waiting :=
  let all := (List.finRange 8).flatMap fun p =>
    let x := partOf p s
    let of := fun (k : Bool) (c : Copy) => (storeGet (fun _ => TileWork.idle) c.tiles tile).drain.map fun d => (⟨p, c, k, d.1, d.2⟩ : Waiting)
    (x.ret.toList.flatMap (of false)) ++ (x.comp.toList.flatMap (of true))
  let least := all.foldl (fun (m : Option ℚ) w => some (match m with | none => w.copy.deadline | some d => min d w.copy.deadline)) none
  match least with
  | none => []
  | some d => all.filter fun w => w.copy.deadline = d

/-- MCLK cycles of `n` segments of a partition's copy. -/
def segTime (p : Fin 8) (epoch n : Nat) (s : State) : Nat := n * ((partOf p s).cfgOf epoch).segCycles

/-- The quadrant changed. -/
def onQuad (q : Nat) (f : Quadrant → Quadrant) (s : State) : State := setQuad q (f (quadOf q s)) s

/-- The referee of a re-run (R322): the standby, else the lowest-numbered in-service tile other than A and S. -/
def referee (x : Quadrant) (a : Nat) : Option Nat :=
  match x.standby with
  | some t => some t
  | none => x.inService.find? fun t => t ≠ a && some t ≠ x.shadow

/-- Verified segments of a task of a batch counted and their records handed to the combiner (R66, R82); when its tasks are all verified the batch has been computed (R104, R330). -/
def passPiece (p : Fin 8) (epoch : Nat) (b : Batch) (task first n : Nat) (s : State) : State :=
  let cfg := (partOf p s).cfgOf epoch
  let s := onPart p (fun x => match (x.ret.toList ++ x.comp.toList).find? fun c => c.epoch = epoch && (c.batch b.ord).isSome with
    | none => x
    | some c => x.onBatch epoch b.ord fun b => c.combine cfg task first n
        { b with verified := storeSet (fun _ => 0) b.verified task (storeGet (fun _ => 0) b.verified task + n) }) s
  let s := sendBeams p epoch b.ord s
  let x := partOf p s
  match x.closed.find? fun c => c.epoch = epoch && (c.batch b.ord).isSome with
  | none => s
  | some c =>
    match c.batch b.ord with
    | none => s
    | some b =>
      if !b.withheld && classified p c b s then
        { s with dep := { s.dep with computed := (p.val, epoch, b.chan, s.tick) :: s.dep.computed.filter fun r => s.tick ≤ r.2.2.2 + 800000 } }
      else s

/-- The beam samples of a batch that still wait for the chains are marked where a task of their beam is (R139, R327). -/
def markInputs (r : PieceRec) (s : State) : State :=
  let x := partOf r.part s
  match (x.closed.find? fun c => c.epoch = r.epoch && (c.batch r.ord).isSome).bind fun c => (c.batch r.ord).map fun b => (c, b) with
  | none => s
  | some (c, b) =>
    let cfg := x.cfgOf r.epoch
    let beams := c.beams r.part b s
    let hit := ((beams.zipIdx).filter fun bn => r.task ∈ bTasksOf cfg beams bn.2).map fun bn => bn.1.1
    { s with det := { s.det with chainIn := s.det.chainIn.map fun i =>
        if i.part = r.part && i.epoch = r.epoch && i.chan = b.chan && i.sub = b.sub && i.beam ∈ hit then
          { i with marks := { i.marks with suspect := true } } else i } }

/-- The piece marked in the open set of its channel, or in its batch while that is not harvested; answers whether products of it have
been emitted (R327). -/
def markPiece (r : PieceRec) (s : State) : Bool × State :=
  let x := partOf r.part s
  let held := x.closed.any fun c => c.epoch = r.epoch && (match c.batch r.ord with | some b => !b.harvested | none => false)
  let s1 := markInputs r
    (setPart r.part (x.onBatch r.epoch r.ord fun b => { b with suspect := if r.task ∈ b.suspect then b.suspect else b.suspect ++ [r.task] }) s)
  let c := x.cfgOf r.epoch
  let sent := x.closed.any fun cp => cp.epoch = r.epoch && (match cp.batch r.ord with | some b => b.beamsSent ≠ [] | none => false)
  if r.task ≥ c.xCount then (!held || sent, s1)
  else if held then (false, s1)
  else match chanOf r.part r.chan s1 with
    | none => (true, s1)
    | some k =>
      if k.int = r.int then (false, setChan r.part r.chan (some { k with suspect := if r.task ∈ k.suspect then k.suspect else k.suspect ++ [r.task] }) s1)
      else (true, s1)

/-- MILL_SUSPECT_RANGE for one partition (Table 13-10). -/
def suspectRange (q t : Nat) (p : Fin 8) (rs : List PieceRec) (s : State) : State :=
  let subs := rs.map (·.sub)
  let lo := subs.foldl min (subs.headD 0)
  let hi := subs.foldl max 0
  let ep := ((rs.find? fun r => r.sub = lo).map (·.epoch)).getD 0
  raise .millSuspectRange (some p) (34 * q + t + p.val * 65536 + (hi - lo + 1) * 2 ^ 32) (lo * ((partOf p s).cfgOf ep).t) s

/-- SUSPECT_SPAN_MARK (R327): the pieces the tile computed since its last passed comparison, but for the re-run one. -/
def markSuspect (q t : Nat) (except : Option PieceRec) (s : State) : State :=
  let mine := (quadOf q s).recent.filter fun r => r.tile = t && some r ≠ except
  let s := onQuad q (fun x => { x with recent := x.recent.filter fun r => r.tile ≠ t }) s
  (List.finRange 8).foldl (fun s p =>
    let rs := mine.filter fun r => r.part = p
    let r := rs.foldl (fun (a : Bool × State) r => let m := markPiece r a.2; (a.1 || m.1, m.2)) (false, s)
    if r.1 then suspectRange q t p rs r.2 else r.2) s

/-- The next in-service tile above `t`, around (R319). -/
def nextShadowed (x : Quadrant) (t : Nat) : Nat :=
  (x.inService.find? fun k => k > t).getD (x.inService.headD 0)

/-- Put a tile among those in service in ascending order. -/
def insertTile (t : Nat) (l : List Nat) : List Nat := insertBy (fun k => k) t l

/-- What a tile has not computed of a region, its piece in progress among it. -/
def TileWork.rest (w : TileWork) : List (Nat × Nat) :=
  match w.cur, w.queue with
  | some st, (_, hi) :: q => (st, hi) :: q
  | _, q => q

/-- The first `n` segments of a list of runs. -/
def takeRuns : Nat → List (Nat × Nat) → List (Nat × Nat)
  | _, [] => []
  | n, r :: rs => if n = 0 then [] else if r.2 - r.1 ≤ n then r :: takeRuns (n - (r.2 - r.1)) rs else [(r.1, r.1 + n)]

/-- The list of runs without its first `n` segments. -/
def dropRuns : Nat → List (Nat × Nat) → List (Nat × Nat)
  | _, [] => []
  | n, r :: rs => if n = 0 then r :: rs else if r.2 - r.1 ≤ n then dropRuns (n - (r.2 - r.1)) rs else (r.1 + n, r.2) :: rs

/-- Segments of a list of runs. -/
def runLen (l : List (Nat × Nat)) : Nat := (l.map fun r => r.2 - r.1).foldl (· + ·) 0

/-- A change of every partition's computing copy. -/
def onComps (f : Fin 8 → Copy → Copy) (s : State) : State :=
  (List.finRange 8).foldl (fun s p => onPart p (fun x => { x with comp := x.comp.map (f p) }) s) s

/-- Tile `t`'s unfinished segments go to tile `u` of the quadrant (R326). -/
def moveWork (q t u : Nat) (c : Copy) : Copy :=
  let get := fun k => storeGet (fun _ => TileWork.idle) c.tiles (34 * q + k)
  let put := fun k w (m : Store TileWork) => storeSet (fun _ => TileWork.idle) m (34 * q + k) w
  let a := get t
  { c with tiles := put u { get u with queue := (get u).queue ++ a.rest } (put t { a with queue := [], cur := none } c.tiles) }

/-- Tile `t`'s unfinished segments are dealt afresh over the quadrant's tiles, each part after the tile's own (R81, R326). -/
def redeal (q t : Nat) (tiles : List Nat) (c : Copy) : Copy :=
  let get := fun k (m : Store TileWork) => storeGet (fun _ => TileWork.idle) m (34 * q + k)
  let a := get t c.tiles
  let m0 := storeSet (fun _ => TileWork.idle) c.tiles (34 * q + t) { a with queue := [], cur := none }
  { c with tiles := (dealTiles (runLen a.rest) tiles).foldl (fun m d =>
      let w := get d.1 m
      storeSet (fun _ => TileWork.idle) m (34 * q + d.1) { w with queue := w.queue ++ takeRuns (d.2.2 - d.2.1) (dropRuns d.2.1 a.rest) }) m0 }

/-- A quadrant with fewer than two working tiles leaves service: batches with unfinished tasks of its share, or a piece that waits for
a re-run, are withheld (R326). -/
def quadOut (q : Nat) (s : State) : State :=
  let off := fun x : Quadrant => { x with inService := [], shadow := none, share := 0, reruns := [], testing := [] }
  let pend := (quadOf q s).reruns
  let s := raise .millQuadOut none (arg0 q 0 0) 0 (onQuad q off s)
  let s := pend.foldl (fun s r => withholdBatch r.part r.epoch r.ord s) s
  let clear := fun c : Copy => { c with tiles := c.tiles.filter fun kv => kv.1 / 34 ≠ q }
  (List.finRange 8).foldl (fun s p =>
    let cs := (partOf p s).closed
    let s := cs.foldl (fun s c =>
      let left := (c.tiles.filter fun kv => kv.1 / 34 = q).flatMap fun kv => kv.2.rest ++ kv.2.drain
      let hit := (left.filterMap fun r => locate p c q r.1 s).map fun b => b.1.ord
      hit.foldl (fun s o => withholdBatch p c.epoch o s) s) s
    onPart p (fun x => { x with comp := x.comp.map clear, ret := x.ret.map clear }) s) s

/-- The quadrant loses one tile-equivalent with tile `t`, or leaves service (R326). -/
def loseCapacity (q t : Nat) (s : State) : State :=
  let s := raise .millCapacityLoss none (arg0 (34 * q + t) 0 0) 0 (onQuad q (fun x => { x with mode := 2, share := x.share - 1 }) s)
  if (quadOf q s).inService.length < 1 then quadOut q s else s

/-- TILE_LEAVE_SERVICE (R326): the standby, a working tile or nobody takes its place; the failure is recorded in the Ledger. -/
def leaveService (q t : Nat) (s : State) : State :=
  let x := quadOf q s
  if !(t ∈ x.inService) && x.shadow ≠ some t && x.standby ≠ some t then s
  else
    let s := ledgerQueue (.record (.retireTile (34 * q + t))) (onQuad q (fun x => { x with testing := x.testing.filter (· ≠ t) }) s)
    let ev := fun e (s : State) => raise e none (arg0 (34 * q + t) 0 0) 0 s
    let move := fun (x : Quadrant) => if x.shadowed = t then { x with shadowed := nextShadowed x t, compared := 0, expired := false } else x
    if x.standby = some t then ev .millStandbyLost (onQuad q (fun x => { x with standby := none, mode := 1 }) s)
    else match x.standby with
    | some u =>
      if x.shadow = some t then ev .millShadowReplaced (onQuad q (fun x => { x with standby := none, shadow := some u, mode := 1 }) s)
      else
        let s := onComps (fun _ => moveWork q t u) s
        ev .millTileReplaced (onQuad q (fun x =>
          move { x with standby := none, mode := 1, inService := insertTile u (x.inService.filter (· ≠ t)) }) s)
    | none =>
      if x.shadow = some t then
        let h := x.inService.getLastD 0
        let rest := x.inService.filter (· ≠ h)
        let s := onComps (fun _ => redeal q h rest) s
        loseCapacity q t (onQuad q (fun x =>
          let y := { x with shadow := some h, inService := rest }
          if y.shadowed = h then { y with shadowed := nextShadowed y h, compared := 0, expired := false } else y) s)
      else
        let rest := x.inService.filter (· ≠ t)
        let s := onComps (fun _ => redeal q t rest) s
        loseCapacity q t (onQuad q (fun x => move { x with inService := rest }) s)

/-- A lasting-faulty tile (R323, R326, R327). -/
def lastingFault (q t : Nat) (except : Option PieceRec) (s : State) : State := markSuspect q t except (leaveService q t s)

/-- The shadow window ends (R319, R321): it has passed, and the next in-service tile is shadowed; once per rotation the standby runs the
test task beside the shadow. -/
def endWindow (q : Nat) (s : State) : State :=
  onQuad q (fun x =>
    let n := nextShadowed x x.shadowed
    let tests := if n ≤ x.shadowed && x.standby.isSome then x.standby.toList ++ x.shadow.toList else []
    { x with windows := wrap 16 (x.windows + 1), shadowed := n, compared := 0, expired := false, testing := x.testing ++ tests }) s

/-- The shadowed tile has a piece in progress in some region (R319). -/
def shadowedBusy (q : Nat) (s : State) : Bool :=
  let k := 34 * q + (quadOf q s).shadowed
  (List.finRange 8).any fun p => match (partOf p s).comp with
    | some c => (storeGet (fun _ => TileWork.idle) c.tiles k).cur.isSome || (storeGet (fun _ => TileWork.idle) c.tiles k).drain ≠ []
    | none => false

/-- An expired window ends once no re-run or test task runs, at a piece boundary of the shadowed tile (`boundary`) or where it has no piece;
with fewer than 64 segments compared the test task comes first (R319, R321). -/
def tryEndWindow (q : Nat) (boundary : Bool) (s : State) : State :=
  let x := quadOf q s
  if !x.expired || x.reruns ≠ [] || x.testing ≠ [] || x.shadow.isNone then s
  else if !boundary && shadowedBusy q s then s
  else if x.compared < 64 then onQuad q (fun x => { x with testing := x.shadowed :: x.shadow.toList }) s
  else endWindow q s

/-- A piece's record for the suspect span. -/
def pieceRec (t : Nat) (p : Fin 8) (epoch : Nat) (b : Batch) (task : Nat) (s : State) : PieceRec :=
  ⟨t, p, epoch, b.ord, b.chan, b.sub, (partOf p s).intOf epoch b.chan b.sub, task⟩

/-- A drained piece needs a re-run (R322); while the lag exceeds 1 ms its batch is withheld and A and S are tested (R324). -/
def startRerun (q t : Nat) (w : Waiting) (b : Batch) (task : Nat) (s : State) : State :=
  let x := quadOf q s
  if x.lag > 1600000 then
    let s := raise .millRerunOverload (some w.part) (arg0 (34 * q + t) w.part.val 0) 0 (withholdBatch w.part w.copy.epoch b.ord s)
    onQuad q (fun x => { x with testing := x.testing ++ ((t :: x.shadow.toList).filter fun k => !(k ∈ x.testing)) }) s
  else onQuad q (fun x => { x with reruns := x.reruns ++ [⟨w.part, w.copy.epoch, b.ord, t, task, w.lo % ((partOf w.part s).cfgOf w.copy.epoch).segs, w.hi - w.lo⟩] }) s

end Sys2Proof.Machine
end

