-- ==== Sys2Proof/Machine/Mill.lean ====
section
/-!
DEFINITION. The Mill's commands: segment ends, piece drains, re-runs, regions computed, shadow windows and test tasks (R79 to R89, R318 to
R327).
-/
namespace Sys2Proof.Machine

/-- The partition whose region the Mill serves next: earliest deadline, then lower number (R85). -/
def nextRegion (s : State) : Option (Fin 8) :=
  let cs := (List.finRange 8).filterMap fun p => ((partOf p s).comp.filter fun c => !c.finished).map fun c => (p, c.deadline)
  (cs.foldl (fun (m : Option (Fin 8 × ℚ)) c => match m with
    | none => some c
    | some b => if c.2 < b.2 then some c else some b) none).map (·.1)

/-- A tile computes one segment of `segs` a task; at a task's or its run's end the piece waits to drain (R79, R81). -/
def TileWork.advance (segs : Nat) (w : TileWork) : TileWork :=
  match w.queue with
  | [] => w
  | (lo, hi) :: q =>
    let st := w.cur.getD lo
    let rest := if lo + 1 = hi then q else (lo + 1, hi) :: q
    if lo + 1 = hi || (lo + 1) % segs = 0 then ⟨rest, none, w.drain ++ [(st, lo + 1)]⟩ else ⟨rest, some st, w.drain⟩

/-- A piece in progress ends where the Mill leaves its region (R85). -/
def TileWork.cut (w : TileWork) : TileWork :=
  match w.cur, w.queue with
  | some st, (lo, _) :: _ => { w with cur := none, drain := w.drain ++ [(st, lo)] }
  | _, _ => w

/-- Bytes of the records of `n` segments of a task: 2,048 tile sum records, or beam partial sums (R63, R124, R325). -/
def taskBytes (cfg : PartCfg) (task n : Nat) : Nat := if task < cfg.xCount then 20480 else (bLanes cfg.bshape).2 * 8 * 256 * n

/-- Bytes of a piece's records. -/
def pieceBytes (p : Fin 8) (c : Copy) (q lo hi : Nat) (s : State) : Nat :=
  match locate p c q lo s with
  | some (_, k) => taskBytes ((partOf p s).cfgOf c.epoch) k (hi - lo)
  | none => 0

/-- Bytes of the shadowed tile's pieces in the hold store: those that wait for their comparison and those whose re-run has not ended
(R325). -/
def holdBytes (q : Nat) (s : State) : Nat :=
  let x := quadOf q s
  let k := 34 * q + x.shadowed
  let held := (List.finRange 8).flatMap fun p => ((partOf p s).closed).flatMap fun c =>
    (storeGet (fun _ => TileWork.idle) c.tiles k).drain.map fun d => pieceBytes p c q d.1 d.2 s
  let rerun := (x.reruns.filter fun r => r.tile = x.shadowed).map fun r =>
    taskBytes ((partOf r.part s).cfgOf r.epoch) r.task r.segs
  (held ++ rerun).foldl (· + ·) 0

/-- The hold store of a quadrant has no room for another piece of the shadowed tile's largest size (R325). -/
def holdFull (q : Nat) (s : State) : Bool := holdBytes q s > 8388608 - 2097152

/-- Tiles a re-run in progress or a test task takes (R321, R322): A and the referee, and the shadow. -/
def takenTiles (q : Nat) (s : State) : List Nat :=
  let x := quadOf q s
  x.testing ++ match x.reruns with
    | [] => []
    | r :: _ => r.tile :: (referee x r.tile).toList

/-- The shadowed tile waits: at a piece boundary while its shadow re-runs another tile's piece, or while the hold store is full (R322,
R325). -/
def shadowedWaits (q : Nat) (w : TileWork) (s : State) : Bool :=
  let x := quadOf q s
  w.queue ≠ [] && w.cur.isNone &&
    ((match x.reruns with | [] => false | r :: _ => r.tile ≠ x.shadowed) || holdFull q s)

/-- One segment of the served region on every working tile of a quadrant; a wait of the shadowed tile counts as re-run lag. -/
def quadSegment (p : Fin 8) (q : Nat) (s : State) : State :=
  match (partOf p s).comp with
  | none => s
  | some c =>
    let cfg := (partOf p s).cfgOf c.epoch
    let x := quadOf q s
    let taken := takenTiles q s
    let w := fun t => storeGet (fun _ => TileWork.idle) c.tiles (34 * q + t)
    let waits := shadowedWaits q (w x.shadowed) s
    let s := x.inService.foldl (fun s t =>
      if t ∈ taken || (t = x.shadowed && waits) then s
      else onPart p (fun y => y.onTile c.epoch (34 * q + t) true (TileWork.advance cfg.segs)) s) s
    if waits then onQuad q (fun x => { x with lag := x.lag + cfg.segCycles }) s else s

/-- This slot is left idle by the throttle step (Table 16-6). -/
def slotIdle (s : State) : Bool :=
  throttled s && match getF fSysThermStatusStep .sysThermStatus s with
    | 2 => s.dep.slot % 8 = 7
    | 3 => s.dep.slot % 4 = 3
    | _ => false

/-- The Mill stands still: the device is stopped, or a rail is outside its window (R314, R330). -/
def millHalts (s : State) : Bool := s.sys.stopped || s.dep.paused

/-- MILL_SEGMENT_END (R85): the region of the earliest deadline is served for a segment; any other region's pieces in progress end. -/
def segmentEnd (s : State) : State :=
  if millHalts s then s
  else
    let idle := slotIdle s
    let s := { s with dep := { s.dep with slot := (s.dep.slot + 1) % 8 } }
    match (if idle then none else nextRegion s) with
    | none => s
    | some p =>
      let s := onComps (fun r c => if r = p then c else { c with tiles := c.tiles.map fun kv => (kv.1, kv.2.cut) }) s
      (List.range 4).foldl (fun s q => quadSegment p q s) s

/-- MILL_SEGMENT_END (R85). -/
def execMillSegmentEnd (s : State) : Host.Outcome State Fault Refusal := act segmentEnd s

/-- A drained piece leaves its tile. -/
def takePiece (tile : Nat) (w : Waiting) (s : State) : State :=
  onPart w.part (fun x => x.onTile w.copy.epoch tile w.inComp fun t => { t with drain := t.drain.erase (w.lo, w.hi) }) s

/-- A piece that passes: compared where its tile is shadowed, and its records go to the combiner (R82, R104, R320); one of a tile that has
left service since lies in that tile's suspect span (R327). -/
def piecePasses (q t : Nat) (w : Waiting) (b : Batch) (task : Nat) (s : State) : State :=
  let n := w.hi - w.lo
  let r := pieceRec t w.part w.copy.epoch b task s
  let s := if t ∈ (quadOf q s).inService then s else (markPiece r s).2
  let s := onQuad q (fun x =>
    if t = x.shadowed && x.shadow.isSome then
      { x with compared := x.compared + n, recent := x.recent.filter fun r => r.tile ≠ t }
    else if t ∈ x.inService then { x with recent := x.recent ++ [r] }
    else x) s
  passPiece w.part w.copy.epoch b task (w.lo % ((partOf w.part s).cfgOf w.copy.epoch).segs) n s

/-- PIECE_DRAIN (R318, R320, R328): residues are checked on every tile, signatures on the shadowed one; an uncorrectable error of the
hold store is re-run. -/
def pieceDrain (tile : Nat) (fault : PieceFault) (ecc : Option SramError) (s : State) : State :=
  let q := tile / 34
  let t := tile % 34
  match (if millHalts s then [] else waitingPieces tile s) with
  | [] => s
  | w :: _ =>
    match locate w.part w.copy q w.lo s with
    | none => takePiece tile w s
    | some (b, task) =>
      let s := takePiece tile w s
      let s := match ecc with | some e => sramError e s | none => s
      let lost : Bool := match ecc with | some .uncorrectable => true | _ => false
      let shadowed := t = (quadOf q s).shadowed && (quadOf q s).shadow.isSome
      let ev := fun e (s : State) => raise e (some w.part) (arg0 tile w.part.val 0) 0 s
      let s := match fault with
        | .residue => startRerun q t w b task (ev .millResidue s)
        | .signature => if shadowed then startRerun q t w b task (ev .millMismatch s) else
            (if lost then startRerun q t w b task s else piecePasses q t w b task s)
        | .none => if lost then startRerun q t w b task s else piecePasses q t w b task s
      tryEndWindow q shadowed s

/-- PIECE_DRAIN (R320). -/
def execPieceDrain (tile : Fin 136) (fault : PieceFault) (ecc : Option SramError) (s : State) : Host.Outcome State Fault Refusal :=
  act (pieceDrain tile.val fault ecc) s

/-- A region's deadline extended by a re-run's duration in MCLK cycles (R324). -/
def extendDeadline (p : Fin 8) (epoch ord cycles : Nat) (s : State) : State :=
  onPart p (fun x =>
    let has := fun c : Copy => c.epoch = epoch && (c.batch ord).isSome
    let late := fun c : Copy => if has c then { c with deadline := c.deadline + (cycles : ℚ) / 4 } else c
    let hit : Bool := match x.comp with | some c => has c | none => false
    { x with comp := x.comp.map late, ret := x.ret.map late,
             prevDeadline := if hit then x.prevDeadline + (cycles : ℚ) / 4 else x.prevDeadline }) s

/-- The re-run's duration becomes lag, and extends the deadline (R324). -/
def countRerun (q : Nat) (r : Rerun) (s : State) : State :=
  let d := segTime r.part r.epoch r.segs s
  extendDeadline r.part r.epoch r.ord d (onQuad q (fun x => { x with reruns := x.reruns.drop 1, lag := x.lag + d }) s)

/-- The batch of a re-run where a closed copy still holds it. -/
def rerunBatch (r : Rerun) (s : State) : Option Batch :=
  (((partOf r.part s).closed.filter fun c => c.epoch = r.epoch).filterMap fun c => c.batch r.ord).head?

/-- A transient (R322, R323): counted and reported; the third of a tile within 1 s makes it lasting-faulty. -/
def transient (q : Nat) (r : Rerun) (b : Batch) (s : State) : State :=
  let s := raise .millTransient (some r.part) (arg0 (34 * q + r.tile) r.part.val 0) 0 (bump (.millTransient (Fin.ofNat 4 q)) 1 s)
  let l := ((quadOf q s).transients.filter fun x => s.tick < x.2 + 400000000) ++ [(r.tile, s.tick)]
  let s := onQuad q (fun x => { x with transients := l }) s
  if (l.filter fun x => x.1 = r.tile).length ≥ 3 then
    lastingFault q r.tile (some (pieceRec r.tile r.part r.epoch b r.task s)) s else s

/-- The unresolved outcome (Table 13-2): the batch is withheld and every tile of the re-run is tested. -/
def unresolved (q : Nat) (r : Rerun) (tiles : List Nat) (s : State) : State :=
  let s := raise .millNoMajority (some r.part) (arg0 (34 * q + r.tile) r.part.val 0) 0 (withholdBatch r.part r.epoch r.ord s)
  onQuad q (fun x => { x with testing := x.testing ++ tiles.filter fun k => !(k ∈ x.testing) }) s

/-- RERUN_DONE (Table 13-2): classified by which results agree; without a referee only A and S are compared. -/
def rerunDone (q : Nat) (agree : RerunAgreement) (s : State) : State :=
  let x := quadOf q s
  match (if millHalts s then [] else x.reruns) with
  | [] => s
  | r :: _ =>
    let ref := referee x r.tile
    let sh := x.shadow
    let s := countRerun q r s
    let s := match rerunBatch r s with
      | none => s
      | some b =>
        let keep := some (pieceRec r.tile r.part r.epoch b r.task s)
        let pass := passPiece r.part r.epoch b r.task r.first r.segs
        let lose := fun (t : Option Nat) (s : State) => match t with | some k => lastingFault q k keep s | none => s
        match agree, ref.isSome with
        | .all, _ => transient q r b (pass s)
        | .rWrong, false => transient q r b (pass s)
        | .aWrong, true => lastingFault q r.tile keep (pass s)
        | .sWrong, true => lose sh (pass s)
        | .rWrong, true => lose ref (pass s)
        | _, _ => unresolved q r (r.tile :: sh.toList ++ ref.toList) s
    tryEndWindow q true s

/-- RERUN_DONE (R322). -/
def execRerunDone (q : Fin 4) (agree : RerunAgreement) (s : State) : Host.Outcome State Fault Refusal := act (rerunDone q.val agree) s

/-- Re-run lag recovered from the slack a quadrant's share of a region left (R324, R87). -/
def recoverLag (p : Fin 8) (c : Copy) (q : Nat) (s : State) : State :=
  let cfg := (partOf p s).cfgOf c.epoch
  let total := capOf 0 s + capOf 1 s + capOf 2 s + capOf 3 s
  let u := c.shares.getD 4 0 * cfg.segs
  let uq := (c.shares.getD (q + 1) 0 - c.shares.getD q 0) * cfg.segs
  let a := (quadOf q s).inService.length
  let slack := u * cfg.segCycles / max 1 total - ceilDiv uq (max 1 a) * cfg.segCycles
  onQuad q (fun x => { x with lag := x.lag - slack }) s

/-- REGION_COMPUTE_DONE (R86): once every segment of the region is computed; MILL_DEADLINE_MISS when it finished late. -/
def regionDone (p : Fin 8) (s : State) : State :=
  match (partOf p s).comp with
  | none => s
  | some c =>
    if c.finished || millHalts s || c.tiles.any fun kv => kv.2.queue ≠ [] || kv.2.cur.isSome then s
    else
      let s := onPart p (fun x => { x with comp := x.comp.map fun c => { c with finished := true } }) s
      let s := (List.range 4).foldl (fun s q => recoverLag p c q s) s
      let late := ((s.tick : ℚ) - c.deadline) * 4
      if late > 0 then
        raise .millDeadlineMiss (some p) (arg0 0 p.val 0) ((late.num.toNat + late.den - 1) / late.den) (bump (.millDeadlineMiss p) 1 s)
      else s

/-- REGION_COMPUTE_DONE (R86). -/
def execRegionComputeDone (p : Fin 8) (s : State) : Host.Outcome State Fault Refusal := act (regionDone p) s

/-- SHADOW_WINDOW_END (R319): the window's cycle count has expired. -/
def execShadowWindowEnd (q : Fin 4) (s : State) : Host.Outcome State Fault Refusal :=
  act (fun s => if (quadOf q.val s).shadow.isNone then s else tryEndWindow q.val false (onQuad q.val (fun x => { x with expired := true }) s)) s

/-- TEST_TASK_DONE (R321): a tile that fails is lasting-faulty; the shadowed tile's pass counts for the 64 segments of an expired
window. -/
def testTaskDone (tile : Nat) (pass : Bool) (s : State) : State :=
  let q := tile / 34
  let t := tile % 34
  if !(t ∈ (quadOf q s).testing) then s
  else
    let s := onQuad q (fun x => { x with testing := x.testing.filter (· ≠ t) }) s
    let s := if !pass then lastingFault q t none s
      else onQuad q (fun x => if x.expired && t = x.shadowed then { x with compared := max 64 x.compared } else x) s
    tryEndWindow q true s

/-- TEST_TASK_DONE (R321). -/
def execTestTaskDone (tile : Fin 136) (pass : Bool) (s : State) : Host.Outcome State Fault Refusal := act (testTaskDone tile.val pass) s

end Sys2Proof.Machine
end

