-- ==== Sys2Proof/Machine/Boot.lean ====
section
/-!
DEFINITION. Resets, power loss and the boot stages (R385 to R392, R396).
-/
namespace Sys2Proof.Machine

/-- The Ledger across a reset (R388, R396): what is committed stays; the operation in progress stops, a page partly written is left after
the committed records, and what waited or was not committed is lost. -/
def ledgerReset (l : Ledger) : Ledger :=
  let cut : Bool := match l.busy with | .record _ :: _ => true | _ => false
  let bs := if cut then l.banks.set l.active { l.banks.getD l.active ⟨[], 0, false⟩ with dirtyTail := true } else l.banks
  { l with banks := bs, busy := [], retries := 0, events := [], oldestAt := none, recovered := false }

/-- Right after POR_N or a device reset with cause `cause` (R387, R388, R401, Table 16-2): a reset that ends SHUTDOWN records THERMAL and
clears the latch. What lies outside the device stays: its command queue, the host's memory, what it has sent, its sensors and rails. -/
def resetDevice (cause : Nat) (s : State) : State :=
  let r := State.reset
  let sys := { r.sys with porLow := s.sys.porLow, rstLow := s.sys.rstLow, powered := s.sys.powered }
  let x : State := { r with
    pending := s.pending, free := s.free, out := s.out, hostMem := s.hostMem, led := ledgerReset s.led, fuses := s.fuses, sys := sys,
    therm := { r.therm with sensors := s.therm.sensors }, dep := { r.dep with rails := s.dep.rails }, jtag := s.jtag }
  setF fSysBootStatusLastCause .sysBootStatus (if s.sys.thermLatch then 3 else cause) x

/-- A device reset (R387, R392): an image in the recovery buffer stays in it. -/
def deviceReset (cause : Nat) (s : State) : State :=
  let x := resetDevice cause s
  { x with sys := { x.sys with recovery := s.sys.recovery, bufferedImage := bootStage s = 6 } }

/-- POR_N low (R387): the whole device, its boundary-scan port with it. -/
def porAssert (s : State) : State :=
  let x := resetDevice 0 s
  { x with jtag := State.reset.jtag, sys := { x.sys with porLow := true } }

/-- POR_N_ASSERT (R387). -/
def execPorNAssert (s : State) : Host.Outcome State Fault Refusal := .next (porAssert s)

/-- POR_N_RELEASE (R386, R389): the rails are in their windows, and the boot ROM starts. -/
def execPorNRelease (s : State) : Host.Outcome State Fault Refusal :=
  .next { s with sys := { s.sys with porLow := false, powered := true } }

/-- SYS_RST_N (R387, R418): low for 1 µs, it resets the device and holds it; released, the device boots and the pins are its own again. -/
def sysRst (low : Bool) (s : State) : State :=
  if low then
    let x := deviceReset 1 s
    { x with sys := { x.sys with rstLow := true, inReset := true } }
  else { s with sys := { s.sys with rstLow := false, inReset := false }, jtag := { s.jtag with drive := 0 } }

/-- SYS_RST_N (R387). -/
def execSysRstN (low : Bool) (s : State) : Host.Outcome State Fault Refusal := .next (sysRst low s)

/-- SYS_RESET_WRITE (R387). -/
def execSysResetWrite (m : Master) (value : Payload) (s : State) : Host.Outcome State Fault Refusal := actBy m (sysResetWrite value) s

/-- DEVICE_RESET (R387): the reset that is due takes effect. -/
def execDeviceReset (s : State) : Host.Outcome State Fault Refusal :=
  act (fun s => match s.sys.resetDue with
    | some t => if t ≤ s.tick then deviceReset 2 s else s
    | none => s) s

/-- POWER_LOSS (R337, R401): the rails are gone, and the thermal latch with them. -/
def powerLoss (s : State) : State :=
  let x := resetDevice 0 { s with sys := { s.sys with thermLatch := false, powered := false } }
  { x with jtag := State.reset.jtag }

/-- POWER_LOSS (R337). -/
def execPowerLoss (s : State) : Host.Outcome State Fault Refusal := .next (powerLoss s)

/-- STAGE of boot stored. -/
def setStage (n : Nat) (s : State) : State := setF fSysBootStatusStage .sysBootStatus n s

/-- The ROM stage ends (R379, R389): not while the hottest sensor reads 97 °C or more; MON_EN is sampled, and an enabled monitor says so. -/
def romDone (hottest : Int) (monEn : Bool) (s : State) : State :=
  if bootStage s ≠ 0 || hottest ≥ 97 * 16 then s
  else
    let on := monEn && !s.fuses.lockout && getF fMonCtlDisable .monCtl s = 0
    let s := setStage 1 { s with mon := { s.mon with strap := monEn, enabled := on } }
    if on then raise .monEnabled none 0 0 s else s

/-- BOOT_ROM_DONE (R389). -/
def execBootRomDone (hottest : Int) (monEn : Bool) (s : State) : Host.Outcome State Fault Refusal := act (romDone hottest monEn) s

/-- A record of the journal replayed (R395, R396, Table 16-2). -/
def replayRecord (r : LedRec) (s : State) : State :=
  match r with
  | .setting o v =>
    if o = Reg.bellCfg.offset then
      { setF fBellCfgUnitId .bellCfg v s with bell := { s.bell with eff := setFld fBellCfgUnitId v s.bell.eff } }
    else if o = Reg.timeXoCfg.offset then
      setF fTimeXoCfgAgeing .timeXoCfg v { s with time := { s.time with xoCal := true } }
    else s
  | .retireTile t => { s with quads := (leaveService (t / 34) (t % 34) s).quads }
  | .retirePc pc => markPc pc s
  | .repeatAddr pc a =>
    { s with hbm := { s.hbm with lasting := if burstKey pc a ∈ s.hbm.lasting then s.hbm.lasting else s.hbm.lasting ++ [burstKey pc a] } }
  | .eventLog _ ms => setF fDepOutageTotalMs .depOutage ms s
  | .outage ms => setF fDepOutageTotalMs .depOutage ms s
  | .audit l => { s with mon := { s.mon with auditNo := l.headD 0 } }
  | .monState f t => { s with mon := { s.mon with fails := f, throttled := t ≠ 0 } }
  | .bank _ _ => s
  | .snapEnd => s
  | .retireRow _ => s
  | .slot _ _ _ => s

/-- The valid bank with the higher GEN (R396). -/
def bootBank (s : State) : Option Nat :=
  let a := bankOf 0 s
  let b := bankOf 1 s
  if a.valid && (!b.valid || a.gen ≥ b.gen) then some 0 else if b.valid then some 1 else none

/-- The Ledger stage ends (R396): the journal is replayed; without a valid bank boot fails with LEDGER_UNREADABLE. -/
def ledgerStage (s : State) : State :=
  if bootStage s ≠ 1 then s
  else match bootBank s with
    | none => setF fSysBootStatusError .sysBootStatus 6 (setStage 5 s)
    | some k =>
      let b := bankOf k s
      let s := onBank k (fun b => { b with dirtyTail := false }) { s with led := { s.led with active := k, recovered := b.dirtyTail } }
      setStage 2 (reportMill (b.recs.foldl (fun s r => replayRecord r s) s))

/-- BOOT_LEDGER_DONE (R396). -/
def execBootLedgerDone (s : State) : Host.Outcome State Fault Refusal := act ledgerStage s

/-- An image boots (R389, R392): REMAP is set, and the firmware tests every tile and calibrates the TDC. -/
def bootSlot (n : Nat) (s : State) : State :=
  let get := (slotOf n s).byte
  let s := setF fSysBootStatusVersion .sysBootStatus (imgField get 8 4) (setF fSysBootStatusSlot .sysBootStatus n (setStage 3 s))
  let s := setReg .reeveCtl 1 { s with sys := { s.sys with imageSvn := imgField get 4 2 } }
  let s := (List.range 4).foldl (fun s q => onQuad q (fun x => { x with testing := x.inService ++ x.shadow.toList ++ x.standby.toList }) s) s
  tdcCalBegin s

/-- A byte of the recovery buffer. -/
def recoveryByte (s : State) (i : Nat) : Byte := storeGet (fun _ => 0) s.sys.recovery i

/-- The buffered image programmed into slot 0 (R392). -/
def programBuffer (s : State) : State :=
  let get := recoveryByte s
  let n := 4096 + imgLength get
  let x : ImgSlot := ⟨storeSetList (fun _ => 0xFF) [] 0 (imgBytes get 0 n), n / 4096, false⟩
  appendRecord (.slot 0 x.pages true) (setSlot 0 x s)

/-- The slot tried first (R392): the higher VERSION, slot 0 on a tie. -/
def firstSlot (s : State) : Nat :=
  match slotVersion 0 s, slotVersion 1 s with
  | some a, some b => if b > a then 1 else 0
  | none, some _ => 1
  | _, none => 0

/-- The VERIFY stage ends (R391, R392): the buffered image, else the first slot, else the second one; else RECOVERY. -/
def verifyStage (s : State) : State :=
  if bootStage s ≠ 2 then s
  else if s.sys.bufferedImage && imageFault (recoveryByte s) s = 0 then
    bootSlot 0 (programBuffer { s with sys := { s.sys with bufferedImage := false } })
  else
    let a := firstSlot s
    let fa := slotFault a s
    let s := { s with sys := { s.sys with bufferedImage := false } }
    if fa = 0 then bootSlot a s
    else if slotFault (1 - a) s = 0 then bootSlot (1 - a) { s with sys := { s.sys with rejected := some (a, fa) } }
    else setF fSysBootStatusError .sysBootStatus fa (setStage 6 s)

/-- BOOT_VERIFY_DONE (R392). -/
def execBootVerifyDone (s : State) : Host.Outcome State Fault Refusal := act verifyStage s

/-- The layout stands without the pseudo-channels recorded as failed, SVN_MIN rises to the image's SVN, and HB reads 1 (R189, R190, R312,
R392). -/
def bootLayout (s : State) : State :=
  let s := (List.range 4).foldl (fun s q => onQuad q (fun x => { x with testing := [] }) s) s
  let s := { s with hbm := { s.hbm with retired := failedPcs s, relayout := false }, hif := { s.hif with hb := true } }
  { s with fuses := { s.fuses with svnMin := min 64 (max s.fuses.svnMin s.sys.imageSvn) } }

/-- The events at the end of boot (R389, R396). -/
def bootEvents (s : State) : State :=
  let s := raise .sysBootDone none 0 0 s
  let s := match s.sys.rejected with
    | some (n, f) => raise .sysImageRejected none (n + f * 2 ^ 32) 0 { s with sys := { s.sys with rejected := none } }
    | none => s
  if s.led.recovered then raise .ledgerRecovered none 0 0 { s with led := { s.led with recovered := false } } else s

/-- The firmware stage ends (R189, R190, R389, R392, R396). -/
def bootDone (s : State) : State :=
  if bootStage s ≠ 3 then s else bootEvents (setStage 4 (bootLayout s))

/-- SYS_BOOT_DONE (R389). -/
def execSysBootDone (s : State) : Host.Outcome State Fault Refusal := act bootDone s

end Sys2Proof.Machine
end

