-- ==== Sys2Proof/Machine/Dma.lean ====
section
/-!
DEFINITION. The DMA engine's commands (R369 to R376).
-/
namespace Sys2Proof.Machine

/-- DMA_START_REGISTER (R369). -/
def execDmaStartRegister (m : Master) (ch : Fin 32) (value : Payload) (s : State) : Host.Outcome State Fault Refusal :=
  actBy m (dmaCtlWrite m ch.val value) s

/-- DMA_START_DESCRIPTOR (R375). -/
def execDmaStartDescriptor (m : Master) (ch : Fin 32) (value : Payload) (s : State) : Host.Outcome State Fault Refusal :=
  actBy m (dmaCtlWrite m ch.val value) s

/-- DMA_ABORT_WRITE (R372). -/
def execDmaAbortWrite (m : Master) (ch : Fin 32) (value : Payload) (s : State) : Host.Outcome State Fault Refusal :=
  actBy m (dmaCtlWrite m ch.val value) s

/-- The descriptor a channel waits for arrives (R375), once the fabric has performed its fetch: it runs, or the chain ends with DESC_ERR
when it could not be read or a reserved field of it is set. A channel that was stopped discards it. -/
def dmaDescFetched (ch : Nat) (readOk : Bool) (s : State) : State :=
  match dmaOf ch s with
  | none => s
  | some c =>
    match (if c.fetching then c.fetchNo else none).bind fun n => (replyOf n s).map fun r => (n, r) with
    | none => s
    | some (n, r) =>
      let s := takeReply n s
      match c.ending, (if readOk then r else none) with
      | some e, _ =>
        let (x, s) := freeNat s
        dmaEnd ch { c with fetching := false, fetchNo := none } e (x % 2 ^ 33) s
      | none, none =>
        let (x, s) := freeNat s
        dmaEnd ch { c with fetching := false, fetchNo := none } 4 (x % 2 ^ 33) s
      | none, some bs =>
        let q2 := leAt bs 16 8
        let n := bitsOf q2 31 0
        let count := if n = 0 then 2 ^ 32 else n
        let c := { c with src := leAt bs 0 8, dst := leAt bs 8 8, count := count, next := 0, written := 0, fetching := false,
                          fetchNo := none, last := bitOf q2 32, evt := bitOf q2 33, nextAt := leAt bs 24 8 }
        if bitsOf q2 63 34 ≠ 0 then dmaEnd ch c 4 count (setDma ch (some c) s)
        else dmaSettle ch (setDma ch (some c) s)

/-- DMA_DESC_FETCHED (R375). -/
def execDmaDescFetched (ch : Fin 32) (readOk : Bool) (s : State) : Host.Outcome State Fault Refusal :=
  act (dmaDescFetched ch.val readOk) s

/-- The oldest read of a channel returns (R370, R372, R373), once the fabric has performed it: its write is issued, its data is
discarded by a channel that ends, or a read that failed ends the transfer. -/
def dmaReadDone (ch : Nat) (readOk : Bool) (s : State) : State :=
  match dmaOf ch s with
  | none => s
  | some c =>
    match c.reads with
    | [] => s
    | (o, _, n) :: rest =>
      match replyOf n s with
      | none => s
      | some r =>
        let s := takeReply n s
        let c := { c with reads := rest }
        if c.discard then dmaSettle ch (setDma ch (some c) s)
        else
          match (if readOk then r else none) with
          | none => dmaSettle ch (setDma ch (some { c with got := [], ending := some 2, discard := true }) s)
          | some bs => dmaSettle ch (setDma ch (some { c with got := c.got ++ [(o, bs)] }) s)

/-- DMA_BURST_READ_DONE (R370). -/
def execDmaBurstReadDone (ch : Fin 32) (readOk : Bool) (s : State) : Host.Outcome State Fault Refusal :=
  act (dmaReadDone ch.val readOk) s

/-- The oldest write of a channel is acknowledged (R371, R374), once the fabric has performed it: its bytes count as written, or the
transfer ends with the failing burst. -/
def dmaWriteAck (ch : Nat) (writeOk : Bool) (s : State) : State :=
  match dmaOf ch s with
  | none => s
  | some c =>
    match c.writes with
    | [] => s
    | (_, len, n) :: rest =>
      match replyOf n s with
      | none => s
      | some r =>
        let s := takeReply n s
        if writeOk && r.isSome && c.ending ≠ some 3 then
          dmaSettle ch (setDma ch (some { c with writes := rest, written := c.written + len }) s)
        else dmaSettle ch (setDma ch (some { c with writes := rest, got := [], ending := some 3, discard := true }) s)

/-- DMA_BURST_WRITE_ACK (R371). -/
def execDmaBurstWriteAck (ch : Fin 32) (writeOk : Bool) (s : State) : Host.Outcome State Fault Refusal :=
  act (dmaWriteAck ch.val writeOk) s

end Sys2Proof.Machine
end

