-- ==== Sys2Proof/Machine/FabricGrant.lean ====
section
/-!
DEFINITION. What a target port does with the transaction it grants, the memory windows as masters read them, the Reeve's address space
with its boot remap, and the release of masters that have drained (R12, R28, R33 to R39, R285, R366).
-/
namespace Sys2Proof.Machine

/-- `n` bytes at `o` of the input map window (R285, R405). -/
def mapWindowRead (o n : Nat) (s : State) : Nat :=
  let i := o / 16
  entryBytes (tabGet 0 0 i s) (o % 16) n

/-- w_c of R226 as the TIME_TDC_BIN window shows it; before the first calibration the widths are those of F(c) = 625 × c + 312. -/
def tdcBin (c : Nat) (s : State) : Nat := (s.time.bins.getD (List.replicate 256 625)).getD c 0 % 4096

/-- `n` bytes at `o` of BAR4 (Table 17-2): the delay banks, the recovery buffer while STAGE is RECOVERY, the TDC bins; 0 elsewhere
(log 141). -/
def bar4Read (o n : Nat) (s : State) : Nat :=
  if o < 0x8000000 then entryBytes (tabGet 2 (o / 2 ^ 26) (o % 2 ^ 26 / 16) s) (o % 16) n
  else if o < 0x8800000 then
    if bootStage s = 6 then ofLe (storeGetList (fun _ => 0) s.sys.recovery (o - 0x8000000) n) else 0
  else if 0x9000000 ≤ o && o < 0x9000800 then
    let c := (o - 0x9000000) / 8
    entryBytes (tdcBin c s) (o % 8) n
  else 0

/-- A read of `n` bytes, 4 or 8, at a BAR0 offset: a window's bytes as they are stored, else a register with its Crier word (R12, R285). -/
def bar0Read (m : Master) (o n : Nat) (s : State) : Nat :=
  if 0x1000000 ≤ o && o < 0x1080000 then mapWindowRead (o - 0x1000000) n s
  else entryBytes (readOffset m (o / 8 * 8) s).toNat (o % 8) n

/-- The state after a BAR0 read: TIME_NOW_S latches the nanoseconds for the master that read it (R210). -/
def afterRead (m : Master) (o : Nat) (s : State) : State :=
  match Reg.ofOffset (o / 8 * 8) with
  | some .timeNowS => timeNowLatch m s
  | _ => s

/-- A master reads `n` bytes of BAR0, or of BAR4, and gets them. -/
def barRead (m : Master) (bar4 : Bool) (o n : Nat) (s : State) : State :=
  if bar4 then emit (.readData m (BitVec.ofNat 64 (bar4Read o n s))) s
  else afterRead m o (emit (.readData m (BitVec.ofNat 64 (bar0Read m o n s))) s)

/-- A master writes an aligned 8 B of BAR0 or 4 or 8 B of a window of BAR4 (R285, R406). -/
def barWrite (m : Master) (bar4 : Bool) (o n v : Nat) (s : State) : State :=
  if bar4 then
    if o < 0x8000000 then delayWindow o n v s
    else if o < 0x8800000 && bootStage s = 6 then
      { s with sys := { s.sys with recovery := storeSetList (fun _ => 0) s.sys.recovery (o - 0x8000000) (leBytes n v) } }
    else s
  else if 0x1000000 ≤ o && o < 0x1080000 then mapWindow (o - 0x1000000) n v s
  else if n = 8 then offsetWrite m o (pay v) s
  else s

/-- The master a class is at the register space (R408); no other class has a route there. -/
def regMaster (c : MasterClass) : Option Master :=
  match c with
  | .hostIn => some .host
  | .reeve => some .reeve
  | _ => none

/-- What the bytes of a read were, or that the access ended with an error, reaches its master: a DMA channel's response waits for it, the
host and the Reeve get the bytes, and any other master its data by its own command (log 139). -/
def answer (t : Txn) (r : Option (List Byte)) (s : State) : State :=
  if t.req.cls = .dma then { s with fab := { s.fab with replies := s.fab.replies ++ [⟨t.serial, r⟩] } }
  else
    match r, regMaster t.req.cls with
    | none, _ => emit (.busError t.req.cls) s
    | some bs, some m => if t.req.write then s else emit (.readData m (BitVec.ofNat 64 (ofLe bs))) s
    | some _, none => s

/-- A burst of the system region is read (R368): the delay banks and the scratch window by their bytes; poison where a burst of it is
poisoned or its pseudo-channel has failed (R201, R205). Other structures are read by their engines. -/
def sysRead (pc a o n : Nat) (s : State) : Option (List Byte) :=
  let poisoned := (List.range ((a % 32 + n + 31) / 32)).any fun i => (burstKey pc (a / 32 * 32 + 32 * i)) ∈ s.hbm.poisoned
  if pcFailed pc s || poisoned then none
  else if delayBase ≤ o && o < chanStateBase then dmaRead (.delay ((o - delayBase) / 67108864) ((o - delayBase) % 67108864)) n s
  else if scratchBase s ≤ o then dmaRead (.scratch (o - scratchBase s)) n s
  else some []

/-- A burst of the system region is written: a failed pseudo-channel discards it (R205). -/
def sysWrite (pc o : Nat) (bs : List Byte) (s : State) : State :=
  if pcFailed pc s then s
  else if delayBase ≤ o && o < chanStateBase then
    (dmaWrite (.delay ((o - delayBase) / 67108864) ((o - delayBase) % 67108864)) bs s).getD s
  else if scratchBase s ≤ o then (dmaWrite (.scratch (o - scratchBase s)) bs s).getD s
  else s

/-- A granted access at HBM (R33, R192): its bursts join the queue of their pseudo-channel, and its bytes are those of its turn. -/
def performHbm (k : Nat) (t : Txn) (s : State) : State :=
  let r := t.req
  let pc := portPc k r.addr
  let a := r.addr % 2 ^ 31
  let s := ctlEnqueue pc a r.len r.write t.qos s
  match regionOf pc a s with
  | some (.sys, o) => if r.write then answer t (some []) (sysWrite pc o r.data s) else answer t (sysRead pc a o r.len s) s
  | _ => answer t (some []) s

/-- The granted transaction is performed at its target, whole, in the order of the grants (R33). -/
def perform (target : FabTarget) (t : Txn) (s : State) : State :=
  let r := t.req
  match target with
  | .hbm n => performHbm n.val t s
  | .staging _ => answer t (some []) s
  | .egressIn => answer t (some []) s
  | .sysSram =>
    if r.addr + r.len > 8388608 then answer t none s
    else if r.write then answer t (some []) { s with sys := { s.sys with sram := storeSetList (fun _ => 0) s.sys.sram r.addr r.data } }
    else answer t (some (storeGetList (fun _ => 0) s.sys.sram r.addr r.len)) s
  | .stwMem c =>
    if r.addr % 4 ≠ 0 || r.len % 4 ≠ 0 || r.addr + r.len > 0x40000 then answer t none s
    else if r.write then answer t (some []) ((dmaWrite (.steward c.val (r.addr / 4)) r.data s).getD s)
    else answer t (dmaRead (.steward c.val (r.addr / 4)) r.len s) s
  | .hostOut =>
    if r.write then answer t (if hostOpen s then some [] else none) (hostWrite r.addr r.data s)
    else answer t (dmaRead (.host r.addr) r.len s) s
  | .regSpace =>
    match regMaster r.cls with
    | none => answer t none s
    | some m =>
      if (r.len ≠ 4 && r.len ≠ 8) || r.addr % r.len ≠ 0 then answer t none s
      else if r.write then barWrite m (2 ^ 28 ≤ r.addr) (r.addr % 2 ^ 28) r.len (ofLe r.data) s
      else barRead m (2 ^ 28 ≤ r.addr) (r.addr % 2 ^ 28) r.len s

/-- A core in the middle of a repeat grants no slot to an access from outside (R346). -/
def portShut (target : FabTarget) (s : State) : Bool :=
  match target with
  | .stwMem c => (coreOf c.val s).rep.isSome
  | _ => false

/-- FABRIC_GRANT (R24 to R28, R33 to R36, R192 to R198, R316): bursts arrive, slices issue in rotation, entries fill, and one transaction
is granted and performed; a parity error ends it with a bus error instead. -/
def fabricGrant (target : FabTarget) (arrivals : List FabArrival) (parity : Bool) (s : State) : State :=
  let k := targetKey target
  let s := issueAll (arrivals.foldl (fun s a => arrive k a s) s)
  let s := fillQueue k (targetOf k s).waiting.length s
  let p := targetOf k s
  match (if portShut target s then none else grantOf p) with
  | none => s
  | some t =>
    let s := setTarget k (afterGrant p t) s
    let s := fillQueue k (targetOf k s).waiting.length s
    let s := if parity then
        let s := raise .fabParity none (arg0 (classNo t.req.cls) 0 0) t.req.addr (emit (.busError t.req.cls) s)
        if t.req.cls = .dma then { s with fab := { s.fab with replies := s.fab.replies ++ [⟨t.serial, none⟩] } } else s
      else perform target t (emit (.granted target t.serial t.qos) s)
    if k < 64 then refreshFree (2 * k + 1) (refreshFree (2 * k) s) else s

/-- FABRIC_GRANT (R28). -/
def execFabricGrant (port : FabTarget) (arrivals : List FabArrival) (parity : Bool) (s : State) :
    Host.Outcome State Fault Refusal :=
  act (fabricGrant port arrivals parity) s

/-- FAB_MASTER_DRAINED (R36): the interface is released when nothing of its class is outstanding; channels that waited go on. -/
def masterDrained (c : MasterClass) (s : State) : State :=
  if c ∈ s.fab.draining && !outstanding c s then
    let s := freeCancelled c (raise .fabMasterDrained none (arg0 (classNo c) 0 0) 0
      { s with fab := { s.fab with draining := s.fab.draining.filter (· ≠ c) } })
    if c = .dma then dmaResume s else s
  else s

/-- FAB_MASTER_DRAINED (R36). -/
def execFabMasterDrained (cls : MasterClass) (s : State) : Host.Outcome State Fault Refusal := act (masterDrained cls) s

/-- A byte of the boot ROM, 256 KiB aliased four times (Table 01-6). -/
def romByte (a : Nat) : Byte := Config.bootRom (a % 262144)

/-- The first window holds the boot ROM until the swap, the second the working SRAM; then the other way round (Table 01-6). -/
def windowIsRom (a : Nat) (s : State) : Bool := (a < 0x100000) != s.sys.remapped

/-- `n` bytes, at most 8, at an address of the Reeve (Table 15-2), with the DMA window its aperture shows; none where the table lists
nothing. What the checker's registers hold is free. -/
def reeveRead (a n window : Nat) (s : State) : Option (List Byte) × State :=
  if a + n ≤ 0x200000 then
    (some ((List.range n).map fun i =>
      if windowIsRom (a + i) s then romByte (a + i) else storeGet (fun _ => 0) s.sys.working ((a + i) % 0x100000)), s)
  else if 0x200000 ≤ a && a + n ≤ 0x210000 then
    let (x, s) := freeNat s
    (some (leBytes n x), s)
  else if 0x10000000 ≤ a && a + n ≤ 0x10800000 then (some (storeGetList (fun _ => 0) s.sys.sram (a - 0x10000000) n), s)
  else if 0x40000000 ≤ a && a + n ≤ 0x44000000 then
    (some (leBytes n (bar0Read .reeve (a - 0x40000000) n s)), afterRead .reeve (a - 0x40000000) s)
  else if 0x50000000 ≤ a && a + n ≤ 0x60000000 then (some (leBytes n (bar4Read (a - 0x50000000) n s)), s)
  else if 0x80000000 ≤ a && a + n ≤ 0x100000000 then
    ((dmaPlace (window * 2 ^ 31 + a - 0x80000000) n false s).bind fun p => dmaRead p n s, s)
  else (none, s)

/-- Bytes written at an address of the Reeve (Table 15-2); none where the table lists nothing. A write to the boot ROM stores nothing,
and what one to the checker's registers does the spec does not say: it stores nothing either (log 141). -/
def reeveWrite (a window : Nat) (bs : List Byte) (s : State) : Option State :=
  let n := bs.length
  if a + n ≤ 0x200000 then
    some ((List.range n).foldl (fun s i => if windowIsRom (a + i) s then s else
      { s with sys := { s.sys with working := storeSet (fun _ => 0) s.sys.working ((a + i) % 0x100000) (bs.getD i 0) } }) s)
  else if 0x200000 ≤ a && a + n ≤ 0x210000 then some s
  else if 0x10000000 ≤ a && a + n ≤ 0x10800000 then
    some { s with sys := { s.sys with sram := storeSetList (fun _ => 0) s.sys.sram (a - 0x10000000) bs } }
  else if 0x40000000 ≤ a && a + n ≤ 0x44000000 then some (barWrite .reeve false (a - 0x40000000) n (ofLe bs) s)
  else if 0x50000000 ≤ a && a + n ≤ 0x60000000 then some (barWrite .reeve true (a - 0x50000000) n (ofLe bs) s)
  else if 0x80000000 ≤ a && a + n ≤ 0x100000000 then
    (dmaPlace (window * 2 ^ 31 + a - 0x80000000) n true s).bind fun p => dmaWrite p bs s
  else none

/-- An access of the Reeve is performed (R37, R366): at an address Table 15-2 does not list it ends with a bus error. -/
def reeveAccess (x : ReeveAccess) (s : State) : State :=
  match x.write with
  | some bs => (reeveWrite x.addr x.window bs s).getD (emit (.busError .reeve) s)
  | none =>
    let (r, s) := reeveRead x.addr x.len x.window s
    match r with
    | some bs => emit (.readData .reeve (BitVec.ofNat 64 (ofLe bs))) s
    | none => emit (.busError .reeve) s

/-- REMAP_SWAP (R37, R38): the accesses outstanding are performed against the mapping that stands; then, with REMAP set and nothing of
the Reeve's left at a port, the two windows swap. -/
def remapSwap (l : List ReeveAccess) (s : State) : State :=
  let s := l.foldl (fun s x => reeveAccess x s) s
  if getF fReeveCtlRemap .reeveCtl s = 1 && !outstanding .reeve s then { s with sys := { s.sys with remapped := true } } else s

/-- REMAP_SWAP (R38). -/
def execRemapSwap (outstanding : List ReeveAccess) (s : State) : Host.Outcome State Fault Refusal := act (remapSwap outstanding) s

/-- MMIO_UNSUPPORTED (R39, R285): an access of a wrong size or alignment, or one at the Reeve's windows, is not supported, and one in
BAR0 drops the split-write latch (R286); a read that is supported is answered. -/
def mmioAccess (a : BarAccess) (s : State) : State :=
  let bad := a.toReeve || (a.size ≠ 4 && a.size ≠ 8) || a.offset % a.size ≠ 0
  let t := if a.bar4 then s else dropLatch s
  if bad then emit .unsupported t else if a.write then s else barRead .host a.bar4 a.offset a.size t

/-- MMIO_UNSUPPORTED (R285). -/
def execMmioUnsupported (a : BarAccess) (s : State) : Host.Outcome State Fault Refusal := actFrom .host (mmioAccess a) s

end Sys2Proof.Machine
end

