-- ==== Sys2Proof/Machine/Jtag.lean ====
section
/-!
DEFINITION. The boundary-scan port (R418).
-/
namespace Sys2Proof.Machine

/-- A boundary-scan command acts while the device is powered, whatever holds it in reset. -/
def jtagAct (f : State → State) (s : State) : Host.Outcome State Fault Refusal := .next (if s.sys.powered then f s else s)

/-- An instruction loaded, and what drives the pins under it. -/
def jtagLoad (ir : BitVec 8) (drive : Nat) (s : State) : State := { s with jtag := { s.jtag with ir := ir, drive := drive } }

/-- A scan through the boundary register of 16 cells: what it captured leaves first; what is left in it stays. -/
def scanBoundary (captured scan : List Bool) (s : State) : State :=
  let all := captured ++ scan
  let x := (all.drop scan.length).take 16
  emit (.jtag (all.take scan.length)) { s with jtag := { s.jtag with boundary := x } }

/-- The bypass register of one bit, which captures 0. -/
def scanBypass (s : State) : State := emit (.jtag [false]) s

/-- EXTEST (R418): while SYS_RST_N is low the boundary register drives the pins; what it captures from them the command does not tell
(free, log 67). Otherwise it acts as BYPASS. -/
def extest (scan : List Bool) (s : State) : State :=
  if s.sys.rstLow then
    let (x, s) := freeNat s
    scanBoundary ((List.range 16).map fun i => bitOf x i) scan (jtagLoad 0x00 1 s)
  else scanBypass (jtagLoad 0x00 0 s)

/-- JTAG_EXTEST (R418). -/
def execJtagExtest (scan : List Bool) (s : State) : Host.Outcome State Fault Refusal := jtagAct (extest scan) s

/-- JTAG_SAMPLE_PRELOAD (R418): the pins are captured and the boundary register loaded; there are 16 pins. -/
def execJtagSamplePreload (pins : List Bool) (scan : List Bool) (s : State) : Host.Outcome State Fault Refusal :=
  if pins.length ≠ 16 then .fault .malformed else jtagAct (fun s => scanBoundary pins scan (jtagLoad 0x01 0 s)) s

/-- The bits of IDCODE, least significant first. -/
def idcodeBits : List Bool := (List.range 32).map fun i => bitOf 0x14096E5B i

/-- JTAG_IDCODE (R418). -/
def execJtagIdcode (s : State) : Host.Outcome State Fault Refusal := jtagAct (fun s => emit (.jtag idcodeBits) (jtagLoad 0x02 0 s)) s

/-- JTAG_CLAMP (R418): the outputs are held at the boundary register while SYS_RST_N is low; the bypass register is scanned. -/
def execJtagClamp (s : State) : Host.Outcome State Fault Refusal :=
  jtagAct (fun s => scanBypass (jtagLoad 0x04 (if s.sys.rstLow then 1 else 0) s)) s

/-- JTAG_HIGHZ (R418): the outputs float while SYS_RST_N is low; the bypass register is scanned. -/
def execJtagHighz (s : State) : Host.Outcome State Fault Refusal :=
  jtagAct (fun s => scanBypass (jtagLoad 0x05 (if s.sys.rstLow then 2 else 0) s)) s

/-- A code that names no other instruction (R418). -/
def isBypass (code : BitVec 8) : Bool := !(code.toNat ∈ [0x00, 0x01, 0x02, 0x04, 0x05])

/-- JTAG_BYPASS (R418): BYPASS, or any code that is not listed. -/
def execJtagBypass (code : BitVec 8) (s : State) : Host.Outcome State Fault Refusal :=
  jtagAct (fun s => if isBypass code then scanBypass (jtagLoad code 0 s) else s) s

/-- JTAG_TEST_LOGIC_RESET (R418): IDCODE is selected. -/
def execJtagTestLogicReset (s : State) : Host.Outcome State Fault Refusal := jtagAct (jtagLoad 0x02 0) s

end Sys2Proof.Machine
end

