-- ==== Sys2Proof/Machine/Monitor.lean ====
section
/-!
DEFINITION. Board management: the SMBus target and the Fraul monitor's commands (R378 to R384).
-/
namespace Sys2Proof.Machine

/-- An SMBus answer, or a NACK while the Reeve restarts (R378). -/
def smbAnswer (f : State → List Byte) (s : State) : Host.Outcome State Fault Refusal :=
  act (fun s => emit (.smbus (if s.sys.reeveRuns then some (f s) else none)) s) s

/-- A signed value as a word. -/
def word16 (x : Int) : List Byte := leBytes 2 (unsignedOf 16 x)

/-- SMB_READ_ATTN (R378). -/
def execSmbReadAttn (s : State) : Host.Outcome State Fault Refusal := smbAnswer (fun s => leBytes 2 (attnNat s)) s

/-- SMB_READ_PART (R378). -/
def execSmbReadPart (s : State) : Host.Outcome State Fault Refusal := smbAnswer (fun s => leBytes 2 (getF fSysIdPart .sysId s)) s

/-- Tj as the last sample gave it, in units of 1/16 °C (R398). -/
def tj (s : State) : Int := signedOf 13 (getF fSysThermStatusTj .sysThermStatus s)

/-- SMB_READ_TJ (R378). -/
def execSmbReadTj (s : State) : Host.Outcome State Fault Refusal := smbAnswer (fun s => word16 (tj s)) s

/-- SMB_READ_POWER (R378): the spec gives the device's power no value (free, log 63). -/
def smbPower (s : State) : State :=
  if s.sys.reeveRuns then
    let (x, s) := freeNat s
    emit (.smbus (some (leBytes 2 x))) s
  else emit (.smbus none) s

/-- SMB_READ_POWER (R378). -/
def execSmbReadPower (s : State) : Host.Outcome State Fault Refusal := act smbPower s

/-- SMB_READ_TEMPS (R378). -/
def execSmbReadTemps (s : State) : Host.Outcome State Fault Refusal := smbAnswer (fun s => s.therm.sensors.flatMap word16) s

/-- SMB_READ_RAILS (R378): millivolts of the rails held in tenths. -/
def execSmbReadRails (s : State) : Host.Outcome State Fault Refusal := smbAnswer (fun s => s.dep.rails.flatMap fun r => word16 (r / 10)) s

/-- SMB_READ_OUTAGE (R378). -/
def execSmbReadOutage (s : State) : Host.Outcome State Fault Refusal :=
  smbAnswer (fun s => leBytes 4 (getF fDepOutageTotalMs .depOutage s)) s

/-- SMB_OTHER (R378): a write, or a command of no row, is refused with a NACK. -/
def execSmbOther (command : BitVec 8) (write : Bool) (s : State) : Host.Outcome State Fault Refusal :=
  act (fun s => if write || command.toNat > 6 then emit (.smbus none) s else s) s

/-- CHAL (R381): a new challenge, free; none while challenges are throttled. -/
def chal (s : State) : State :=
  if s.mon.throttled then say "ER WAIT" s
  else
    let (x, s) := freeNat s
    say ("OK " ++ hexDigits 8 x) { s with mon := { s.mon with challenge := some (BitVec.ofNat 32 x) } }

/-- CHAL (R381). -/
def execChal (s : State) : Host.Outcome State Fault Refusal := monAct chal s

/-- A wrong response (R381): a failure counted, reported and recorded; every third in a row throttles challenges. -/
def unlockFail (s : State) : State :=
  let n := s.mon.fails + 1
  let s := { s with mon := { s.mon with fails := n, throttled := s.mon.throttled || n % 3 = 0 } }
  say "ER LOCKED" (monStateRecord (audit 0 0 0 1 (raise .monUnlockFail none 0 0 s)))

/-- A right response (R381): the session is unlocked, FAILS clears. -/
def unlockDone (s : State) : State :=
  let s := { s with mon := { s.mon with unlocked := true, fails := 0, throttled := false } }
  say "OK" (monStateRecord (audit 0 0 0 0 (raise .monUnlocked none 0 0 s)))

/-- UNLK (R381): the current challenge serves once; an unlocked session is not to be unlocked (log 64). -/
def unlk (r : BitVec 32) (s : State) : State :=
  if s.mon.unlocked then say "ER ACCESS" s
  else
    let ok := responseOk r s
    let s := { s with mon := { s.mon with challenge := none } }
    if ok then unlockDone s else unlockFail s

/-- UNLK (R381). -/
def execUnlk (response : BitVec 32) (s : State) : Host.Outcome State Fault Refusal := monAct (unlk response) s

/-- STAT (R380): ATTN, SYS_ID, Tj and MON_STATUS. -/
def execStat (s : State) : Host.Outcome State Fault Refusal :=
  monAct (fun s => say ("OK " ++ hexDigits 4 (attnNat s) ++ " " ++ hexDigits 12 (readReg .monitor .sysId s).toNat ++ " " ++
    hexDigits 4 (unsignedOf 16 (tj s)) ++ " " ++ hexDigits 12 (monStatus s).toNat) s) s

/-- ESTOP (R314, R382): performed at once; its record follows. -/
def execMonEstop (s : State) : Host.Outcome State Fault Refusal := monAct (fun s => say "OK" (audit 2 0 0 0 (emergencyStop s))) s

/-- RD (R380, R407): 16 digits; a read of TIME_NOW_S latches for the monitor as for any master. -/
def execMonRd (offset : BitVec 24) (s : State) : Host.Outcome State Fault Refusal :=
  monOpen (fun s =>
    let v := readOffset .monitor offset.toNat s
    let s := if offset.toNat = Reg.timeNowS.offset then timeNowLatch .monitor s else s
    say ("OK " ++ hexDigits 16 v.toNat) s) s

/-- A WR is not permitted: HIF_ESTOP, or any REEVE_ register (R382). -/
def wrBarred (o : Nat) : Bool := o = Reg.hifEstop.offset || (0xF0000 ≤ o && o < 0x100000)

/-- WR (R382, R407): audited, and performed once its record is committed. -/
def monWr (o : BitVec 24) (v : Payload) (s : State) : State :=
  if wrBarred o.toNat then say "ER ACCESS" (audit 1 o.toNat v.toNat 1 s) else auditThen 1 o.toNat v.toNat (.wr o v) s

/-- WR (R382). -/
def execMonWr (offset : BitVec 24) (value : Payload) (s : State) : Host.Outcome State Fault Refusal := monOpen (monWr offset value) s

/-- The event log, oldest first: committed entries, then those that wait (R395). -/
def eventLog (s : State) : List LogEvent :=
  ((bankOf s.led.active s).recs.flatMap fun r => match r with | .eventLog es _ => es | _ => []) ++ s.led.events

/-- The last `n` entries of a list. -/
def lastN {α : Type} (n : Nat) (l : List α) : List α := l.drop (l.length - n)

/-- One event log entry as a line (log 65). -/
def eventLine (e : LogEvent) : String :=
  hexDigits 3 e.id ++ " " ++ (match e.part with | some p => hexDigits 1 p.val | none => "-") ++ " " ++ hexDigits 16 e.a0 ++ " " ++
    hexDigits 16 e.a1 ++ " " ++ hexDigits 16 e.time

/-- EVT (R380): the last n entries of the event log. -/
def execMonEvt (n : Nat) (s : State) : Host.Outcome State Fault Refusal :=
  monOpen (fun s => if n = 0 || n > 64 then say "ER SYNTAX" s
    else (lastN n (eventLog s)).foldl (fun s e => say (eventLine e) s) (say "OK" s)) s

/-- The audit records committed, oldest first. -/
def auditLog (s : State) : List (List Nat) :=
  (bankOf s.led.active s).recs.filterMap fun r => match r with | .audit l => some l | _ => none

/-- One audit record as a line (log 65). -/
def auditLine (l : List Nat) : String := l.foldl (fun t x => t ++ (if t = "" then "" else " ") ++ hexDigits 16 x) ""

/-- AUD (R380): the last n audit records. -/
def execAud (n : Nat) (s : State) : Host.Outcome State Fault Refusal :=
  monOpen (fun s => if n = 0 || n > 64 then say "ER SYNTAX" s
    else (lastN n (auditLog s)).foldl (fun s l => say (auditLine l) s) (say "OK" s)) s

/-- BAUD (R380, R382): the rate changes once its record is committed and the OK is sent. -/
def execBaud (index : Nat) (s : State) : Host.Outcome State Fault Refusal :=
  monOpen (fun s => if index > 5 then say "ER SYNTAX" s else auditThen 3 0 index (.baud index) s) s

/-- LOCK (R381): the session ends. -/
def execLock (s : State) : Host.Outcome State Fault Refusal := monOpen (fun s => say "OK" (endSession false s)) s

/-- FUSE LOCKOUT (R383): the code is the response to a fresh challenge; another is not permitted (log 64). -/
def fuseLockout (code : BitVec 32) (s : State) : State :=
  let ok := responseOk code s
  let s := { s with mon := { s.mon with challenge := none } }
  if ok then auditThen 4 0 0 .fuse s else say "ER ACCESS" (audit 4 0 0 1 s)

/-- FUSE_LOCKOUT (R383). -/
def execFuseLockout (code : BitVec 32) (s : State) : Host.Outcome State Fault Refusal := monOpen (fuseLockout code) s

/-- MON_SYNTAX (R380): a malformed or overlong line. -/
def execMonSyntax (_length : Nat) (s : State) : Host.Outcome State Fault Refusal := monAct (say "ER SYNTAX") s

/-- MON_IDLE_TIMEOUT (R381): 600 s without input end a session. -/
def execMonIdleTimeout (s : State) : Host.Outcome State Fault Refusal :=
  monAct (fun s => if s.mon.unlocked then endSession false s else s) s

/-- MON_THROTTLE_END (R381): challenges are answered again. -/
def execMonThrottleEnd (s : State) : Host.Outcome State Fault Refusal :=
  act (fun s => if s.mon.throttled then monStateRecord { s with mon := { s.mon with throttled := false } } else s) s

/-- MON_AUDIT_TIMEOUT (R382): 10 ms passed without the record's commitment. -/
def auditTimeout (s : State) : State :=
  match s.mon.waiting with
  | [] => s
  | _ :: rest => say "ER LEDGER" { s with mon := { s.mon with waiting := rest } }

/-- MON_AUDIT_TIMEOUT (R382). -/
def execMonAuditTimeout (s : State) : Host.Outcome State Fault Refusal := monAct auditTimeout s

/-- MON_RELOCK (R384). -/
def execMonRelock (m : Master) (value : Payload) (s : State) : Host.Outcome State Fault Refusal := actBy m (monCtlWrite value) s

/-- MON_DISABLE (R384). -/
def execMonDisable (m : Master) (value : Payload) (s : State) : Host.Outcome State Fault Refusal := actBy m (monCtlWrite value) s

end Sys2Proof.Machine
end

