-- ==== Sys2Proof/Machine/Rotate.lean ====
section
/-!
DEFINITION. The rotation command (R75, R134, R328).
-/
namespace Sys2Proof.Machine

/-- REGION_ROTATE: rotate the region when it may (R75, R76); the weights of its batches are
finished before (R134), and an SRAM error found as it does is handled (R328). -/
def regionRotate (p : Fin 8) (ecc : Option RotateError) (s : State) : State :=
  if mayRotate p s then
    let s := tableError p ecc s
    let s := if (partOf p s).stopping then rotateStop p s else rotateNormal p (readWeights p s)
    match ecc with
    | some (.corrected w) => sramError (.corrected w) s
    | some (.batch ord) =>
      let s := sramError .uncorrectable s
      ((partOf p s).closed.filter fun c => (c.batch ord).isSome).foldl (fun s c => withholdBatch p c.epoch ord s) s
    | _ => s
  else s

/-- REGION_ROTATE (R75). -/
def execRegionRotate (p : Fin 8) (ecc : Option RotateError) (s : State) : Host.Outcome State Fault Refusal :=
  act (regionRotate p ecc) s

end Sys2Proof.Machine
end

