-- ==== Sys2Proof/Machine/Operands.lean ====
section
/-!
DEFINITION. The operand forms of Steward instructions (R344, R347, Table 14-2): fields, pointers, registers, legality.
-/
namespace Sys2Proof.Machine

/-- OP of an instruction word. -/
def opOf (w : Nat) : Nat := bitsOf w 31 26

/-- S, the saturation bit of F1, F2, F3 and F5. -/
def satOf (w : Nat) : Bool := bitOf w 25

/-- A data register. -/
def Core.reg (x : Core) (i : Nat) : W24 := x.d.getD i 0

/-- A data register written. -/
def Core.setReg (i : Nat) (v : W24) (x : Core) : Core := { x with d := x.d.set i v }

/-- A data register's signed value. -/
def Core.regInt (x : Core) (i : Nat) : Int := signedOf 24 (x.reg i).toNat

/-- An accumulator's signed value. -/
def Core.accInt (x : Core) (i : Nat) : Int := signedOf 56 (x.a.getD i 0).toNat

/-- An accumulator written with the low 56 bits of an integer. -/
def Core.setAcc (i : Nat) (v : Int) (x : Core) : Core := { x with a := x.a.set i (BitVec.ofNat 56 (unsignedOf 56 v)) }

/-- A pointer. -/
def Core.ptr (x : Core) (i : Nat) : Nat := (x.p.getD i 0).toNat

/-- A pointer written. -/
def Core.setPtr (i v : Nat) (x : Core) : Core := { x with p := x.p.set i (BitVec.ofNat 16 v) }

/-- Post-modification of a pointer by M (R344). -/
def Core.postMod (i m : Nat) (x : Core) : Core :=
  let step : Int := match m with | 0 => 0 | 1 => 1 | 2 => -1 | _ => signedOf 24 x.mod.toNat
  let len := (x.l.getD i 0).toNat
  let base := (x.b.getD i 0).toNat
  if m = 0 then x
  else if len = 0 then x.setPtr i (unsignedOf 16 (x.ptr i + step))
  else x.setPtr i (unsignedOf 16 (base + ((x.ptr i : Int) + step - base) % (len : Int)))

/-- The address of LD and ST: (Pn + OFF) mod 2^16 (R344). -/
def memAddr (w : Nat) (x : Core) : Nat := unsignedOf 16 ((x.ptr (bitsOf w 20 18) : Int) + signedOf 16 (bitsOf w 15 0))

/-- The F6 conditions 0 to 13 (Table 14-4); `unread` tells whether the ring of RINGSEL has an entry this core has not read. -/
def condTaken (cond : Nat) (x : Core) (unread : Bool) : Bool :=
  let r := x.sr
  match cond with
  | 0 => true
  | 1 => r.z
  | 2 => !r.z
  | 3 => r.n != r.v
  | 4 => r.n == r.v
  | 5 => !r.z && (r.n == r.v)
  | 6 => r.z || (r.n != r.v)
  | 7 => r.c
  | 8 => !r.c
  | 9 => r.v
  | 10 => !r.v
  | 11 => x.xfers ≠ []
  | 12 => x.xfers = []
  | 13 => unread
  | _ => false

/-- SH of F5 as a signed number. -/
def shOf (w : Nat) : Int := signedOf 6 (bitsOf w 17 12)

/-- The instruction is legal (R347, Tables 14-2 and 14-3): a listed opcode, no RSVD bit set, no refused field value. -/
def legal (w : Nat) : Bool :=
  let op := opOf w
  if op ≤ 0x13 then bitsOf w 12 0 = 0
  else match op with
    | 0x14 => true
    | 0x15 => bitsOf w 20 8 = 0
    | 0x16 => true
    | 0x17 => true
    | 0x18 => !bitOf w 25
    | 0x19 => !bitOf w 25
    | 0x1A => bitsOf w 5 0 = 0
    | 0x1B => bitsOf w 5 0 = 0
    | 0x1C => bitsOf w 5 0 = 0
    | 0x1D => bitsOf w 5 0 = 0 && bitsOf w 25 24 = 0
    | 0x1E => bitsOf w 11 0 = 0 && (match bitsOf w 19 18 with
        | 0 => true | 1 => bitsOf w 17 12 ≤ 32 | 2 => bitsOf w 17 12 = 0 | _ => false)
    | 0x1F => bitsOf w 11 0 = 0 && (match bitsOf w 19 18 with
        | 0 => 0 ≤ shOf w | 1 => bitsOf w 17 12 ≤ 32 | _ => false)
    | 0x20 => bitsOf w 11 0 = 0
    | 0x21 => bitsOf w 23 0 = 0
    | 0x22 => bitsOf w 11 0 = 0
    | 0x23 => bitsOf w 21 14 = 0 && bitsOf w 25 22 ≤ 13
    | 0x24 => bitsOf w 21 14 = 0 && bitsOf w 25 22 ≤ 13
    | 0x25 => bitsOf w 21 14 = 0 && bitsOf w 25 22 ≤ 13
    | 0x26 => bitsOf w 21 14 = 0 && bitsOf w 25 22 = 0
    | 0x27 => bitsOf w 20 16 = 0
    | 0x28 => bitsOf w 15 0 = 0 && bitsOf w 17 16 ≠ 3
    | 0x29 => bitsOf w 20 16 = 0 && bitsOf w 25 24 ≠ 3
    | 0x2A => bitsOf w 15 0 = 0 && bitsOf w 20 16 ≤ 11
    | 0x2B => bitsOf w 25 21 = 0 && bitsOf w 17 0 = 0
    | 0x2C => bitsOf w 25 0 = 0
    | 0x2D => bitsOf w 25 0 = 0
    | 0x2E => bitsOf w 25 0 = 0
    | _ => false

/-- F6 and F7 instructions, which no REP may repeat (R350). -/
def isFlow (w : Nat) : Bool := 0x23 ≤ opOf w && opOf w ≤ 0x2E

/-- The instruction word at an address of program memory. -/
def Core.word (x : Core) (pc : Nat) : Nat := storeGet (fun _ => 0) x.prog pc

end Sys2Proof.Machine
end

