-- ==== Sys2Proof/Machine/Flags.lean ====
section
/-!
DEFINITION. Steward flags and saturation (R342, R343, Table 14-3).
-/
namespace Sys2Proof.Machine

/-- An exact result as a D register stores it: saturated under S, else wrapped; whether it did not fit; and whether it saturated. -/
def fit24 (sat : Bool) (x : Int) : W24 × Bool × Bool :=
  let v := x > 2 ^ 23 - 1 || x < -(2 ^ 23)
  (BitVec.ofNat 24 (unsignedOf 24 (if sat then saturate 24 x else x)), v, sat && v)

/-- As `fit24` for an accumulator. -/
def fit56 (sat : Bool) (x : Int) : Int × Bool × Bool :=
  let v := x > 2 ^ 55 - 1 || x < -(2 ^ 55)
  (if sat then saturate 56 x else signedOf 56 (unsignedOf 56 x), v, sat && v)

/-- Z and N of a stored word. -/
def StwSr.zn (v : W24) (r : StwSr) : StwSr := { r with z := v = 0, n := bitOf v.toNat 23 }

/-- V and the sticky SS. -/
def StwSr.vss (v ss : Bool) (r : StwSr) : StwSr := { r with v := v, ss := r.ss || ss }

/-- The SR with C set so. -/
def StwSr.carry (c : Bool) (r : StwSr) : StwSr := { r with c := c }

/-- Store an exact result in Dd with flags ZNV, and C where given (R342, R343). -/
def Core.put (sat : Bool) (dd : Nat) (exact : Int) (c : Option Bool) (x : Core) : Core :=
  let (v, ov, ss) := fit24 sat exact
  let r := (x.sr.zn v).vss ov ss
  { x.setReg dd v with sr := match c with | some b => r.carry b | none => r }

/-- Flags ZNCV of a difference that no register stores. -/
def Core.flagsOf (exact : Int) (c : Bool) (x : Core) : Core :=
  let (v, ov, _) := fit24 false exact
  { x with sr := ((x.sr.zn v).vss ov false).carry c }

/-- Store a word in Dd with flags ZN only. -/
def Core.putZn (dd : Nat) (v : W24) (x : Core) : Core := { x.setReg dd v with sr := x.sr.zn v }

/-- Store a word in Dd with flags ZN and V = 0. -/
def Core.putLogic (dd : Nat) (v : W24) (x : Core) : Core := { x.setReg dd v with sr := (x.sr.zn v).vss false false }

/-- Store a word in Dd with flag Z only. -/
def Core.putZ (dd : Nat) (v : W24) (x : Core) : Core := { x.setReg dd v with sr := { x.sr with z := v = 0 } }

/-- Store an exact result in accumulator `i` with flags ZNV. -/
def Core.putAcc (sat : Bool) (i : Nat) (exact : Int) (x : Core) : Core :=
  let (v, ov, ss) := fit56 sat exact
  { x.setAcc i v with sr := ({ x.sr with z := v = 0, n := v < 0 }).vss ov ss }

/-- Redundant sign bits of an `n`-bit value. -/
def redundantSigns (n : Nat) (x : Int) : Nat := n - 1 - bitLen (if 0 ≤ x then x else -x - 1).toNat

end Sys2Proof.Machine
end

