-- ==== Sys2Proof/Machine/Steward.lean ====
section
/-!
DEFINITION. The Steward instructions (R348 to R353, Table 14-3) and the cores' interrupts.

A command names a core and an instruction: the core executes it when the word at its PC is that instruction and is legal. Any
other state of the core is left as it is (log 20).
-/
namespace Sys2Proof.Machine

/-- A fault of the core (R353): its transfer interface drains as R35 and R36 describe. -/
def stwFault (c cause : Nat) (s : State) : State := coreFault c cause (masterReset .stewards (some c) s)

/-- After an instruction: the repeat counts down, or the PC advances; beyond 16,383 it is a fault (R350, R353). -/
def stwAdvance (c : Nat) (s : State) : State :=
  let x := coreOf c s
  match x.rep with
  | some (n + 2) => setCore c { x with rep := some (n + 1) } s
  | _ =>
    if x.pc ≥ 16383 then stwFault c 5 (setCore c { x with rep := none } s)
    else setCore c { x with pc := x.pc + 1, rep := none } s

/-- The core stops (R356): transfers as at a fault, STW_STOPPED, and every STW_STOP in flight for it completes. -/
def stwStopNow (c : Nat) (s : State) : State :=
  let x := coreOf c s
  let s := setCore c { x with state := 0, rep := none, stopDue := false, xfers := (x.xfers.take 1).filter (·.result.isSome) } s
  let s := raise .stwStopped (some x.part) (arg0 c x.part.val 0) x.pc (masterReset .stewards (some c) s)
  (s.hif.inflight.filter fun d => d.begun && d.opcode = 0x0F && bitsOf (d.qw 1) 2 0 = c).foldl (fun s d => complete d 0 0 0 s) s

/-- A stop that waited for a repeat takes hold at the instruction's boundary, or once a fault has ended the repeat (R356). -/
def stwBoundary (c : Nat) (s : State) : State :=
  let x := coreOf c s
  if x.stopDue && x.rep.isNone then stwStopNow c s else s

/-- The core executes the word at its PC when it is RUNNING, not paused by THROTTLE, and the word is a legal instruction of this
opcode. -/
def stwExec (c op : Nat) (f : Nat → State → State) (s : State) : State :=
  let x := coreOf c s
  let w := x.word x.pc
  if x.state ≠ 1 || throttled s || opOf w ≠ op || !legal w then s
  else stwBoundary c (f w (setCore c { x with cycles := wrap 48 (x.cycles + 1) } s))

/-- An instruction that changes its core and advances. -/
def stwPlain (c : Fin 8) (op : Nat) (f : Nat → Core → Core) (s : State) : State :=
  stwExec c.val op (fun w s => stwAdvance c.val (onCore c.val (f w) s)) s

/-- Fields of F1 (Table 14-2). -/
def f1d (w : Nat) : Nat := bitsOf w 24 21
/-- Ds of F1. -/
def f1s (w : Nat) : Nat := bitsOf w 20 17
/-- Dt of F1. -/
def f1t (w : Nat) : Nat := bitsOf w 16 13
/-- IMM of F2, signed. -/
def immOf (w : Nat) : Int := signedOf 21 (bitsOf w 20 0)

/-- STW_NOP (R348). -/
def execStwNop (core : Fin 8) (s : State) : Host.Outcome State Fault Refusal := act (stwPlain core 0x00 fun _ x => x) s

/-- A sum with its carry out of bit 23. -/
def stwAddOf (sat : Bool) (dd : Nat) (a b : W24) (cin : Bool) (x : Core) : Core :=
  let k := if cin then 1 else 0
  x.put sat dd (signedOf 24 a.toNat + signedOf 24 b.toNat + k) (some (a.toNat + b.toNat + k ≥ 2 ^ 24))

/-- A difference with its borrow. -/
def stwSubOf (sat : Bool) (dd : Nat) (a b : W24) (cin : Bool) (x : Core) : Core :=
  let k := if cin then 1 else 0
  x.put sat dd (signedOf 24 a.toNat - signedOf 24 b.toNat - k) (some (a.toNat < b.toNat + k))

/-- STW_ADD: Dd = Ds + Dt (R348). -/
def execStwAdd (core : Fin 8) (s : State) : Host.Outcome State Fault Refusal :=
  act (stwPlain core 0x01 fun w x => stwAddOf (satOf w) (f1d w) (x.reg (f1s w)) (x.reg (f1t w)) false x) s

/-- STW_ADC: Dd = Ds + Dt + C (R348). -/
def execStwAdc (core : Fin 8) (s : State) : Host.Outcome State Fault Refusal :=
  act (stwPlain core 0x02 fun w x => stwAddOf (satOf w) (f1d w) (x.reg (f1s w)) (x.reg (f1t w)) x.sr.c x) s

/-- STW_SUB: Dd = Ds − Dt (R348). -/
def execStwSub (core : Fin 8) (s : State) : Host.Outcome State Fault Refusal :=
  act (stwPlain core 0x03 fun w x => stwSubOf (satOf w) (f1d w) (x.reg (f1s w)) (x.reg (f1t w)) false x) s

/-- STW_SBC: Dd = Ds − Dt − C (R348). -/
def execStwSbc (core : Fin 8) (s : State) : Host.Outcome State Fault Refusal :=
  act (stwPlain core 0x04 fun w x => stwSubOf (satOf w) (f1d w) (x.reg (f1s w)) (x.reg (f1t w)) x.sr.c x) s

/-- STW_CMP: flags of Ds − Dt (R348). -/
def execStwCmp (core : Fin 8) (s : State) : Host.Outcome State Fault Refusal :=
  act (stwPlain core 0x05 fun w x =>
    x.flagsOf (x.regInt (f1s w) - x.regInt (f1t w)) ((x.reg (f1s w)).toNat < (x.reg (f1t w)).toNat)) s

/-- STW_AND: Dd = Ds AND Dt (R348). -/
def execStwAnd (core : Fin 8) (s : State) : Host.Outcome State Fault Refusal :=
  act (stwPlain core 0x06 fun w x => x.putLogic (f1d w) (x.reg (f1s w) &&& x.reg (f1t w))) s

/-- STW_OR: Dd = Ds OR Dt (R348). -/
def execStwOr (core : Fin 8) (s : State) : Host.Outcome State Fault Refusal :=
  act (stwPlain core 0x07 fun w x => x.putLogic (f1d w) (x.reg (f1s w) ||| x.reg (f1t w))) s

/-- STW_XOR: Dd = Ds XOR Dt (R348). -/
def execStwXor (core : Fin 8) (s : State) : Host.Outcome State Fault Refusal :=
  act (stwPlain core 0x08 fun w x => x.putLogic (f1d w) (x.reg (f1s w) ^^^ x.reg (f1t w))) s

/-- The shift amount Dt[4:0]. -/
def amount (w : Nat) (x : Core) : Nat := (x.reg (f1t w)).toNat % 32

/-- STW_SHL: Dd = Ds << Dt[4:0], amounts above 23 giving 0 (R348). -/
def execStwShl (core : Fin 8) (s : State) : Host.Outcome State Fault Refusal :=
  act (stwPlain core 0x09 fun w x =>
    x.put (satOf w) (f1d w) (if amount w x > 23 then 0 else x.regInt (f1s w) * 2 ^ amount w x) none) s

/-- STW_SHR: logical, amounts above 23 giving 0 (R348). -/
def execStwShr (core : Fin 8) (s : State) : Host.Outcome State Fault Refusal :=
  act (stwPlain core 0x0A fun w x => x.putZn (f1d w) (BitVec.ofNat 24 ((x.reg (f1s w)).toNat / 2 ^ amount w x))) s

/-- STW_ASR: arithmetic, amounts above 23 giving the sign (R348). -/
def execStwAsr (core : Fin 8) (s : State) : Host.Outcome State Fault Refusal :=
  act (stwPlain core 0x0B fun w x => x.putZn (f1d w) (BitVec.ofNat 24 (unsignedOf 24 (x.regInt (f1s w) / 2 ^ amount w x)))) s

/-- STW_MUL: Dd = (Ds × Dt + 2^22) >> 23 (R348). -/
def execStwMul (core : Fin 8) (s : State) : Host.Outcome State Fault Refusal :=
  act (stwPlain core 0x0C fun w x => x.put (satOf w) (f1d w) ((x.regInt (f1s w) * x.regInt (f1t w) + 2 ^ 22) / 2 ^ 23) none) s

/-- STW_MIN (R348). -/
def execStwMin (core : Fin 8) (s : State) : Host.Outcome State Fault Refusal :=
  act (stwPlain core 0x0D fun w x =>
    x.putZn (f1d w) (if x.regInt (f1s w) ≤ x.regInt (f1t w) then x.reg (f1s w) else x.reg (f1t w))) s

/-- STW_MAX (R348). -/
def execStwMax (core : Fin 8) (s : State) : Host.Outcome State Fault Refusal :=
  act (stwPlain core 0x0E fun w x =>
    x.putZn (f1d w) (if x.regInt (f1s w) ≥ x.regInt (f1t w) then x.reg (f1s w) else x.reg (f1t w))) s

/-- STW_ABS (R348). -/
def execStwAbs (core : Fin 8) (s : State) : Host.Outcome State Fault Refusal :=
  act (stwPlain core 0x0F fun w x => x.put (satOf w) (f1d w) ((x.regInt (f1s w)).natAbs) none) s

/-- STW_NEG: Dd = −Ds (R348). -/
def execStwNeg (core : Fin 8) (s : State) : Host.Outcome State Fault Refusal :=
  act (stwPlain core 0x10 fun w x => stwSubOf (satOf w) (f1d w) 0 (x.reg (f1s w)) false x) s

/-- STW_POPC: Dd = count of 1 bits in Ds (R348). -/
def execStwPopc (core : Fin 8) (s : State) : Host.Outcome State Fault Refusal :=
  act (stwPlain core 0x11 fun w x => x.putZ (f1d w) (BitVec.ofNat 24 (popCount 24 (x.reg (f1s w)).toNat))) s

/-- STW_NORM: Dd = redundant sign bits of Ds (R348). -/
def execStwNorm (core : Fin 8) (s : State) : Host.Outcome State Fault Refusal :=
  act (stwPlain core 0x12 fun w x => x.putZ (f1d w) (BitVec.ofNat 24 (redundantSigns 24 (x.regInt (f1s w))))) s

/-- STW_MOV: Dd = Ds (R348). -/
def execStwMov (core : Fin 8) (s : State) : Host.Outcome State Fault Refusal :=
  act (stwPlain core 0x13 fun w x => x.putZn (f1d w) (x.reg (f1s w))) s

/-- STW_LDI: Dd = IMM sign-extended (R348). -/
def execStwLdi (core : Fin 8) (s : State) : Host.Outcome State Fault Refusal :=
  act (stwPlain core 0x14 fun w x => x.setReg (f1d w) (BitVec.ofNat 24 (unsignedOf 24 (immOf w)))) s

/-- STW_LDH: Dd[23:16] = IMM[7:0] (R348). -/
def execStwLdh (core : Fin 8) (s : State) : Host.Outcome State Fault Refusal :=
  act (stwPlain core 0x15 fun w x => x.setReg (f1d w) (setFld ⟨23, 16⟩ (bitsOf w 7 0) (x.reg (f1d w)))) s

/-- STW_ADDI: Dd = Dd + IMM (R348). -/
def execStwAddi (core : Fin 8) (s : State) : Host.Outcome State Fault Refusal :=
  act (stwPlain core 0x16 fun w x =>
    stwAddOf (satOf w) (f1d w) (x.reg (f1d w)) (BitVec.ofNat 24 (unsignedOf 24 (immOf w))) false x) s

/-- STW_CMPI: flags of Dd − IMM (R348). -/
def execStwCmpi (core : Fin 8) (s : State) : Host.Outcome State Fault Refusal :=
  act (stwPlain core 0x17 fun w x =>
    x.flagsOf (x.regInt (f1d w) - immOf w) ((x.reg (f1d w)).toNat < unsignedOf 24 (immOf w))) s

/-- STW_LD: D = [P + OFF], then P post-modified (R344, R348). -/
def execStwLd (core : Fin 8) (s : State) : Host.Outcome State Fault Refusal :=
  act (stwPlain core 0x18 fun w x =>
    (x.setReg (f1d w) (x.load (memAddr w x))).postMod (bitsOf w 20 18) (bitsOf w 17 16)) s

/-- STW_ST: [P + OFF] = D, then P post-modified (R344, R348). -/
def execStwSt (core : Fin 8) (s : State) : Host.Outcome State Fault Refusal :=
  act (stwPlain core 0x19 fun w x =>
    (x.store (memAddr w x) (x.reg (f1d w))).postMod (bitsOf w 20 18) (bitsOf w 17 16)) s

/-- The loads and post-modifications of F3 (R345, R348). -/
def f3Loads (w : Nat) (x : Core) : Core :=
  let px := bitsOf w 17 15
  let py := bitsOf w 12 10
  let vx := x.load (x.ptr px)
  let vy := x.load (x.ptr py)
  let x := if bitOf w 7 then x.setReg (bitsOf w 23 21) vx else x
  let x := if bitOf w 6 then x.setReg (8 + bitsOf w 20 18) vy else x
  (x.postMod px (bitsOf w 14 13)).postMod py (bitsOf w 9 8)

/-- The product of F3, of Dx and Dy as they were before. -/
def f3Product (w : Nat) (x : Core) : Int := x.regInt (bitsOf w 23 21) * x.regInt (8 + bitsOf w 20 18)

/-- A of F3 and F5. -/
def accOf (w : Nat) : Nat := bitsOf w 24 24

/-- STW_MPY: A = Dx × Dy; loads (R348). -/
def execStwMpy (core : Fin 8) (s : State) : Host.Outcome State Fault Refusal :=
  act (stwPlain core 0x1A fun w x => f3Loads w (x.putAcc (satOf w) (accOf w) (f3Product w x))) s

/-- STW_MAC: A = A + Dx × Dy; loads (R348). -/
def execStwMac (core : Fin 8) (s : State) : Host.Outcome State Fault Refusal :=
  act (stwPlain core 0x1B fun w x => f3Loads w (x.putAcc (satOf w) (accOf w) (x.accInt (accOf w) + f3Product w x))) s

/-- STW_MSU: A = A − Dx × Dy; loads (R348). -/
def execStwMsu (core : Fin 8) (s : State) : Host.Outcome State Fault Refusal :=
  act (stwPlain core 0x1C fun w x => f3Loads w (x.putAcc (satOf w) (accOf w) (x.accInt (accOf w) - f3Product w x))) s

/-- STW_LD2: loads only (R348). -/
def execStwLd2 (core : Fin 8) (s : State) : Host.Outcome State Fault Refusal :=
  act (stwPlain core 0x1D fun w x => f3Loads w x) s

/-- The view of an accumulator MVA moves (R349). -/
def mvaOf (w : Nat) (x : Core) : Core :=
  let a := x.accInt (accOf w)
  let dd := bitsOf w 23 20
  let sh := shOf w
  match bitsOf w 19 18 with
  | 0 =>
    let v : Int := if sh > 0 then (a + 2 ^ (sh.toNat - 1)) / 2 ^ sh.toNat else a * 2 ^ (-sh).toNat
    x.put (satOf w) dd v none
  | 1 => x.putLogic dd (BitVec.ofNat 24 (unsignedOf 56 a / 2 ^ bitsOf w 17 12))
  | _ => x.putLogic dd (BitVec.ofNat 24 (redundantSigns 56 a))

/-- STW_MVA: D = view of A (R349). -/
def execStwMva (core : Fin 8) (s : State) : Host.Outcome State Fault Refusal := act (stwPlain core 0x1E mvaOf) s

/-- The view of an accumulator LDA writes (R349). -/
def ldaOf (w : Nat) (x : Core) : Core :=
  let dd := bitsOf w 23 20
  let sh := bitsOf w 17 12
  if bitsOf w 19 18 = 0 then x.setAcc (accOf w) (x.regInt dd * 2 ^ sh)
  else x.setAcc (accOf w) (putBits (x.a.getD (accOf w) 0).toNat (sh + 23) sh (x.reg dd).toNat)

/-- STW_LDA: view of A = D (R349). -/
def execStwLda (core : Fin 8) (s : State) : Host.Outcome State Fault Refusal := act (stwPlain core 0x1F ldaOf) s

/-- STW_SHA: A = A >> SH, a left shift for negative SH (R348). -/
def execStwSha (core : Fin 8) (s : State) : Host.Outcome State Fault Refusal :=
  act (stwPlain core 0x20 fun w x =>
    let a := x.accInt (accOf w)
    x.putAcc (satOf w) (accOf w) (if shOf w ≥ 0 then a / 2 ^ (shOf w).toNat else a * 2 ^ (-shOf w).toNat)) s

/-- STW_ADDA: A(A) = A(A) + A(1 − A) (R348). -/
def execStwAdda (core : Fin 8) (s : State) : Host.Outcome State Fault Refusal :=
  act (stwPlain core 0x21 fun w x => x.putAcc (satOf w) (accOf w) (x.accInt (accOf w) + x.accInt (1 - accOf w))) s

/-- STW_CLRA: A(A) = 0 (R348). -/
def execStwClra (core : Fin 8) (s : State) : Host.Outcome State Fault Refusal :=
  act (stwPlain core 0x22 fun w x => x.setAcc (accOf w) 0) s

/-- The ring of RINGSEL has an entry this core has not read (Table 14-4). -/
def ringUnread (c : Nat) (s : State) : Bool :=
  let r := sysRing (coreOf c s).ringsel s
  r.next > r.readAt (1 + c)

/-- COND of F6 holds. -/
def f6Taken (c w : Nat) (s : State) : Bool := condTaken (bitsOf w 25 22) (coreOf c s) (ringUnread c s)

/-- A taken flow instruction takes 3 cycles (R348). -/
def stwJump (c pc : Nat) (s : State) : State :=
  onCore c (fun x => { x with pc := pc, cycles := wrap 48 (x.cycles + 2), rep := none }) s

/-- STW_BR: if COND, PC = TARGET (R348). -/
def execStwBr (core : Fin 8) (s : State) : Host.Outcome State Fault Refusal :=
  act (stwExec core.val 0x23 fun w s =>
    if f6Taken core.val w s then stwJump core.val (bitsOf w 13 0) s else stwAdvance core.val s) s

/-- STW_CALL: if COND, push PC + 1 and PC = TARGET; a ninth entry is a fault (R341, R348, R353). -/
def execStwCall (core : Fin 8) (s : State) : Host.Outcome State Fault Refusal :=
  act (stwExec core.val 0x24 fun w s =>
    let x := coreOf core.val s
    if !f6Taken core.val w s then stwAdvance core.val s
    else if x.stack.length ≥ 8 then stwFault core.val 3 s
    else stwJump core.val (bitsOf w 13 0) (setCore core.val { x with stack := (x.pc + 1) % 16384 :: x.stack } s)) s

/-- STW_RET: if COND, pop PC; an empty stack is a fault (R348, R353). -/
def execStwRet (core : Fin 8) (s : State) : Host.Outcome State Fault Refusal :=
  act (stwExec core.val 0x25 fun w s =>
    let x := coreOf core.val s
    if !f6Taken core.val w s then stwAdvance core.val s
    else match x.stack with
      | [] => stwFault core.val 3 s
      | r :: rest => stwJump core.val r (setCore core.val { x with stack := rest } s)) s

/-- STW_RTI: PC and SR from the return register (R351). -/
def execStwRti (core : Fin 8) (s : State) : Host.Outcome State Fault Refusal :=
  act (stwExec core.val 0x26 fun _ s =>
    let x := coreOf core.val s
    stwJump core.val x.ret.1 (setCore core.val { x with sr := x.ret.2 } s)) s

/-- STW_REP: the next instruction runs COUNT times; an F6 or F7 instruction there is a fault (R350, R353). -/
def execStwRep (core : Fin 8) (s : State) : Host.Outcome State Fault Refusal :=
  act (stwExec core.val 0x27 fun w s =>
    let x := coreOf core.val s
    let n := if bitOf w 25 then (x.reg (f1d w)).toNat % 65536 else bitsOf w 15 0
    let next := x.word (x.pc + 1)
    if x.pc ≥ 16383 then stwFault core.val 5 s
    else if isFlow next then stwFault core.val 2 (setCore core.val { x with pc := x.pc + 1 } s)
    else setCore core.val { x with pc := x.pc + 1, rep := some (if n = 0 then 65536 else n) } s) s

/-- A pointer, base or length register by KIND. -/
def Core.addrReg (x : Core) (kind n : Nat) : BitVec 16 :=
  match kind with | 0 => x.p.getD n 0 | 1 => x.b.getD n 0 | _ => x.l.getD n 0

/-- A pointer, base or length register written. -/
def Core.setAddrReg (kind n : Nat) (v : BitVec 16) (x : Core) : Core :=
  match kind with | 0 => { x with p := x.p.set n v } | 1 => { x with b := x.b.set n v } | _ => { x with l := x.l.set n v }

/-- STW_MOVP: between D and a pointer, base or length register (R348). -/
def execStwMovp (core : Fin 8) (s : State) : Host.Outcome State Fault Refusal :=
  act (stwPlain core 0x28 fun w x =>
    let k := bitsOf w 17 16
    let n := bitsOf w 20 18
    if bitOf w 25 then x.setAddrReg k n (BitVec.ofNat 16 (x.reg (f1d w)).toNat)
    else x.setReg (f1d w) (BitVec.ofNat 24 (x.addrReg k n).toNat)) s

/-- STW_SETP: a pointer, base or length register set (R348). -/
def execStwSetp (core : Fin 8) (s : State) : Host.Outcome State Fault Refusal :=
  act (stwPlain core 0x29 fun w x => x.setAddrReg (bitsOf w 25 24) (bitsOf w 23 21) (BitVec.ofNat 16 (bitsOf w 15 0))) s

/-- SR as a word (Table 14-5). -/
def StwSr.word (r : StwSr) : Nat :=
  (if r.z then 1 else 0) + (if r.n then 2 else 0) + (if r.c then 4 else 0) + (if r.v then 8 else 0) + (if r.ss then 16 else 0) +
  (if r.ien then 32 else 0) + (if r.inh then 64 else 0)

/-- A special register's value (Table 14-5). -/
def Core.special (x : Core) (c k : Nat) : Nat :=
  match k with
  | 0 => x.sr.word
  | 1 => x.ie
  | 2 => x.ip
  | 3 => x.mod.toNat
  | 4 => x.timer.toNat
  | 5 => x.ringsel
  | 6 => x.subno % 2 ^ 24
  | 7 => x.subno / 2 ^ 24
  | 8 => x.xfers.length
  | 9 => c + 8 * x.part.val
  | 10 => x.cycles % 2 ^ 24
  | _ => x.cycleH

/-- A special register written; read-only ones ignore it (R352). -/
def Core.setSpecial (k : Nat) (v : W24) (x : Core) : Core :=
  let n := v.toNat
  match k with
  | 0 => { x with sr := ⟨bitOf n 0, bitOf n 1, bitOf n 2, bitOf n 3, bitOf n 4, bitOf n 5, x.sr.inh⟩ }
  | 1 => { x with ie := n % 16 }
  | 2 => { x with ip := Nat.land x.ip (15 - n % 16) }
  | 3 => { x with mod := v }
  | 4 => { x with timer := v }
  | 5 => { x with ringsel := n % 4 }
  | _ => x

/-- STW_MOVS: between D and a special register; a read of CYCLE_L latches CYCLE_H (R352). -/
def execStwMovs (core : Fin 8) (s : State) : Host.Outcome State Fault Refusal :=
  act (stwPlain core 0x2A fun w x =>
    let k := bitsOf w 20 16
    if bitOf w 25 then x.setSpecial k (x.reg (f1d w))
    else
      let y := x.setReg (f1d w) (BitVec.ofNat 24 (x.special core.val k))
      if k = 10 then { y with cycleH := x.cycles / 2 ^ 24 } else y) s

/-- 64 bits of a transfer block: words `i`, `i + 1` and the low 16 bits of word `i + 2` (Table 14-6). -/
def blockQword (x : Core) (a i : Nat) : Nat :=
  (x.load (a + i)).toNat + (x.load (a + i + 1)).toNat * 2 ^ 24 + (x.load (a + i + 2)).toNat % 65536 * 2 ^ 48

/-- The transfer whose block is at an address (R358, Table 14-6); a KIND not defined is refused at once. -/
def readBlock (x : Core) (a : Nat) : Xfer :=
  let w0 := (x.load a).toNat
  let kind := bitsOf w0 23 20
  let n := bitsOf w0 15 0
  { kind := kind, region := bitsOf w0 19 16, count := if n = 0 then 65536 else n, index := (x.load (a + 1)).toNat,
    rsvd := bitsOf (x.load (a + 2)).toNat 23 16 ≠ 0, buf := bitsOf (x.load (a + 2)).toNat 15 0, aux := (x.load (a + 5)).toNat,
    sC := blockQword x a 6, ref := blockQword x a 9, block := a,
    result := if kind > 3 then some (if bitsOf (x.load (a + 2)).toNat 23 16 ≠ 0 then 0x11 else 0x1B, 0, none) else none }

/-- STW_XREQ: the transfer joins the queue and word 3 of its block clears; with four outstanding the core stalls (R357, R358). -/
def execStwXreq (core : Fin 8) (s : State) : Host.Outcome State Fault Refusal :=
  act (stwExec core.val 0x2B fun w s =>
    let x := coreOf core.val s
    let a := x.ptr (bitsOf w 20 18)
    if x.xfers.length ≥ 4 then s
    else stwAdvance core.val (setCore core.val (({ x with xfers := x.xfers ++ [readBlock x a] } : Core).putContainer (a + 3) 0) s)) s

/-- STW_XWAIT: the core waits until no transfer is outstanding (R348). -/
def execStwXwait (core : Fin 8) (s : State) : Host.Outcome State Fault Refusal :=
  act (stwExec core.val 0x2C fun _ s => if (coreOf core.val s).xfers = [] then stwAdvance core.val s else s) s

/-- STW_WAIT: the core sleeps until an enabled interrupt is pending (R348). -/
def execStwWait (core : Fin 8) (s : State) : Host.Outcome State Fault Refusal :=
  act (stwExec core.val 0x2D fun _ s =>
    let s := stwAdvance core.val s
    onCore core.val (fun x => if x.state = 1 && Nat.land x.ip x.ie = 0 then { x with state := 2 } else x) s) s

/-- STW_HALT: the core stops HALTED with STW_STOPPED (R348). -/
def execStwHalt (core : Fin 8) (s : State) : Host.Outcome State Fault Refusal :=
  act (stwExec core.val 0x2E fun _ s =>
    let s := stwAdvance core.val s
    let x := coreOf core.val s
    if x.state = 3 then s
    else raise .stwStopped (some x.part) (arg0 core.val x.part.val 0) x.pc (setCore core.val { x with state := 4 } s)) s

/-- STW_ILLEGAL: an illegal word at the PC faults the core, and an uncorrectable error of its memories faults an active one (R347, R353,
Table 13-4). -/
def execStwIllegal (core : Fin 8) (memUe : Bool) (s : State) : Host.Outcome State Fault Refusal :=
  act (fun s =>
    let x := coreOf core.val s
    if memUe then
      let s := sramError .uncorrectable s
      if x.active then stwBoundary core.val (stwFault core.val 4 s) else s
    else if x.state = 1 && !throttled s && !legal (x.word x.pc) then stwBoundary core.val (stwFault core.val 1 s)
    else s) s

/-- The source to take: lowest number first among pending and enabled ones, while IEN is 1, INH is 0 and no repeat runs (R350,
R351). -/
def takeable (x : Core) : Option Nat :=
  if x.active && x.sr.ien && !x.sr.inh && x.rep.isNone then
    (List.range 4).find? fun k => bitOf x.ip k && bitOf x.ie k
  else none

/-- STW_INTERRUPT_ENTRY: PC and SR saved, the source's IP cleared, INH set and IEN cleared, PC at the vector (R351). -/
def execStwInterruptEntry (core : Fin 8) (s : State) : Host.Outcome State Fault Refusal :=
  act (fun s =>
    let x := coreOf core.val s
    match (if throttled s then none else takeable x) with
    | none => s
    | some k => setCore core.val { x with ret := (x.pc, x.sr), ip := putBits x.ip k k 0,
                                          sr := { x.sr with inh := true, ien := false }, pc := 4 * (k + 1), state := 1 } s) s

/-- STW_TIMER_EXPIRE: the TIMER source becomes pending; a period of 0 is off (R351, R352). -/
def execStwTimerExpire (core : Fin 8) (s : State) : Host.Outcome State Fault Refusal :=
  act (fun s => if (coreOf core.val s).timer = 0 then s else onCore core.val (Core.pend 3) s) s

/-- STW_SLOT_STALL: an outside access that waited 16 cycles stalls the core for one, but never within a repeat (R346). -/
def execStwSlotStall (core : Fin 8) (s : State) : Host.Outcome State Fault Refusal :=
  act (fun s => onCore core.val (fun x => if x.state = 1 && x.rep.isNone then { x with cycles := wrap 48 (x.cycles + 1) } else x) s) s

end Sys2Proof.Machine
end

