-- ==== Sys2Proof/Machine/StwXfer.lean ====
section
/-!
DEFINITION. Loading, running and stopping Steward cores, and their transfers (R354 to R361).
-/
namespace Sys2Proof.Machine

/-- The core a descriptor names. -/
def descCore (d : Desc) : Nat := bitsOf (d.qw 1) 2 0

/-- OFFSET and BUF_LEN of STW_LOAD fit the memory it names, in whole words (R354). -/
def loadFits (d : Desc) : Bool :=
  let o := bitsOf (d.qw 1) 31 8
  let n := bitsOf (d.qw 3) 31 0
  o % 4 = 0 && n % 4 = 0 && o + n ≤ (if bitOf (d.qw 1) 3 then 262144 else 65536)

/-- A word put into program or data memory from outside (R354). -/
def loadWord (data : Bool) (a v : Nat) (x : Core) : Core :=
  if data then x.putContainer a v else { x with prog := storeSet (fun _ => 0) x.prog a (v % 2 ^ 32) }

/-- STW_LOAD's effect (R354): the words read before a host read failed stand. -/
def stwLoad (wordsRead : Nat) (d : Desc) (s : State) : State :=
  let n := bitsOf (d.qw 3) 31 0 / 4
  let o := bitsOf (d.qw 1) 31 8 / 4
  let m := min n wordsRead
  let s := (List.range m).foldl (fun s i =>
    onCore (descCore d) (loadWord (bitOf (d.qw 1) 3) (o + i) (ofLe (hostRead (d.qw 2 + 4 * i) 4 s))) s) s
  complete d (if m < n then 0x50 else 0) 0 0 s

/-- STW_LOAD (R354). -/
def execStwLoad (tag : BitVec 17) (wordsRead : Nat) (s : State) : Host.Outcome State Fault Refusal :=
  act (runDesc (· = 0x0D) tag.toNat
    (fun d s => [chk (!loadFits d) 0x13, chk (coreOf (descCore d) s).active 0x38]) (stwLoad wordsRead)) s

/-- A core as STW_RUN starts it (R355): what the rule lists is cleared, the cycle counter counts from here, and the rest is kept: memories, the
queue of transfers, SUBNO, the latched CYCLE_H, the return register and the cause of the last fault. -/
def Core.started (p : Fin 8) (pc : Nat) (x : Core) : Core :=
  { Core.idle with prog := x.prog, data := x.data, xfers := x.xfers, subno := x.subno, cycleH := x.cycleH, ret := x.ret, cause := x.cause,
                   part := p, pc := pc, state := 1 }

/-- STW_RUN's effect (R355): the core's ring read positions clear too. -/
def stwRun (d : Desc) (s : State) : State :=
  let c := descCore d
  let s := onCore c (Core.started d.part (bitsOf (d.qw 1) 29 16)) s
  complete d 0 0 0 ((List.range 4).foldl (fun s k => setSysRing k ((sysRing k s).seek (1 + c) 0) s) s)

/-- STW_RUN (R355). -/
def execStwRun (tag : BitVec 17) (s : State) : Host.Outcome State Fault Refusal :=
  act (runDesc (· = 0x0E) tag.toNat (fun d s => [chk (coreOf (descCore d) s).active 0x38]) stwRun) s

/-- STW_STOP's effect (R356): the core stops at once, or when the repeat in progress has ended. -/
def stwStop (d : Desc) (s : State) : State :=
  let x := coreOf (descCore d) s
  if x.active && x.rep.isSome then setCore (descCore d) { x with stopDue := true } s else stwStopNow (descCore d) s

/-- STW_STOP (R356). -/
def execStwStop (tag : BitVec 17) (s : State) : Host.Outcome State Fault Refusal :=
  act (runDesc (· = 0x0F) tag.toNat (fun _ _ => []) stwStop) s

/-- Bytes of an entry of a region (Table 14-7). -/
def regionEntry (r : Nat) : Nat :=
  match r with | 0 => 64 | 1 => 32 | 3 => 32 | 4 => 8 | _ => 16

/-- Entries of a region that INDEX addresses; a ring's is ignored (Table 14-7). -/
def regionSize (r : Nat) (x : Part) : Option Nat :=
  match r with
  | 4 => some x.cfg.inputs | 5 => tableSize 1 | 6 => tableSize 2 | 7 => tableSize 3 | 8 => tableSize 4 | 9 => tableSize 5
  | _ => none

/-- The checks of a READ or WRITE transfer (R358, R359). -/
def xferChecks (write : Bool) (t : Xfer) (p : Fin 8) (s : State) : List Check :=
  let x := partOf p s
  [chk t.rsvd 0x11,
   chk ((t.region ≤ 9 && t.buf + t.count * (regionEntry t.region / 2) > 65536) ||
     (match (if t.region = 4 && !x.started then none else regionSize t.region x) with
       | some n => t.index + t.count > n
       | none => false)) 0x13,
   chk (t.region = 4 && (!x.started || !x.cfg.hasChan t.aux)) 0x14,
   chk (t.region > 9 || (write && t.region ≠ 5 && t.region ≠ 6)) 0x1B]

/-- An entry of a region as halfwords into a core's data buffer (R358). -/
def putHalfwords (a n v : Nat) (x : Core) : Core :=
  (List.range n).foldl (fun x h => x.putContainer (a + h) (v / 65536 ^ h % 65536)) x

/-- An entry from a core's data buffer: bits [15:0] of its words (R358). -/
def takeHalfwords (a n : Nat) (x : Core) : Nat :=
  ((List.range n).map fun h => (x.load (a + h)).toNat % 65536 * 65536 ^ h).foldl (· + ·) 0

/-- An entry of a region that is no ring (Table 14-7). -/
def regionRead (t : Xfer) (p : Fin 8) (i : Nat) (s : State) : Nat :=
  match t.region with
  | 4 => match chanOf p t.aux s with | some c => c.f i | none => 0
  | 5 => tabGet 1 0 i s
  | 6 => tabGet 2 (t.aux % 2) i s
  | 7 => entryNow 3 i s
  | 8 => entryNow 4 i s
  | _ => entryNow 5 i s

/-- The transfer at the head of a core's queue, while it has no result. -/
def headXfer (c kind : Nat) (s : State) : Option Xfer :=
  match (coreOf c s).xfers with
  | t :: _ => if t.kind = kind && t.result.isNone then some t else none
  | [] => none

/-- The head transfer's result: status, entries, and word 5 of a ring read (R358). -/
def xferResult (c status count : Nat) (lost : Option Nat) (s : State) : State :=
  onCore c (fun x => { x with xfers := match x.xfers with
    | t :: ts => { t with result := some (status, count, lost) } :: ts
    | [] => [] }) s

/-- Perform the head transfer of a kind where its checks pass; while the Stewards are paused (Table 16-6), their interface drains (R36), or the
core repeats an instruction and grants no slot (R346), the engine does nothing (R357, R359). -/
def runXfer (c kind : Nat) (checks : Xfer → Fin 8 → State → List Check) (effect : Xfer → Fin 8 → State → State) (s : State) : State :=
  match headXfer c kind s with
  | none => s
  | some t =>
    if throttled s || .stewards ∈ s.fab.draining || (coreOf c s).rep.isSome then s
    else
      let p := (coreOf c s).part
      match firstFail (checks t p s) with
      | some k => xferResult c k.code 0 none s
      | none => effect t p s

/-- A READ of a ring: the core's oldest unread entries, its position advanced, and what was overwritten unread (R359). -/
def ringRead (c : Nat) (t : Xfer) (s : State) : State :=
  let r := sysRing t.region s
  let got := r.take t.region (1 + c) t.count
  let n := regionEntry t.region / 2
  let s := got.1.zipIdx.foldl (fun s e => onCore c (putHalfwords (t.buf + e.2 * n) n (ofLe e.1)) s) s
  xferResult c 0 got.1.length (some (saturateNat 24 got.2.2)) (setSysRing t.region (r.seek (1 + c) got.2.1) s)

/-- Entries of a region copied into a core's data buffer. -/
def xferCopy (c : Nat) (t : Xfer) (p : Fin 8) (k : Nat) (s : State) : State :=
  let n := regionEntry t.region / 2
  (List.range k).foldl (fun s i => onCore c (putHalfwords (t.buf + i * n) n (regionRead t p (t.index + i) s)) s) s

/-- The entries before the first poisoned one of the delay table, which is a bus error to the master (R201). -/
def poisonedAt (t : Xfer) (s : State) : Option Nat :=
  (List.range t.count).find? fun j => t.region = 6 && bitOf (tabGet 2 (t.aux % 2) (t.index + j) s) 128

/-- A READ transfer's effect (R359); a poisoned entry ends it with a bus error (R201). -/
def xferRead (c : Nat) (t : Xfer) (p : Fin 8) (s : State) : State :=
  if t.region < 4 then ringRead c t s
  else
    match poisonedAt t s with
    | none => xferResult c 0 t.count none (xferCopy c t p t.count s)
    | some j => xferResult c 0x50 j none (emit (.busError .stewards) (xferCopy c t p j s))

/-- STW_XFER_READ (R359). -/
def execStwXferRead (core : Fin 8) (s : State) : Host.Outcome State Fault Refusal :=
  act (runXfer core.val 0 (xferChecks false) (xferRead core.val)) s

/-- A delay entry of another partition's beam is refused (R360). -/
def foreignBeam (p : Fin 8) (i : Nat) (s : State) : Bool :=
  let b := decodeBeam (entryNow 4 (i / 4096) s)
  b.valid && b.part ≠ p.val

/-- Delay or threshold entries written in ascending index until one is refused (R360). -/
def writeXfer (c : Nat) (t : Xfer) (p : Fin 8) : Nat → Nat → State → Nat × Option Nat × State
  | 0, n, s => (n, none, s)
  | k + 1, n, s =>
    let e := takeHalfwords (t.buf + n * 8) 8 (coreOf c s)
    let tbl := if t.region = 5 then 1 else 2
    let i := t.index + n
    match firstFail (chk (t.region = 6 && foreignBeam p i s) 0x14 :: entryChecks tbl i e p (2 ^ 56 - 1) s) with
    | some f => (n, some f.code, s)
    | none => writeXfer c t p k (n + 1) (writeEntry tbl (t.aux % 2) i e p (2 ^ 56 - 1) s)

/-- STW_XFER_WRITE (R360). -/
def execStwXferWrite (core : Fin 8) (s : State) : Host.Outcome State Fault Refusal :=
  act (runXfer core.val 1 (xferChecks true) fun t p s =>
    let r := writeXfer core.val t p t.count 0 s
    xferResult core.val (r.2.1.getD 0) r.1 none r.2.2) s

/-- STW_XFER_COMMIT (R361): as BANK_COMMIT for the bound partition. -/
def execStwXferCommit (core : Fin 8) (s : State) : Host.Outcome State Fault Refusal :=
  act (runXfer core.val 2 (fun t p s => [chk t.rsvd 0x11, chk (partOf p s).commit.isSome 0x31]) fun t p s =>
    let r := commitBank p t.sC t.ref s
    xferResult core.val (if r.1 > t.sC then 0x02 else 0) 0 none r.2) s

/-- STW_XFER_RANGE (R361): as a write of DET_RANGE_SET; one it ignores gives BAD_COUNT. -/
def execStwXferRange (core : Fin 8) (s : State) : Host.Outcome State Fault Refusal :=
  act (runXfer core.val 3 (fun t _ _ => [chk t.rsvd 0x11]) fun t _ s =>
    let r := detRange (BitVec.ofNat 48 (t.aux % 64 * 2048 + t.index % 2048)) s
    xferResult core.val (if r.1 then 0 else 0x13) 0 none r.2) s

/-- STW_XFER_DONE (R351, R358): DONE_COUNT and word 5 are written, then word 3 with DONE, and the XDONE source becomes pending; while the core
repeats an instruction the engine gets no slot (R346). -/
def xferDone (c : Nat) (s : State) : State :=
  match (if (coreOf c s).rep.isSome then [] else (coreOf c s).xfers) with
  | t :: ts =>
    match t.result with
    | none => s
    | some (status, n, lost) =>
      onCore c (fun x =>
        let x := ({ x with xfers := ts } : Core).putContainer (t.block + 4) (n % 2 ^ 24)
        let x := match lost with | some l => x.putContainer (t.block + 5) l | none => x
        (x.putContainer (t.block + 3) (unsignedOf 32 (signedOf 24 (2 ^ 23 + status)))).pend 0) s
  | [] => s

/-- STW_XFER_DONE (R358). -/
def execStwXferDone (core : Fin 8) (s : State) : Host.Outcome State Fault Refusal := act (xferDone core.val) s

end Sys2Proof.Machine
end

