-- ==== Sys2Proof/Machine/Thermal.lean ====
section
/-!
DEFINITION. The thermal regime (R398 to R402): samples, states, throttle steps and SHUTDOWN.
-/
namespace Sys2Proof.Machine

/-- 50 ms in TCLK cycles. -/
def thermHold : Nat := 20000000

/-- A field of SYS_THERM_STATUS stored, ATTN.THERM following its state. -/
def setTherm (state step : Nat) (s : State) : State :=
  noteAttn s (setF fSysThermStatusStep .sysThermStatus step (setF fSysThermStatusState .sysThermStatus state s))

/-- A condition has held for 50 ms. -/
def heldLong (since : Option Nat) (s : State) : Bool := match since with | some t => s.tick ≥ t + thermHold | none => false

/-- A change of thermal state is allowed: 50 ms have passed since the last (R399). -/
def changeFree (s : State) : Bool := s.therm.changedAt = 0 || s.tick + 1 ≥ s.therm.changedAt + thermHold

/-- The time of a change of state noted; each 50 ms of R400 counts afresh. -/
def noteChange (s : State) : State :=
  { s with therm := { s.therm with changedAt := s.tick + 1, above105 := s.therm.above105.map fun _ => s.tick,
                                   below102 := s.therm.below102.map fun _ => s.tick } }

/-- A throttle step taken (R400). -/
def setStep (n : Nat) (s : State) : State :=
  let s := { s with therm := { s.therm with above105 := s.therm.above105.map fun _ => s.tick,
                                            below102 := s.therm.below102.map fun _ => s.tick } }
  raise .thermThrottle none n 0 (setTherm 2 n s)

/-- The Ledger at SHUTDOWN (R402): below 120 °C a page program in progress runs to its end, after a PWR_WARN record that is due; an erase,
and a program above that, stop at once, and nothing else is begun. -/
def ledgerShutdown (hot : Bool) (s : State) : State :=
  let stop := fun s : State => { s with led := ledgerReset s.led }
  let isErase := fun o => match o with | LedOp.eraseBank _ => true | .eraseSlot _ => true | _ => false
  match s.led.busy with
  | [] => s
  | o :: rest =>
    if hot || isErase o then stop s
    else
      let s1 := opDone o { s with led := { s.led with busy := rest } }
      let due : Bool := match o with | .record (.eventLog _ _) => s.sys.pwrWarned | _ => false
      match rest with
      | p :: rest' =>
        let s2 := if due && !isErase p then opDone p { s1 with led := { s1.led with busy := rest' } } else s1
        { s2 with led := { s2.led with busy := [], retries := 0 } }
      | [] => { s1 with led := { s1.led with busy := [], retries := 0 } }

/-- SHUTDOWN (R401): the event, the stopped state, HBM in power-down, the latch; the lanes and the clocks stop. -/
def shutdown (t : Int) (s : State) : State :=
  let s := stopDevice (raise .thermShutdown none 0 0 s)
  let s := ledgerShutdown (t ≥ 120 * 16) s
  let lane := fun (r : Reg) (s : State) => setF fLaneStatusState r 0 s
  let s := (List.range 64).foldl (fun s n => lane (.laneStatus (Fin.ofNat 64 n)) s) s
  let s := (List.range 4).foldl (fun s n => setF fLaneBellStatusState (.laneBellStatus (Fin.ofNat 4 n)) 0 s) s
  setTherm 3 (getF fSysThermStatusStep .sysThermStatus s) { s with hbm := { s.hbm with powered := false }, sys := { s.sys with thermLatch := true } }

/-- The changes of Tables 16-5 and 16-6 that Tj and the holds allow now, SHUTDOWN apart. -/
def thermEval (t : Int) (s : State) : State :=
  let st := getF fSysThermStatusState .sysThermStatus s
  let step := getF fSysThermStatusStep .sysThermStatus s
  let warn := fun s : State => raise .thermWarn none 0 0 (noteChange (setTherm 1 0 s))
  if st = 0 then (if t ≥ 100 * 16 && changeFree s then warn s else s)
  else if st = 1 then
    if !changeFree s then s
    else if t ≥ 105 * 16 then setStep 1 (noteChange s)
    else if heldLong s.therm.below97 s then raise .thermNormal none 0 0 (noteChange (setTherm 0 0 s))
    else s
  else if heldLong s.therm.above105 s then (if step < 3 then setStep (step + 1) s else s)
  else if heldLong s.therm.below102 s then
    if step > 1 then setStep (step - 1) s
    else if changeFree s then dmaResume (warn (raise .thermThrottle none 0 0 s))
    else s
  else s

/-- The first sensor that gives the highest reading. -/
def hottestSensor (l : List Int) : Nat × Int :=
  (l.zipIdx.drop 1).foldl (fun m x => if x.1 > m.2 then (x.2, x.1) else m) (0, l.headD 0)

/-- A sample noted (R398): the readings, Tj and the sensor that gives it, and how long Tj has been where. -/
def noteSample (sensors : List Int) (s : State) : State :=
  let h := hottestSensor sensors
  let t := h.2
  let run := fun (c : Bool) (o : Option Nat) => if c then some (o.getD s.tick) else none
  let th : Therm := { s.therm with
    sensors := sensors, hotRun := if t ≥ 115 * 16 then s.therm.hotRun + 1 else 0, above105 := run (t ≥ 105 * 16) s.therm.above105,
    below102 := run (t < 102 * 16) s.therm.below102, below97 := run (t < 97 * 16) s.therm.below97 }
  setF fSysThermStatusTj .sysThermStatus (unsignedOf 13 t) (setF fSysThermStatusSensor .sysThermStatus h.1 { s with therm := th })

/-- A calibration is due when the sensor nearest the TDC has moved 5 °C since the last one (R227, log 66). -/
def recalibrate (s : State) : State :=
  if s.time.calEver && !s.time.calBusy && !s.time.calPending && (s.therm.sensors.getD 22 0 - s.time.calTemp).natAbs ≥ 80 then tdcCalBegin s
  else s

/-- THERM_SAMPLE (R398 to R401). -/
def thermSample (sensors : List Int) (s : State) : State :=
  let s := recalibrate (noteSample sensors s)
  let t := (hottestSensor sensors).2
  if s.therm.hotRun ≥ 2 then shutdown t s else thermEval t s

/-- THERM_SAMPLE (R398); there are 24 sensors. -/
def execThermSample (sensors : List Int) (s : State) : Host.Outcome State Fault Refusal :=
  if sensors.length ≠ 24 then .fault .malformed else act (thermSample sensors) s

/-- THERM_DWELL_TIMER (R399, R400): a 50 ms hold runs out between samples. -/
def execThermDwellTimer (s : State) : Host.Outcome State Fault Refusal :=
  act (fun s => thermEval (hottestSensor s.therm.sensors).2 s) s

end Sys2Proof.Machine
end

