-- ==== Sys2Proof/Machine/Dispatch.lean ====
section
/-!
DEFINITION. Dispatch: one arm per command, each a direct call of the command's own meaning.
-/
namespace Sys2Proof.Machine

def exec (i : Instr) (s : State) : Host.Outcome State Fault Refusal :=
  match i with
  | .registerWrite m offset value => Sys2Proof.Machine.execRegisterWrite m offset value s
  | .splitWriteLow offset value => Sys2Proof.Machine.execSplitWriteLow offset value s
  | .splitWriteHigh offset value => Sys2Proof.Machine.execSplitWriteHigh offset value s
  | .mmioUnsupported a => Sys2Proof.Machine.execMmioUnsupported a s
  | .inputMapWindowWrite offset wide value => Sys2Proof.Machine.execInputMapWindowWrite offset wide value s
  | .delayWindowWrite offset wide value => Sys2Proof.Machine.execDelayWindowWrite offset wide value s
  | .recoveryBufferWrite offset wide value => Sys2Proof.Machine.execRecoveryBufferWrite offset wide value s
  | .fabricGrant port arrivals parity => Sys2Proof.Machine.execFabricGrant port arrivals parity s
  | .qosAgeing port serial => Sys2Proof.Machine.execQosAgeing port serial s
  | .fabMasterDrained cls => Sys2Proof.Machine.execFabMasterDrained cls s
  | .clkMonFault clk => Sys2Proof.Machine.execClkMonFault clk s
  | .remapSwap outstanding => Sys2Proof.Machine.execRemapSwap outstanding s
  | .ethFrameReceive port rx => Sys2Proof.Machine.execEthFrameReceive port rx s
  | .ptpTxInterval msg sent => Sys2Proof.Machine.execPtpTxInterval msg sent s
  | .batchWindowExpire p ord => Sys2Proof.Machine.execBatchWindowExpire p ord s
  | .ingTableInval m value => Sys2Proof.Machine.execIngTableInval m value s
  | .regionRotate p ecc => Sys2Proof.Machine.execRegionRotate p ecc s
  | .weightSynthesis p ord => Sys2Proof.Machine.execWeightSynthesis p ord s
  | .millSegmentEnd => Sys2Proof.Machine.execMillSegmentEnd s
  | .pieceDrain tile fault ecc => Sys2Proof.Machine.execPieceDrain tile fault ecc s
  | .rerunDone q agree => Sys2Proof.Machine.execRerunDone q agree s
  | .regionComputeDone p => Sys2Proof.Machine.execRegionComputeDone p s
  | .shadowWindowEnd q => Sys2Proof.Machine.execShadowWindowEnd q s
  | .testTaskDone tile pass => Sys2Proof.Machine.execTestTaskDone tile pass s
  | .harvestBatch p ord issueBuffer => Sys2Proof.Machine.execHarvestBatch p ord issueBuffer s
  | .sweepTimerExpire p chan => Sys2Proof.Machine.execSweepTimerExpire p chan s
  | .chainBatch entry chan stokes => Sys2Proof.Machine.execChainBatch entry chan stokes s
  | .detRangeSet m value => Sys2Proof.Machine.execDetRangeSet m value s
  | .trigInEdge stamp => Sys2Proof.Machine.execTrigInEdge stamp s
  | .armEffect => Sys2Proof.Machine.execArmEffect s
  | .settleEnd crib => Sys2Proof.Machine.execSettleEnd crib s
  | .capturePacketSend crib => Sys2Proof.Machine.execCapturePacketSend crib s
  | .captureConfigApply => Sys2Proof.Machine.execCaptureConfigApply s
  | .memLayoutWrite m value => Sys2Proof.Machine.execMemLayoutWrite m value s
  | .memAllotWrite m cls value => Sys2Proof.Machine.execMemAllotWrite m cls value s
  | .allotmentRefill => Sys2Proof.Machine.execAllotmentRefill s
  | .hbmAccess a => Sys2Proof.Machine.execHbmAccess a s
  | .refreshDue pc level15Waits => Sys2Proof.Machine.execRefreshDue pc level15Waits s
  | .scrubRead pc err target newerWrite => Sys2Proof.Machine.execScrubRead pc err target newerWrite s
  | .timeNowSRead m => Sys2Proof.Machine.execTimeNowSRead m s
  | .timeRateWrite m value => Sys2Proof.Machine.execTimeRateWrite m value s
  | .timeStep m value => Sys2Proof.Machine.execTimeStep m value s
  | .timeSlewWrite m value => Sys2Proof.Machine.execTimeSlewWrite m value s
  | .ppsInEdge stamp => Sys2Proof.Machine.execPpsInEdge stamp s
  | .timePpsLost => Sys2Proof.Machine.execTimePpsLost s
  | .timeSourceLost => Sys2Proof.Machine.execTimeSourceLost s
  | .refGateEnd gate => Sys2Proof.Machine.execRefGateEnd gate s
  | .timeRefLost ref => Sys2Proof.Machine.execTimeRefLost ref s
  | .refSettleEnd => Sys2Proof.Machine.execRefSettleEnd s
  | .tdcCalRequest m value => Sys2Proof.Machine.execTdcCalRequest m value s
  | .tdcCalDone hits => Sys2Proof.Machine.execTdcCalDone hits s
  | .tdcGo m value => Sys2Proof.Machine.execTdcGo m value s
  | .tdcMeasureDone edges => Sys2Proof.Machine.execTdcMeasureDone edges s
  | .timeTsqPop m value => Sys2Proof.Machine.execTimeTsqPop m value s
  | .tsqClrDrops m value => Sys2Proof.Machine.execTsqClrDrops m value s
  | .ppsOutPulse stamp => Sys2Proof.Machine.execPpsOutPulse stamp s
  | .syncOutPulse => Sys2Proof.Machine.execSyncOutPulse s
  | .syncInEdge stamp => Sys2Proof.Machine.execSyncInEdge stamp s
  | .bellFrameLaunch ring sent => Sys2Proof.Machine.execBellFrameLaunch ring sent s
  | .bellHeaderReceive lane bytes arrival residence => Sys2Proof.Machine.execBellHeaderReceive lane bytes arrival residence s
  | .bellSlotReceive lane slot line => Sys2Proof.Machine.execBellSlotReceive lane slot line s
  | .bellFireRecord lane rec => Sys2Proof.Machine.execBellFireRecord lane rec s
  | .bellArmRecord lane rec => Sys2Proof.Machine.execBellArmRecord lane rec s
  | .bellRoleRecord lane rec => Sys2Proof.Machine.execBellRoleRecord lane rec s
  | .bellDeadRecord lane rec => Sys2Proof.Machine.execBellDeadRecord lane rec s
  | .bellMsgRecord lane rec => Sys2Proof.Machine.execBellMsgRecord lane rec s
  | .bellSilenceTimeout ring => Sys2Proof.Machine.execBellSilenceTimeout ring s
  | .bellBackoffEnd ring => Sys2Proof.Machine.execBellBackoffEnd ring s
  | .bellClaimReceive lane line arrival sent => Sys2Proof.Machine.execBellClaimReceive lane line arrival sent s
  | .bellDeadTimeout ring unit => Sys2Proof.Machine.execBellDeadTimeout ring unit s
  | .isolateFenceTimeout => Sys2Proof.Machine.execIsolateFenceTimeout s
  | .roleBeaconTimer => Sys2Proof.Machine.execRoleBeaconTimer s
  | .bellCfgWrite m value => Sys2Proof.Machine.execBellCfgWrite m value s
  | .laneGroupCfgWrite m g value => Sys2Proof.Machine.execLaneGroupCfgWrite m g value s
  | .laneCfgWrite m l value => Sys2Proof.Machine.execLaneCfgWrite m l value s
  | .laneBellCfgWrite m value => Sys2Proof.Machine.execLaneBellCfgWrite m value s
  | .laneNegTimer lane => Sys2Proof.Machine.execLaneNegTimer lane s
  | .laneMarkerLock lane => Sys2Proof.Machine.execLaneMarkerLock lane s
  | .virosNegFrame lane neg => Sys2Proof.Machine.execVirosNegFrame lane neg s
  | .virosTrainFrame lane train => Sys2Proof.Machine.execVirosTrainFrame lane train s
  | .laneStateTimeout lane => Sys2Proof.Machine.execLaneStateTimeout lane s
  | .virosDataFrame l line fifoFull => Sys2Proof.Machine.execVirosDataFrame l line fifoFull s
  | .virosCtrlFrame l bytes lowPower => Sys2Proof.Machine.execVirosCtrlFrame l bytes lowPower s
  | .virosReplayTimeout g l => Sys2Proof.Machine.execVirosReplayTimeout g l s
  | .virosIdleTimer g => Sys2Proof.Machine.execVirosIdleTimer g s
  | .ethLinkLoss g => Sys2Proof.Machine.execEthLinkLoss g s
  | .pcieLinkReset kind => Sys2Proof.Machine.execPcieLinkReset kind s
  | .perstN => Sys2Proof.Machine.execPerstN s
  | .pcieD3hot => Sys2Proof.Machine.execPcieD3hot s
  | .pcieD0 => Sys2Proof.Machine.execPcieD0 s
  | .hifRingCfgWrite m ring which value => Sys2Proof.Machine.execHifRingCfgWrite m ring which value s
  | .hifPollTick => Sys2Proof.Machine.execHifPollTick s
  | .hifNudge m value => Sys2Proof.Machine.execHifNudge m value s
  | .descFetch ring readOk => Sys2Proof.Machine.execDescFetch ring readOk s
  | .nop tag => Sys2Proof.Machine.execNop tag s
  | .start tag => Sys2Proof.Machine.execStart tag s
  | .configure tag => Sys2Proof.Machine.execConfigure tag s
  | .stop tag => Sys2Proof.Machine.execStop tag s
  | .tableWrite tag readOk => Sys2Proof.Machine.execTableWrite tag readOk s
  | .bankCommit tag => Sys2Proof.Machine.execBankCommit tag s
  | .bankCommitApply p => Sys2Proof.Machine.execBankCommitApply p s
  | .captureConfig tag => Sys2Proof.Machine.execCaptureConfig tag s
  | .triggerArm tag => Sys2Proof.Machine.execTriggerArm tag s
  | .triggerFire tag => Sys2Proof.Machine.execTriggerFire tag s
  | .statsRead tag => Sys2Proof.Machine.execStatsRead tag s
  | .portConfig tag => Sys2Proof.Machine.execPortConfig tag s
  | .roleAssign tag => Sys2Proof.Machine.execRoleAssign tag s
  | .timeQuality tag => Sys2Proof.Machine.execTimeQuality tag s
  | .stwLoad tag wordsRead => Sys2Proof.Machine.execStwLoad tag wordsRead s
  | .stwRun tag => Sys2Proof.Machine.execStwRun tag s
  | .stwStop tag => Sys2Proof.Machine.execStwStop tag s
  | .fwWrite tag readOk => Sys2Proof.Machine.execFwWrite tag readOk s
  | .query tag => Sys2Proof.Machine.execQuery tag s
  | .badOpcode tag => Sys2Proof.Machine.execBadOpcode tag s
  | .attnClrWithheld m value => Sys2Proof.Machine.execAttnClrWithheld m value s
  | .attnClrSev m value => Sys2Proof.Machine.execAttnClrSev m value s
  | .hbToggle => Sys2Proof.Machine.execHbToggle s
  | .irqModExpire vec => Sys2Proof.Machine.execIrqModExpire vec s
  | .hifEstop m value => Sys2Proof.Machine.execHifEstop m value s
  | .reeveLockstep sram => Sys2Proof.Machine.execReeveLockstep sram s
  | .depReeveRestarted => Sys2Proof.Machine.execDepReeveRestarted s
  | .voltageSample rails => Sys2Proof.Machine.execVoltageSample rails s
  | .voltageRecovered => Sys2Proof.Machine.execVoltageRecovered s
  | .configScan mismatches => Sys2Proof.Machine.execConfigScan mismatches s
  | .outageTick => Sys2Proof.Machine.execOutageTick s
  | .outageCommitTimer => Sys2Proof.Machine.execOutageCommitTimer s
  | .pwrWarn => Sys2Proof.Machine.execPwrWarn s
  | .stwInterruptEntry core => Sys2Proof.Machine.execStwInterruptEntry core s
  | .stwTimerExpire core => Sys2Proof.Machine.execStwTimerExpire core s
  | .stwSlotStall core => Sys2Proof.Machine.execStwSlotStall core s
  | .stwNop core => Sys2Proof.Machine.execStwNop core s
  | .stwAdd core => Sys2Proof.Machine.execStwAdd core s
  | .stwAdc core => Sys2Proof.Machine.execStwAdc core s
  | .stwSub core => Sys2Proof.Machine.execStwSub core s
  | .stwSbc core => Sys2Proof.Machine.execStwSbc core s
  | .stwCmp core => Sys2Proof.Machine.execStwCmp core s
  | .stwAnd core => Sys2Proof.Machine.execStwAnd core s
  | .stwOr core => Sys2Proof.Machine.execStwOr core s
  | .stwXor core => Sys2Proof.Machine.execStwXor core s
  | .stwShl core => Sys2Proof.Machine.execStwShl core s
  | .stwShr core => Sys2Proof.Machine.execStwShr core s
  | .stwAsr core => Sys2Proof.Machine.execStwAsr core s
  | .stwMul core => Sys2Proof.Machine.execStwMul core s
  | .stwMin core => Sys2Proof.Machine.execStwMin core s
  | .stwMax core => Sys2Proof.Machine.execStwMax core s
  | .stwAbs core => Sys2Proof.Machine.execStwAbs core s
  | .stwNeg core => Sys2Proof.Machine.execStwNeg core s
  | .stwPopc core => Sys2Proof.Machine.execStwPopc core s
  | .stwNorm core => Sys2Proof.Machine.execStwNorm core s
  | .stwMov core => Sys2Proof.Machine.execStwMov core s
  | .stwLdi core => Sys2Proof.Machine.execStwLdi core s
  | .stwLdh core => Sys2Proof.Machine.execStwLdh core s
  | .stwAddi core => Sys2Proof.Machine.execStwAddi core s
  | .stwCmpi core => Sys2Proof.Machine.execStwCmpi core s
  | .stwLd core => Sys2Proof.Machine.execStwLd core s
  | .stwSt core => Sys2Proof.Machine.execStwSt core s
  | .stwMpy core => Sys2Proof.Machine.execStwMpy core s
  | .stwMac core => Sys2Proof.Machine.execStwMac core s
  | .stwMsu core => Sys2Proof.Machine.execStwMsu core s
  | .stwLd2 core => Sys2Proof.Machine.execStwLd2 core s
  | .stwMva core => Sys2Proof.Machine.execStwMva core s
  | .stwLda core => Sys2Proof.Machine.execStwLda core s
  | .stwSha core => Sys2Proof.Machine.execStwSha core s
  | .stwAdda core => Sys2Proof.Machine.execStwAdda core s
  | .stwClra core => Sys2Proof.Machine.execStwClra core s
  | .stwBr core => Sys2Proof.Machine.execStwBr core s
  | .stwCall core => Sys2Proof.Machine.execStwCall core s
  | .stwRet core => Sys2Proof.Machine.execStwRet core s
  | .stwRti core => Sys2Proof.Machine.execStwRti core s
  | .stwRep core => Sys2Proof.Machine.execStwRep core s
  | .stwMovp core => Sys2Proof.Machine.execStwMovp core s
  | .stwSetp core => Sys2Proof.Machine.execStwSetp core s
  | .stwMovs core => Sys2Proof.Machine.execStwMovs core s
  | .stwXreq core => Sys2Proof.Machine.execStwXreq core s
  | .stwXwait core => Sys2Proof.Machine.execStwXwait core s
  | .stwWait core => Sys2Proof.Machine.execStwWait core s
  | .stwHalt core => Sys2Proof.Machine.execStwHalt core s
  | .stwIllegal core memUe => Sys2Proof.Machine.execStwIllegal core memUe s
  | .stwXferRead core => Sys2Proof.Machine.execStwXferRead core s
  | .stwXferWrite core => Sys2Proof.Machine.execStwXferWrite core s
  | .stwXferCommit core => Sys2Proof.Machine.execStwXferCommit core s
  | .stwXferRange core => Sys2Proof.Machine.execStwXferRange core s
  | .stwXferDone core => Sys2Proof.Machine.execStwXferDone core s
  | .dmaStartRegister m ch value => Sys2Proof.Machine.execDmaStartRegister m ch value s
  | .dmaStartDescriptor m ch value => Sys2Proof.Machine.execDmaStartDescriptor m ch value s
  | .dmaAbortWrite m ch value => Sys2Proof.Machine.execDmaAbortWrite m ch value s
  | .dmaDescFetched ch readOk => Sys2Proof.Machine.execDmaDescFetched ch readOk s
  | .dmaBurstReadDone ch readOk => Sys2Proof.Machine.execDmaBurstReadDone ch readOk s
  | .dmaBurstWriteAck ch writeOk => Sys2Proof.Machine.execDmaBurstWriteAck ch writeOk s
  | .smbReadAttn => Sys2Proof.Machine.execSmbReadAttn s
  | .smbReadPart => Sys2Proof.Machine.execSmbReadPart s
  | .smbReadTj => Sys2Proof.Machine.execSmbReadTj s
  | .smbReadPower => Sys2Proof.Machine.execSmbReadPower s
  | .smbReadTemps => Sys2Proof.Machine.execSmbReadTemps s
  | .smbReadRails => Sys2Proof.Machine.execSmbReadRails s
  | .smbReadOutage => Sys2Proof.Machine.execSmbReadOutage s
  | .smbOther command write => Sys2Proof.Machine.execSmbOther command write s
  | .chal => Sys2Proof.Machine.execChal s
  | .unlk response => Sys2Proof.Machine.execUnlk response s
  | .stat => Sys2Proof.Machine.execStat s
  | .monEstop => Sys2Proof.Machine.execMonEstop s
  | .monRd offset => Sys2Proof.Machine.execMonRd offset s
  | .monWr offset value => Sys2Proof.Machine.execMonWr offset value s
  | .monEvt n => Sys2Proof.Machine.execMonEvt n s
  | .aud n => Sys2Proof.Machine.execAud n s
  | .baud index => Sys2Proof.Machine.execBaud index s
  | .lock => Sys2Proof.Machine.execLock s
  | .fuseLockout code => Sys2Proof.Machine.execFuseLockout code s
  | .monSyntax length => Sys2Proof.Machine.execMonSyntax length s
  | .monIdleTimeout => Sys2Proof.Machine.execMonIdleTimeout s
  | .monThrottleEnd => Sys2Proof.Machine.execMonThrottleEnd s
  | .monAuditTimeout => Sys2Proof.Machine.execMonAuditTimeout s
  | .monRelock m value => Sys2Proof.Machine.execMonRelock m value s
  | .monDisable m value => Sys2Proof.Machine.execMonDisable m value s
  | .porNAssert => Sys2Proof.Machine.execPorNAssert s
  | .porNRelease => Sys2Proof.Machine.execPorNRelease s
  | .sysRstN low => Sys2Proof.Machine.execSysRstN low s
  | .sysResetWrite m value => Sys2Proof.Machine.execSysResetWrite m value s
  | .deviceReset => Sys2Proof.Machine.execDeviceReset s
  | .bootRomDone hottest monEn => Sys2Proof.Machine.execBootRomDone hottest monEn s
  | .bootLedgerDone => Sys2Proof.Machine.execBootLedgerDone s
  | .bootVerifyDone => Sys2Proof.Machine.execBootVerifyDone s
  | .sysBootDone => Sys2Proof.Machine.execSysBootDone s
  | .ledgerProgramDone readBackOk => Sys2Proof.Machine.execLedgerProgramDone readBackOk s
  | .eventLogCommitTimer => Sys2Proof.Machine.execEventLogCommitTimer s
  | .thermSample sensors => Sys2Proof.Machine.execThermSample sensors s
  | .thermDwellTimer => Sys2Proof.Machine.execThermDwellTimer s
  | .standbyRequest m value => Sys2Proof.Machine.execStandbyRequest m value s
  | .standbyExitRequest m value => Sys2Proof.Machine.execStandbyExitRequest m value s
  | .standbyExitDone => Sys2Proof.Machine.execStandbyExitDone s
  | .jtagExtest scan => Sys2Proof.Machine.execJtagExtest scan s
  | .jtagSamplePreload pins scan => Sys2Proof.Machine.execJtagSamplePreload pins scan s
  | .jtagIdcode => Sys2Proof.Machine.execJtagIdcode s
  | .jtagClamp => Sys2Proof.Machine.execJtagClamp s
  | .jtagHighz => Sys2Proof.Machine.execJtagHighz s
  | .jtagBypass code => Sys2Proof.Machine.execJtagBypass code s
  | .ethLinkUp g rsFec => Sys2Proof.Machine.execEthLinkUp g rsFec s
  | .pcieLinkUp rate width => Sys2Proof.Machine.execPcieLinkUp rate width s
  | .powerLoss => Sys2Proof.Machine.execPowerLoss s
  | .jtagTestLogicReset => Sys2Proof.Machine.execJtagTestLogicReset s

end Sys2Proof.Machine
end

