-- ==== Sys2Proof/Machine/Step.lean ====
section
/-!
DEFINITION. The step: the command at the front of the queue runs with the queue's rest; an empty queue is a TCLK tick (log 10).
-/
namespace Sys2Proof.Machine

/-- One edge of TCLK with nothing commanded: device time advances (R208, R209) and so does the model's count of ticks (log 6). -/
def idleStep (s : State) : State :=
  let s1 := if held s then s else timeTick s
  { s1 with tick := s.tick + 1 }

/-- One step of the block. -/
def step (s : State) : Host.Outcome State Fault Refusal :=
  match s.pending with
  | [] => .next (idleStep s)
  | c :: rest => exec c { s with pending := rest }

/-- The state with the command a word spells at the front of its queue; the state itself where the word spells none. -/
def State.withFetchWord (s : State) (nbits w : Nat) : State :=
  match decodeTableWord nbits w with
  | some c => { s with pending := c :: s.pending }
  | none => s

end Sys2Proof.Machine
end

