-- ==== Sys2Proof/WellFormed.lean ====
section
/-!
DEFINITION. Which commands are well formed: the lists and addresses they carry are as long, and as placed, as what they stand for.

A command that is not stands for nothing that can happen at the device. Where the number asked for depends on the state (the hits of a
calibration, R227), the meaning holds the list against the state.
-/
namespace Sys2Proof

/-- A record is 32 bytes (R244), the rails are seven (R330), the sensors 24 (R398), the pins of the boundary register 16 (R418), the bins
of a code-density calibration 256 (R227); a burst is 32 bytes of the 1,152 MiB a pseudo-channel holds (R186). -/
def Instr.wellFormed (i : Instr) : Bool :=
  match i with
  | .registerWrite _ _ _ => true
  | .splitWriteLow _ _ => true
  | .splitWriteHigh _ _ => true
  | .mmioUnsupported _ => true
  | .inputMapWindowWrite _ _ _ => true
  | .delayWindowWrite _ _ _ => true
  | .recoveryBufferWrite _ _ _ => true
  | .fabricGrant _ _ _ => true
  | .qosAgeing _ _ => true
  | .fabMasterDrained _ => true
  | .clkMonFault _ => true
  | .remapSwap _ => true
  | .ethFrameReceive _ _ => true
  | .ptpTxInterval _ _ => true
  | .batchWindowExpire _ _ => true
  | .ingTableInval _ _ => true
  | .regionRotate _ _ => true
  | .weightSynthesis _ _ => true
  | .millSegmentEnd => true
  | .pieceDrain _ _ _ => true
  | .rerunDone _ _ => true
  | .regionComputeDone _ => true
  | .shadowWindowEnd _ => true
  | .testTaskDone _ _ => true
  | .harvestBatch _ _ _ => true
  | .sweepTimerExpire _ _ => true
  | .chainBatch _ _ _ => true
  | .detRangeSet _ _ => true
  | .trigInEdge _ => true
  | .armEffect => true
  | .settleEnd _ => true
  | .capturePacketSend _ => true
  | .captureConfigApply => true
  | .memLayoutWrite _ _ => true
  | .memAllotWrite _ _ _ => true
  | .allotmentRefill => true
  | .hbmAccess a => a.addr % 32 = 0 && a.addr < 1152 * 1048576
  | .refreshDue _ _ => true
  | .scrubRead _ _ _ _ => true
  | .timeNowSRead _ => true
  | .timeRateWrite _ _ => true
  | .timeStep _ _ => true
  | .timeSlewWrite _ _ => true
  | .ppsInEdge _ => true
  | .timePpsLost => true
  | .timeSourceLost => true
  | .refGateEnd _ => true
  | .timeRefLost _ => true
  | .refSettleEnd => true
  | .tdcCalRequest _ _ => true
  | .tdcCalDone hits => hits.length = 256
  | .tdcGo _ _ => true
  | .tdcMeasureDone _ => true
  | .timeTsqPop _ _ => true
  | .tsqClrDrops _ _ => true
  | .ppsOutPulse _ => true
  | .syncOutPulse => true
  | .syncInEdge _ => true
  | .bellFrameLaunch _ _ => true
  | .bellHeaderReceive _ _ _ _ => true
  | .bellSlotReceive _ _ _ => true
  | .bellFireRecord _ rec => rec.length = 32
  | .bellArmRecord _ rec => rec.length = 32
  | .bellRoleRecord _ rec => rec.length = 32
  | .bellDeadRecord _ rec => rec.length = 32
  | .bellMsgRecord _ rec => rec.length = 32
  | .bellSilenceTimeout _ => true
  | .bellBackoffEnd _ => true
  | .bellClaimReceive _ _ _ _ => true
  | .bellDeadTimeout _ _ => true
  | .isolateFenceTimeout => true
  | .roleBeaconTimer => true
  | .bellCfgWrite _ _ => true
  | .laneGroupCfgWrite _ _ _ => true
  | .laneCfgWrite _ _ _ => true
  | .laneBellCfgWrite _ _ => true
  | .laneNegTimer _ => true
  | .laneMarkerLock _ => true
  | .virosNegFrame _ _ => true
  | .virosTrainFrame _ _ => true
  | .laneStateTimeout _ => true
  | .virosDataFrame _ _ _ => true
  | .virosCtrlFrame _ _ _ => true
  | .virosReplayTimeout _ _ => true
  | .virosIdleTimer _ => true
  | .ethLinkLoss _ => true
  | .pcieLinkReset _ => true
  | .perstN => true
  | .pcieD3hot => true
  | .pcieD0 => true
  | .hifRingCfgWrite _ _ _ _ => true
  | .hifPollTick => true
  | .hifNudge _ _ => true
  | .descFetch _ _ => true
  | .nop _ => true
  | .start _ => true
  | .configure _ => true
  | .stop _ => true
  | .tableWrite _ _ => true
  | .bankCommit _ => true
  | .bankCommitApply _ => true
  | .captureConfig _ => true
  | .triggerArm _ => true
  | .triggerFire _ => true
  | .statsRead _ => true
  | .portConfig _ => true
  | .roleAssign _ => true
  | .timeQuality _ => true
  | .stwLoad _ _ => true
  | .stwRun _ => true
  | .stwStop _ => true
  | .fwWrite _ _ => true
  | .query _ => true
  | .badOpcode _ => true
  | .attnClrWithheld _ _ => true
  | .attnClrSev _ _ => true
  | .hbToggle => true
  | .irqModExpire _ => true
  | .hifEstop _ _ => true
  | .reeveLockstep _ => true
  | .depReeveRestarted => true
  | .voltageSample rails => rails.length = 7
  | .voltageRecovered => true
  | .configScan _ => true
  | .outageTick => true
  | .outageCommitTimer => true
  | .pwrWarn => true
  | .stwInterruptEntry _ => true
  | .stwTimerExpire _ => true
  | .stwSlotStall _ => true
  | .stwNop _ => true
  | .stwAdd _ => true
  | .stwAdc _ => true
  | .stwSub _ => true
  | .stwSbc _ => true
  | .stwCmp _ => true
  | .stwAnd _ => true
  | .stwOr _ => true
  | .stwXor _ => true
  | .stwShl _ => true
  | .stwShr _ => true
  | .stwAsr _ => true
  | .stwMul _ => true
  | .stwMin _ => true
  | .stwMax _ => true
  | .stwAbs _ => true
  | .stwNeg _ => true
  | .stwPopc _ => true
  | .stwNorm _ => true
  | .stwMov _ => true
  | .stwLdi _ => true
  | .stwLdh _ => true
  | .stwAddi _ => true
  | .stwCmpi _ => true
  | .stwLd _ => true
  | .stwSt _ => true
  | .stwMpy _ => true
  | .stwMac _ => true
  | .stwMsu _ => true
  | .stwLd2 _ => true
  | .stwMva _ => true
  | .stwLda _ => true
  | .stwSha _ => true
  | .stwAdda _ => true
  | .stwClra _ => true
  | .stwBr _ => true
  | .stwCall _ => true
  | .stwRet _ => true
  | .stwRti _ => true
  | .stwRep _ => true
  | .stwMovp _ => true
  | .stwSetp _ => true
  | .stwMovs _ => true
  | .stwXreq _ => true
  | .stwXwait _ => true
  | .stwWait _ => true
  | .stwHalt _ => true
  | .stwIllegal _ _ => true
  | .stwXferRead _ => true
  | .stwXferWrite _ => true
  | .stwXferCommit _ => true
  | .stwXferRange _ => true
  | .stwXferDone _ => true
  | .dmaStartRegister _ _ _ => true
  | .dmaStartDescriptor _ _ _ => true
  | .dmaAbortWrite _ _ _ => true
  | .dmaDescFetched _ _ => true
  | .dmaBurstReadDone _ _ => true
  | .dmaBurstWriteAck _ _ => true
  | .smbReadAttn => true
  | .smbReadPart => true
  | .smbReadTj => true
  | .smbReadPower => true
  | .smbReadTemps => true
  | .smbReadRails => true
  | .smbReadOutage => true
  | .smbOther _ _ => true
  | .chal => true
  | .unlk _ => true
  | .stat => true
  | .monEstop => true
  | .monRd _ => true
  | .monWr _ _ => true
  | .monEvt _ => true
  | .aud _ => true
  | .baud _ => true
  | .lock => true
  | .fuseLockout _ => true
  | .monSyntax _ => true
  | .monIdleTimeout => true
  | .monThrottleEnd => true
  | .monAuditTimeout => true
  | .monRelock _ _ => true
  | .monDisable _ _ => true
  | .porNAssert => true
  | .porNRelease => true
  | .sysRstN _ => true
  | .sysResetWrite _ _ => true
  | .deviceReset => true
  | .bootRomDone _ _ => true
  | .bootLedgerDone => true
  | .bootVerifyDone => true
  | .sysBootDone => true
  | .ledgerProgramDone _ => true
  | .eventLogCommitTimer => true
  | .thermSample sensors => sensors.length = 24
  | .thermDwellTimer => true
  | .standbyRequest _ _ => true
  | .standbyExitRequest _ _ => true
  | .standbyExitDone => true
  | .jtagExtest _ => true
  | .jtagSamplePreload pins _ => pins.length = 16
  | .jtagIdcode => true
  | .jtagClamp => true
  | .jtagHighz => true
  | .jtagBypass _ => true
  | .ethLinkUp _ _ => true
  | .pcieLinkUp _ _ => true
  | .powerLoss => true
  | .jtagTestLogicReset => true

end Sys2Proof
end

