-- ==== Sys2Proof/Safety.lean ====
section
/-!
DEFINITION. What claims about the block speak of: a command that runs, a well-kept state, and the events a step raises.
-/
namespace Sys2Proof.Machine

/-- A Steward core as R341 builds it: sixteen data registers, two accumulators, eight pointers with base and length each, a call
stack of at most eight return addresses, at most four transfers outstanding (R357), every program address below 16,384, and its two
memories in canonical form. -/
def Core.shaped (x : Core) : Prop :=
  (x.d.length = 16 ∧ x.a.length = 2 ∧ x.p.length = 8 ∧ x.b.length = 8 ∧ x.l.length = 8) ∧
  x.stack.length ≤ 8 ∧ x.xfers.length ≤ 4 ∧ x.pc < 16384 ∧ (∀ r ∈ x.stack, r < 16384) ∧ x.ret.1 < 16384 ∧
  storeWf (fun _ => (0 : Nat)) x.prog ∧ storeWf (fun _ => (0 : Nat)) x.data

/-- The eight cores, each as built. -/
def Stw.shaped (w : Stw) : Prop := w.cores.length = 8 ∧ ∀ x ∈ w.cores, x.shaped

/-- Every memory and table the state lists sparsely is in canonical form: keys in rising order, no entry equal to its default.
The registers' keys rise (their defaults differ by register). -/
def Canonical (s : State) : Prop :=
  storeSorted none s.regs ∧ storeWf (fun _ => (0 : Byte)) s.hostMem ∧ storeWf (fun _ => Part.idle) s.parts ∧
  storeWf (fun _ => Quadrant.full) s.quads ∧ storeWf (fun _ => (none : Option ChanState)) s.chans ∧
  storeWf (fun _ => (⟨0, 0, 0, false⟩ : GranRec)) s.granary ∧ storeWf (fun _ => (0 : Nat)) s.tables ∧
  storeWf (fun _ => (⟨[], 0, []⟩ : SysRing)) s.rings ∧ storeWf (fun _ => (0 : Byte)) s.scratch ∧
  storeWf (fun _ => (none : Option DmaChan)) s.dma

/-- The byte memories of the control complex in canonical form: the recovery buffer, the system SRAM and the Reeve's working SRAM. -/
def Sys.canonical (x : Sys) : Prop :=
  storeWf (fun _ => (0 : Byte)) x.recovery ∧ storeWf (fun _ => (0 : Byte)) x.sram ∧ storeWf (fun _ => (0 : Byte)) x.working

/-- What every step keeps: canonical memories, cores as built, a device time whose fraction is below one second (R208), and no more
security version fuses blown than there are (R391). -/
structure StateInv (s : State) : Prop where
  canonical : Canonical s
  memories : s.sys.canonical
  cores : s.stw.shaped
  time : s.time.sub < secUnits
  svn : s.fuses.svnMin ≤ 64

/-- The device runs: nothing holds it in reset, in SHUTDOWN or without power (R386, R387, R401). -/
def Runs (s : State) : Prop := held s = false

/-- Fuses only ever blow (R383, R391, R392): the count of SVN_MIN does not fall, a lockout stays, and the revoked keys stay. -/
def Fuses.upTo (u v : Fuses) : Prop := u.svnMin ≤ v.svnMin ∧ (u.lockout = true → v.lockout = true) ∧ v.revoked = u.revoked

/-- The command fits the state: it is well formed, and a calibration ends with as many hits as it gathers (R227). -/
def fits (c : Instr) (s : State) : Bool :=
  c.wellFormed && match c with
    | .tdcCalDone hits => hits.foldl (· + ·) 0 = 2 ^ (20 + getF fTimeTdcCtlCalExtra .timeTdcCtl s)
    | _ => true

/-- A master's access takes effect: the device runs and the master's interface takes new requests (R36). -/
def Accepts (m : Master) (s : State) : Prop := Runs s ∧ barred m s = false

/-- The state a master's register access meets: an access of the host's drops the split-write latch first (R286). -/
def accessed (m : Master) (s : State) : State := if m = .host then dropLatch s else s

end Sys2Proof.Machine
end

