-- ==== Sys2Proof/Certificates/Slice0/Obligations.lean ====
section
/-!
DEFINITION. The statements offered to the provers.
-/
open Sys2Proof Sys2Proof.Machine

/-- A step runs the command at the front of the queue, with the queue's rest. -/
def Obligations.StepRunsFront : Prop :=
  ∀ (c : Instr) (rest : List Instr) (s : State),
    Machine.step { s with pending := c :: rest } = Machine.exec c { s with pending := rest }

/-- On an empty queue a step is one TCLK edge (log 10, the model's choice): a device that runs takes the edge (timeTick) and the model's
count of edges goes up by one; a device that is held only has its count of edges go up. -/
def Obligations.EmptyQueueTicks : Prop :=
  ∀ (s : State), s.pending = [] →
    (held s = true → Machine.step s = .next { s with tick := s.tick + 1 }) ∧
    (Runs s → Machine.step s = .next { timeTick s with tick := s.tick + 1 })

/-- After reset the invariant StateInv holds: the memories and tables it names are in canonical form, the eight Steward cores are as built,
the time's fraction is below one second and at most 64 security version fuses are blown. -/
def Obligations.ResetWellKept : Prop := StateInv State.reset

/-- Whatever stands at the front of the queue, a step that answers a next state keeps the invariant StateInv. -/
def Obligations.StepKeepsInv : Prop :=
  ∀ (s t : State), StateInv s → Machine.step s = .next t → StateInv t

/-- No command touches the queue, and none clears a fuse: SVN_MIN does not fall, the lockout stays blown, the revoked keys stay revoked. -/
def Obligations.CommandsKeepQueueAndFuses : Prop :=
  ∀ (c : Instr) (s t : State), StateInv s → Machine.exec c s = .next t → t.pending = s.pending ∧ s.fuses.upTo t.fuses

/-- No command is refused: one that fits the state (fits) gives a next state, whatever the state, and one that does not faults as malformed.
-/
def Obligations.StopsOnlyMalformed : Prop :=
  ∀ (c : Instr) (s : State),
    (fits c s = true → ∃ t, Machine.exec c s = .next t) ∧ (fits c s = false → Machine.exec c s = .fault .malformed)

/-- A device that is held in reset, in SHUTDOWN or without power does nothing: every command but those of the reset pins, of the supply and
of the boundary-scan port leaves it as it is (log 16, the model's reading). -/
def Obligations.HeldDeviceIgnores : Prop :=
  ∀ (c : Instr) (s : State), held s = true → fits c s = true →
    match c with
    | .porNAssert | .porNRelease | .sysRstN _ | .powerLoss | .jtagExtest _ | .jtagSamplePreload _ _ | .jtagIdcode | .jtagClamp
    | .jtagHighz | .jtagBypass _ | .jtagTestLogicReset => True
    | _ => Machine.exec c s = .next s

/-- What raising an event does, whatever the state: ATTN.SEV takes the higher severity; an event of severity 2 or 3 enters the event log and
one below does not; with no EVT ring to take it, or a full one, HIF_EVT_DROP counts one and host memory is as before; with room, the entry
is stored at the ring's next place and the ring's index counts one. Whatever lies outside the host interface, the Ledger, the registers,
host memory and what leaves the device is as before. -/
def Obligations.RaiseTakesEffect : Prop :=
  ∀ (e : Event) (part : Option (Fin 8)) (a0 a1 : Nat) (s : State), StateInv s →
    let t := raise e part a0 a1 s
    let ring := if hostOpen s then evtRingFor part s else none
    t.hif.sev = max s.hif.sev e.sev ∧
    (e.sev < 2 → t.led = s.led) ∧
    (2 ≤ e.sev → t.led = { s.led with events := s.led.events ++ [⟨e.id, part, a0, a1, timeWord s⟩],
                                      oldestAt := some (s.led.oldestAt.getD s.tick) }) ∧
    (ring = none → t.hostMem = s.hostMem ∧ regOf (.cnt .hifEvtDrop) t = BitVec.ofNat 48 ((regOf (.cnt .hifEvtDrop) s).toNat + 1)) ∧
    (∀ n, ring = some n → ringSize n s ≤ ringUsed n s →
      t.hostMem = s.hostMem ∧ regOf (.cnt .hifEvtDrop) t = BitVec.ofNat 48 ((regOf (.cnt .hifEvtDrop) s).toNat + 1)) ∧
    (∀ n, ring = some n → ringUsed n s < ringSize n s →
      t.hostMem = (hostWrite (ringAddr n (ringIdx n s) s)
        (eventEntry e part a0 a1 (ringPhase n (ringIdx n s) s) (ringCtx n.val s).lost
          (attnNat { s with hif := { s.hif with sev := max s.hif.sev e.sev } }) (timeWord s)) s).hostMem ∧
      ringIdx n t = (ringIdx n s + 1) % 2 ^ 32) ∧
    t = { s with hif := t.hif, led := t.led, regs := t.regs, hostMem := t.hostMem, out := t.out }

/-- A byte the device writes to host memory reads back, every byte outside reads as before, and while the link is down or the function is in
D3hot nothing is written. -/
def Obligations.HostMemoryReadsBack : Prop :=
  ∀ (a : Nat) (bs : List Byte) (s : State), StateInv s →
    (hostOpen s = true → ∀ k b, bs[k]? = some b → storeGet (fun _ => 0) (hostWrite a bs s).hostMem (a + k) = b) ∧
    (∀ k, k < a ∨ a + bs.length ≤ k → storeGet (fun _ => (0 : Byte)) (hostWrite a bs s).hostMem k = storeGet (fun _ => 0) s.hostMem k) ∧
    (hostOpen s = false → hostWrite a bs s = s)

/-- REGISTER_WRITE, of a master whose interface takes requests: at a register whose write has no rule of its own, the writable bits take the
value written, the rest of it and every other register stay, and so does all other state; at a register whose write is a command of its own,
the effect is that command's. A misaligned access completes as Unsupported Request, the input map window takes plain bytes, and where no
register is the write is ignored. An access of the host's first drops the split-write latch (accessed). A register reads back what was
stored in it, and every other register reads as before (the registers' canonical form is an invariant). -/
def Obligations.RegisterWrite : Prop :=
  (∀ (m : Master) (offset : BitVec 26) (value : BitVec 64) (s : State), Accepts m s →
    let o := offset.toNat
    let a := accessed m s
    let v := value.setWidth 48
    let out := Machine.exec (.registerWrite m offset value) s
    (o % 8 ≠ 0 → out = .next (emit .unsupported a)) ∧
    (o % 8 = 0 → 0x1000000 ≤ o → o < 0x1080000 → out = .next (mapWindow (o - 0x1000000) 8 value.toNat a)) ∧
    (o % 8 = 0 → o < 0x1000000 ∨ 0x1080000 ≤ o → Reg.ofOffset o = none → out = .next a) ∧
    (∀ r, o % 8 = 0 → o < 0x1000000 ∨ 0x1080000 ≤ o → Reg.ofOffset o = some r → match r with
      | .sysFabricQos | .accCfg | .trgCfg | .timeRefCfg | .timeXoCfg | .timePpsCfg | .timePtpCfg | .reeveCtl
      | .dmaSrcL _ | .dmaSrcH _ | .dmaDstL _ | .dmaDstH _ | .dmaCount _ => out = .next (regWrite m r v a)
      | .sysReset => out = Machine.exec (.sysResetWrite m v) s
      | .sysPower => out = Machine.exec (.standbyRequest m v) s
      | .hifNudge => out = Machine.exec (.hifNudge m v) s
      | .hifAttnClr => out = Machine.exec (.attnClrSev m v) s
      | .hifEstop => out = Machine.exec (.hifEstop m v) s
      | .ringBase n => out = Machine.exec (.hifRingCfgWrite m n .base v) s
      | .ringCfg n => out = Machine.exec (.hifRingCfgWrite m n .cfg v) s
      | .ringIdx n => out = Machine.exec (.hifRingCfgWrite m n .idx v) s
      | .ingTableInval => out = Machine.exec (.ingTableInval m v) s
      | .detRangeSet => out = Machine.exec (.detRangeSet m v) s
      | .memLayout => out = Machine.exec (.memLayoutWrite m v) s
      | .memAllot k => out = Machine.exec (.memAllotWrite m k v) s
      | .timeRate => out = Machine.exec (.timeRateWrite m v) s
      | .timeSlew => out = Machine.exec (.timeSlewWrite m v) s
      | .timeCtl => out = Machine.exec (.timeStep m v) s
      | .timeTdcCtl => out = Machine.exec (.tdcGo m v) s
      | .timeTsqCfg => out = Machine.exec (.tsqClrDrops m v) s
      | .timeTsqPop => out = Machine.exec (.timeTsqPop m v) s
      | .bellCfg => out = Machine.exec (.bellCfgWrite m v) s
      | .laneBellCfg => out = Machine.exec (.laneBellCfgWrite m v) s
      | .laneGroupCfg g => out = Machine.exec (.laneGroupCfgWrite m g v) s
      | .laneCfg l => out = Machine.exec (.laneCfgWrite m l v) s
      | .dmaCtl n => out = Machine.exec (.dmaStartRegister m n v) s
      | .monCtl => out = Machine.exec (.monRelock m v) s
      | r => ∃ t, out = .next t ∧ t = { a with regs := t.regs } ∧
          (StateInv a → regOf r t = ((v &&& r.rwMask) ||| (regOf r a &&& ~~~r.rwMask)) ∧
            ∀ q : Reg, q.offset ≠ r.offset → regOf q t = regOf q a))) ∧
  (∀ (r r' : Reg) (v : Payload) (s : State), StateInv s →
    regOf r (setReg r v s) = v ∧ (r'.offset ≠ r.offset → regOf r' (setReg r v s) = regOf r' s) ∧
      setReg r v s = { s with regs := (setReg r v s).regs })

/-- SPLIT_WRITE_LOW at a register holds the four bytes in the latch; SPLIT_WRITE_HIGH to the same register then writes it whole (regWrite),
and to another register, or with nothing held, the latch is empty, no register is written and HIF_SPLIT_DISCARD is raised. -/
def Obligations.SplitWrite : Prop :=
  ∀ (offset : BitVec 26) (low high : BitVec 32) (s : State), Accepts .host s →
    let o := offset.toNat / 8 * 8
    ((Reg.ofOffset o).isSome → Machine.exec (.splitWriteLow offset low) s =
      .next { accessed .host s with hif := { (accessed .host s).hif with latch := some (o, low) } }) ∧
    (∀ r, Reg.ofOffset o = some r → s.hif.latch = some (o, low) → Machine.exec (.splitWriteHigh offset high) s =
      .next (regWrite .host r (BitVec.ofNat 48 (high.toNat * 2 ^ 32 + low.toNat)) { s with hif := { s.hif with latch := none } })) ∧
    (∀ k, s.hif.latch = some (k, low) → k ≠ o → Machine.exec (.splitWriteHigh offset high) s =
      .next (raise .hifSplitDiscard none 0 0 { s with hif := { s.hif with latch := none } })) ∧
    (s.hif.latch = none → (Reg.ofOffset o).isSome →
      Machine.exec (.splitWriteHigh offset high) s = .next (raise .hifSplitDiscard none 0 0 s))

/-- MMIO_UNSUPPORTED: an access of a size other than 4 or 8 bytes, one not aligned to its size, and one at the Reeve's windows complete as
Unsupported Request; in BAR0 the access drops the split-write latch. A window access aligned to its size stores its bytes: in the input map,
and the index is marked for the map cache; in a delay bank, through the beam table port (portWrite); in the recovery buffer while STAGE is
RECOVERY, and otherwise the write has no effect. A misaligned one is unsupported. -/
def Obligations.OtherAccesses : Prop :=
  (∀ (a : BarAccess) (s : State), Accepts .host s → (a.toReeve = true ∨ (a.size ≠ 4 ∧ a.size ≠ 8) ∨ a.offset % a.size ≠ 0) →
    Machine.exec (.mmioUnsupported a) s = .next (emit .unsupported (if a.bar4 then s else accessed .host s))) ∧
  (∀ (o19 : BitVec 19) (o27 : BitVec 27) (o23 : BitVec 23) (wide : Bool) (value : BitVec 64) (s : State), Accepts .host s →
    let n := if wide then 8 else 4
    (o19.toNat % n = 0 → Machine.exec (.inputMapWindowWrite o19 wide value) s =
      .next (mapWindow o19.toNat n value.toNat (accessed .host s))) ∧
    (o27.toNat % n = 0 → Machine.exec (.delayWindowWrite o27 wide value) s =
      let bank := o27.toNat / 2 ^ 26
      let i := o27.toNat % 2 ^ 26 / 16
      .next (portWrite bank i (putEntry (tabGet 2 bank i s) (o27.toNat % 16) n value.toNat) s)) ∧
    (o23.toNat % n = 0 → bootStage s = 6 → Machine.exec (.recoveryBufferWrite o23 wide value) s =
      .next { s with sys := { s.sys with recovery := storeSetList (fun _ => 0) s.sys.recovery o23.toNat (leBytes n value.toNat) } }) ∧
    (o23.toNat % n = 0 → bootStage s ≠ 6 → Machine.exec (.recoveryBufferWrite o23 wide value) s = .next s) ∧
    (o19.toNat % n ≠ 0 → Machine.exec (.inputMapWindowWrite o19 wide value) s = .next (emit .unsupported (accessed .host s))) ∧
    (o27.toNat % n ≠ 0 → Machine.exec (.delayWindowWrite o27 wide value) s = .next (emit .unsupported s)) ∧
    (o23.toNat % n ≠ 0 → Machine.exec (.recoveryBufferWrite o23 wide value) s = .next (emit .unsupported s)))

/-- FABRIC_GRANT: what arrives joins the port's interfaces, the slices issue and entries of the queue fill while there is room (arrive,
issueAll, fillQueue). Then the waiting transaction of highest QoS is granted, the first in the queue among equals; while one below level 15
waits, at most seven grants in a row go to level 15, and the eighth goes to the highest below it. The granted one leaves the queue, the
streak counts, freed entries fill, and the transaction is performed at its target (perform), or with a parity error ends with a bus error
and FAB_PARITY. With an empty queue, or at the memory of a core in a repeat, nothing is granted. -/
def Obligations.FabricGrant : Prop :=
  ∀ (port : FabTarget) (arrivals : List FabArrival) (parity : Bool) (s : State), Runs s →
    let k := targetKey port
    let arrived := issueAll (arrivals.foldl (fun s a => arrive k a s) s)
    let u := fillQueue k (targetOf k arrived).waiting.length arrived
    let p := targetOf k u
    let low := p.queue.filter fun x => x.qos ≠ 15
    let highest := fun (l : List Txn) (t : Txn) => ∃ pre post, l = pre ++ t :: post ∧ (∀ x ∈ pre, x.qos < t.qos) ∧ ∀ x ∈ post, x.qos ≤ t.qos
    (p.queue = [] ∨ portShut port u = true → Machine.exec (.fabricGrant port arrivals parity) s = .next u) ∧
    (p.queue ≠ [] → portShut port u = false →
      ∃ t, (low = [] ∨ p.streak < 7 → highest p.queue t) ∧ (low ≠ [] → 7 ≤ p.streak → highest low t) ∧
      let q := setTarget k { p with queue := p.queue.filter (·.serial ≠ t.serial), streak := if t.qos = 15 ∧ low ≠ [] then p.streak + 1 else 0 } u
      let f := fillQueue k (targetOf k q).waiting.length q
      let v := raise .fabParity none (arg0 (classNo t.req.cls) 0 0) t.req.addr (emit (.busError t.req.cls) f)
      let failed := if t.req.cls = .dma then { v with fab := { v.fab with replies := v.fab.replies ++ [⟨t.serial, none⟩] } } else v
      let done := if parity then failed else perform port t (emit (.granted port t.serial t.qos) f)
      Machine.exec (.fabricGrant port arrivals parity) s =
        .next (if k < 64 then refreshFree (2 * k + 1) (refreshFree (2 * k) done) else done))

/-- QOS_AGEING: the transaction named gains one level, never above 14, and one of level 15 does not change. FAB_MASTER_DRAINED: once nothing
of a draining class is outstanding, the class is released with the event that names it, cribs whose readout the stopped state cancelled are
freed (freeCancelled) and DMA channels that waited go on; before that nothing happens. ALLOTMENT_REFILL: each bucket gains its rate up to
its depth. REMAP_SWAP: the Reeve's accesses are performed as the mapping stands, and then with REMAP set and none of the Reeve's outstanding
the two windows swap; else they stay. -/
def Obligations.FabricHousekeeping : Prop :=
  ∀ (port : FabTarget) (serial : Nat) (cls : MasterClass) (l : List ReeveAccess) (s : State), Runs s →
    Machine.exec (.qosAgeing port serial) s = .next (setTarget (targetKey port)
      { targetOf (targetKey port) s with queue := (targetOf (targetKey port) s).queue.map fun t =>
          if t.serial = serial ∧ t.qos < 14 then { t with qos := t.qos + 1 } else t } s) ∧
    (cls ∈ s.fab.draining → outstanding cls s = false → Machine.exec (.fabMasterDrained cls) s =
      (let t := freeCancelled cls (raise .fabMasterDrained none (classNo cls) 0
         { s with fab := { s.fab with draining := s.fab.draining.filter (· ≠ cls) } })
       .next (if cls = .dma then dmaResume t else t))) ∧
    (cls ∉ s.fab.draining ∨ outstanding cls s = true → Machine.exec (.fabMasterDrained cls) s = .next s) ∧
    (∃ t, Machine.exec .allotmentRefill s = .next t ∧ t = { s with fab := { s.fab with tokens := t.fab.tokens } } ∧
      (storeSorted none s.fab.tokens = true → ∀ m : Fin 3, tokensOf m.val t =
        min (tokensOf m.val s + 16 * getF fMemAllotRate (.memAllot m) s) (256 * getF fMemAllotBurst (.memAllot m) s))) ∧
    (let u := l.foldl (fun s x => reeveAccess x s) s
     (getF fReeveCtlRemap .reeveCtl u = 1 → outstanding .reeve u = false →
       Machine.exec (.remapSwap l) s = .next { u with sys := { u.sys with remapped := true } }) ∧
     (getF fReeveCtlRemap .reeveCtl u = 0 ∨ outstanding .reeve u = true → Machine.exec (.remapSwap l) s = .next u))

/-- ETH_FRAME_RECEIVE on a port that is up: the FEC results of the frame are counted (fecCount) first. Then a full ingress FIFO is a clock
fault (fifoFault); a frame with an uncorrectable codeword goes no further; one outside 18 to 9,216 bytes, or whose last four bytes are not
the CRC of the rest, is counted in LANE_FCS_ERR; a parity error of its buffer is an uncorrectable SRAM error; and any other goes, as
ethClass sorts it, to ingress, to ING_BAD_HDR, to ING_BAD_CSUM or to non-ingress handling. On a port that is not up nothing happens.
Non-ingress handling (nonIngress): a PTP message goes to the clock (ptpFrameIn), an ARP request and a neighbour solicitation for the port's
own address are answered on the port, and any other frame is counted in LANE_OTHER. -/
def Obligations.EthernetFrame : Prop :=
  (∀ (port : Fin 8) (rx : EthRx) (s : State), Runs s →
    let g := port.val
    let s1 := fecCount g rx.fecCorr rx.fecUncorr s
    let body := rx.frame.take (rx.frame.length - 4)
    let good := 18 ≤ rx.frame.length ∧ rx.frame.length ≤ 9216 ∧ leAt rx.frame (rx.frame.length - 4) 4 = crc32 body
    (portUp g s = false → Machine.exec (.ethFrameReceive port rx) s = .next s) ∧
    (portUp g s = true → rx.fifoFull = true → Machine.exec (.ethFrameReceive port rx) s = .next (fifoFault g s1)) ∧
    (portUp g s = true → rx.fifoFull = false → 0 < rx.fecUncorr → Machine.exec (.ethFrameReceive port rx) s = .next s1) ∧
    (portUp g s = true → rx.fifoFull = false → rx.fecUncorr = 0 → ¬good →
      Machine.exec (.ethFrameReceive port rx) s = .next (bump (.laneFcsErr port) 1 s1)) ∧
    (portUp g s = true → rx.fifoFull = false → rx.fecUncorr = 0 → good → rx.parityError = true →
      Machine.exec (.ethFrameReceive port rx) s = .next (sramError .uncorrectable s1)) ∧
    (portUp g s = true → rx.fifoFull = false → rx.fecUncorr = 0 → good → rx.parityError = false →
      Machine.exec (.ethFrameReceive port rx) s = .next (match ethClass body (getF fIngCfgUdpPort .ingCfg s1) with
        | .ingress u n => ingressPayload u n s1
        | .badHdr => bump .ingBadHdr 1 s1
        | .badCsum => bump .ingBadCsum 1 s1
        | .other => nonIngress g body rx.stamp s1))) ∧
  (∀ (g : Fin 8) (f : List Byte) (x : PcsStamp) (s : State),
    (∀ tr m, ptpOf f = some (tr, m) → nonIngress g.val f x s = ptpFrameIn g.val tr m x s) ∧
    (∀ r, ptpOf f = none → arpReply g.val f s = some r → nonIngress g.val f x s = portFrame g.val r s) ∧
    (∀ r, ptpOf f = none → arpReply g.val f s = none → neighbourReply g.val f s = some r → nonIngress g.val f x s = portFrame g.val r s) ∧
    (ptpOf f = none → arpReply g.val f s = none → neighbourReply g.val f s = none → nonIngress g.val f x s = bump (.laneOther g) 1 s))

/-- PTP_TX_INTERVAL: foreign masters unheard too long go first (ptpExpire). Then, the clock's port up: a master sends a two-step Sync and
its Follow_Up with the time the Sync left, which is offered to the timestamp queue; a clock of ROLE 2 that is no slave sends an Announce,
its UTC offset a free value, and is master; a slave sends a Delay_Req and keeps the time it left as t3. Each counts its own sequence. Else
nothing is sent. BATCH_WINDOW_EXPIRE makes a batch ready to close, whose first granule is in its buffer or parked: the oldest of that
ordinal not yet marked ready. ING_TABLE_INVAL marks one entry of the partition's input map for rereading, or all; or one of the 256
threshold sets, or all, for every partition. -/
def Obligations.PtpAndIngressMarks : Prop :=
  (∀ (sent : PcsStamp) (s : State), Runs s →
    let u := ptpExpire s
    let c := u.time.ptp
    let g := ptpPort u
    let q := (ptpEventTime true sent u).1
    let w := (ptpEventTime true sent u).2
    (portUp g u = true → ptpRole u = 2 → c.state = 1 → Machine.exec (.ptpTxInterval .sync sent) s =
      (let iv := logByte (getF fTimePtpCfgLogSync .timePtpCfg w)
       let s1 := portFrame g (ptpFrame true (ptpMessage 0 c.syncSeq 0x0200 iv 0 (beBytes 10 0) w) w) w
       let s2 := portFrame g (ptpFrame false (ptpMessage 8 c.syncSeq 0 iv 0 (ptpStamp q) s1) s1) s1
       .next (ptpOffer true q c.syncSeq 0 (onPtp (fun c => { c with syncSeq := wrap 16 (c.syncSeq + 1) }) s2)))) ∧
    (portUp g u = true → ptpRole u = 2 → c.state ≠ 2 → Machine.exec (.ptpTxInterval .announce sent) s =
      (let v := (freeNat u).2
       let body := beBytes 10 0 ++ beBytes 2 (freeNat u).1 ++ beBytes 1 0 ++ beBytes 1 (getF fTimePtpCfgPriority1 .timePtpCfg v) ++
         beBytes 4 0xF8FEFFFF ++ beBytes 1 (getF fTimePtpCfgPriority2 .timePtpCfg v) ++ (ptpIdentity v).take 8 ++ beBytes 2 0 ++ beBytes 1 0xA0
       let iv := logByte (getF fTimePtpCfgLogAnnounce .timePtpCfg v)
       .next (onPtp (fun c => { c with annSeq := wrap 16 (c.annSeq + 1), state := 1 })
         (portFrame g (ptpFrame false (ptpMessage 11 c.annSeq 0 iv 0 body v) v) v)))) ∧
    (portUp g u = true → ptpRole u ≠ 0 → c.state = 2 → Machine.exec (.ptpTxInterval .delayReq sent) s =
      .next (ptpOffer true q c.delaySeq 1 (onPtp (fun c => { c with t3 := some q, delaySeq := wrap 16 (c.delaySeq + 1) })
        (portFrame g (ptpFrame true (ptpMessage 1 c.delaySeq 0 0x7F 0 (beBytes 10 0) w) w) w)))) ∧
    (portUp g u = false ∨ ptpRole u ≠ 2 ∨ c.state ≠ 1 → Machine.exec (.ptpTxInterval .sync sent) s = .next u) ∧
    (portUp g u = false ∨ ptpRole u ≠ 2 ∨ c.state = 2 → Machine.exec (.ptpTxInterval .announce sent) s = .next u) ∧
    (portUp g u = false ∨ ptpRole u = 0 ∨ c.state ≠ 2 → Machine.exec (.ptpTxInterval .delayReq sent) s = .next u)) ∧
  (∀ (p : Fin 8) (ord : Nat) (s : State), Runs s →
    let x := partOf p s
    let keys := (match x.fill with
        | some c => if c.batches.any fun b => b.ord = ord && b.firstAt.isSome then [(x.stage, ord)] else []
        | none => []) ++
      (x.parked.filter fun pk => (pk.ord (x.cfgAt pk.sample)) = ord).map fun pk => (x.stageAt pk.sample, ord)
    (∀ pre k post, keys = pre ++ k :: post → (∀ j ∈ pre, j ∈ x.readyOrds) → k ∉ x.readyOrds →
      Machine.exec (.batchWindowExpire p ord) s = .next (setPart p { x with readyOrds := x.readyOrds ++ [k] } s)) ∧
    ((∀ k ∈ keys, k ∈ x.readyOrds) → Machine.exec (.batchWindowExpire p ord) s = .next s) ∧
    ∀ (m : Master) (value : BitVec 48), Accepts m s →
      let s0 := accessed m s
      let q := Fin.ofNat 8 (fld fIngTableInvalPart value)
      let i := fld fIngTableInvalIndex value
      (fld fIngTableInvalTable value = 0 → fld fIngTableInvalAll value = 0 → Machine.exec (.ingTableInval m value) s =
        .next (setPart q { partOf q s0 with stale := if i ∈ (partOf q s0).stale then (partOf q s0).stale else (partOf q s0).stale ++ [i] } s0)) ∧
      (fld fIngTableInvalTable value = 0 → fld fIngTableInvalAll value = 1 → Machine.exec (.ingTableInval m value) s =
        .next (setPart q { partOf q s0 with stale := List.range 4096 } s0)) ∧
      (fld fIngTableInvalTable value = 1 → fld fIngTableInvalAll value = 1 → ∃ t, Machine.exec (.ingTableInval m value) s = .next t ∧
        t = { s0 with parts := t.parts } ∧ (StateInv s0 → ∀ r : Fin 8, (partOf r t) = { partOf r s0 with thrStale := List.range 256 })) ∧
      (fld fIngTableInvalTable value = 1 → fld fIngTableInvalAll value = 0 → i < 256 →
        ∃ t, Machine.exec (.ingTableInval m value) s = .next t ∧ t = { s0 with parts := t.parts } ∧ (StateInv s0 → ∀ r : Fin 8, (partOf r t) =
          { partOf r s0 with thrStale := if i ∈ (partOf r s0).thrStale then (partOf r s0).thrStale else (partOf r s0).thrStale ++ [i] })) ∧
      (fld fIngTableInvalTable value = 1 → fld fIngTableInvalAll value = 0 → 256 ≤ i → Machine.exec (.ingTableInval m value) s = .next s0))

/-- REGION_ROTATE: the region of a started partition not yet stopped rotates once its filling copy is ready in every batch, its computing
copy is done and its retained copy is classified in every batch, and the weights of the filling copy are finished first (readWeights). Of a
stopping partition the filling copy need only be ready in the batches of which something came, and the rotation is its stop. An SRAM error
the rotation finds is handled with it: a corrected one is counted, the batch of an uncorrectable one is withheld, and the table entry of one
reads as failed at once. Where the conditions do not hold nothing happens. -/
def Obligations.RegionRotates : Prop :=
  ∀ (p : Fin 8) (s : State), Runs s →
    let x := partOf p s
    let full := ∃ c, x.fill = some c ∧ ∀ b ∈ c.batches, batchReady x c b = true
    let come := ∀ c, x.fill = some c → ∀ b ∈ c.batches, b.firstAt.isSome → batchReady x c b = true
    let computed := ∀ c, x.comp = some c → c.finished = true
    let released := ∀ c, x.ret = some c → ∀ b ∈ c.batches, classified p c b s = true
    let may := x.started = true ∧ x.stopped = false ∧ (x.stopping = false ∧ full ∨ x.stopping = true ∧ come) ∧ computed ∧ released
    let turn := fun s : State => if (partOf p s).stopping then rotateStop p s else rotateNormal p (readWeights p s)
    (may → x.stopping = false → Machine.exec (.regionRotate p none) s = .next (rotateNormal p (readWeights p s))) ∧
    (may → x.stopping = true → Machine.exec (.regionRotate p none) s = .next (rotateStop p s)) ∧
    (may → ∀ w, Machine.exec (.regionRotate p (some (.corrected w))) s = .next (sramError (.corrected w) (turn s))) ∧
    (may → ∀ ord, Machine.exec (.regionRotate p (some (.batch ord))) s =
      (let u := sramError .uncorrectable (turn s)
       .next (((partOf p u).closed.filter fun c => (c.batch ord).isSome).foldl (fun s c => withholdBatch p c.epoch ord s) u))) ∧
    (may → ∀ i, Machine.exec (.regionRotate p (some (.mapEntry i))) s = .next (turn (tableError p (some (.mapEntry i)) s))) ∧
    (may → ∀ i, Machine.exec (.regionRotate p (some (.thrSet i))) s = .next (turn (tableError p (some (.thrSet i)) s))) ∧
    (¬may → ∀ ecc, Machine.exec (.regionRotate p ecc) s = .next s)

/-- WEIGHT_SYNTHESIS of a batch of the filling copy whose weights are not yet computed, with no commit due by its sub-integration: the
reading is noted, every beam's weights and marks are computed from one reading of each entry, and the batch keeps them. With a commit due,
it is applied first. A batch already synthesised, or none of that ordinal, is left. A weight of an entry that is torn or stale is zero
(R130, R136). BANK_COMMIT_APPLY: a pending commit takes effect once every sub-integration before it has been read: the inactive bank becomes
active with the commit's REF_SAMPLE, BF_BANK_STATUS follows and BF_COMMIT_APPLIED is raised; batches before S_C keep the bank they had;
until then, and with none pending, nothing happens. -/
def Obligations.WeightsAndBanks : Prop :=
  (∀ (p : Fin 8) (ord : Nat) (s : State), Runs s →
    let x := partOf p s
    ((∀ c, x.fill = some c → c.batch ord = none) → Machine.exec (.weightSynthesis p ord) s = .next s) ∧
    ∀ (cp : Copy) (b : Batch), x.fill = some cp → cp.batch ord = some b →
    (b.synthesised = true → Machine.exec (.weightSynthesis p ord) s = .next s) ∧
    (b.synthesised = false → ∀ s0, s0 = (if x.commit.any (fun c => decide (c.sC ≤ b.sub)) then applyCommit p s else s) →
      Machine.exec (.weightSynthesis p ord) s =
        (let s1 := noteRead p b.sub (x.cfgOf cp.epoch).t s0
         let res := synthBeams p (x.cfgOf cp.epoch) b (cp.beams p b s1) s1
         .next (setPart p ((partOf p res.2).onBatch cp.epoch ord fun _ => { res.1 with synthesised := true }) res.2)))) ∧
  (∀ (entry freq : Nat) (fine : Bool) (d : Int), (delayTorn entry = true ∨ 2 ^ 31 ≤ d.natAbs) → weightOf entry freq fine d = ⟨0, 0⟩) ∧
  (∀ (p : Fin 8) (s : State), Runs s →
    let x := partOf p s
    let act := getF fBfBankStatusActive .bfBankStatus s
    let pen := getF fBfBankStatusPending .bfBankStatus s
    (x.commit = none → Machine.exec (.bankCommitApply p) s = .next s) ∧
    (∀ c, x.commit = some c → firstUnread p s < c.sC → Machine.exec (.bankCommitApply p) s = .next s) ∧
    (∀ c, x.commit = some c → c.sC ≤ firstUnread p s → Machine.exec (.bankCommitApply p) s = .next
      (raise .bfCommitApplied (some p) (arg0 0 p.val 0) c.sC
        (setF fBfBankStatusPending .bfBankStatus (if bitOf pen p.val then pen - 2 ^ p.val else pen)
          (setF fBfBankStatusActive .bfBankStatus (Nat.xor act (2 ^ p.val))
            (setPart p { x with
            bank := !x.bank, refSample := c.refSample, commit := none,
            oldBanks := (x.oldBanks.filter fun b => x.fill.any fun f => f.batches.any fun y => decide (y.sub < b.1)) ++ [(c.sC, x.bank, x.refSample)] } s))))))

/-- MILL_SEGMENT_END serves the unfinished region of the earliest deadline for one segment in each quadrant, and every other region's piece
in progress ends; in a slot the throttle step leaves idle, or with no region to serve, only the slot counts; while the data path is paused
and in the stopped state nothing happens. PIECE_DRAIN of the waiting piece of the earliest deadline: a residue error raises MILL_RESIDUE and
the piece is re-run; a signature that differs on the shadowed tile raises MILL_MISMATCH and the piece is re-run; an uncorrectable error of
the hold store re-runs it too; a piece that passes is handed on (piecePasses). -/
def Obligations.MillServes : Prop :=
  (∀ (s : State) (p : Fin 8), Runs s →
    (s.sys.stopped = true ∨ s.dep.paused = true → Machine.exec .millSegmentEnd s = .next s) ∧
    (s.sys.stopped = false → s.dep.paused = false → slotIdle s = true ∨ nextRegion s = none →
      Machine.exec .millSegmentEnd s = .next { s with dep := { s.dep with slot := (s.dep.slot + 1) % 8 } }) ∧
    (s.sys.stopped = false → s.dep.paused = false → slotIdle s = false → nextRegion s = some p →
      (∃ c, (partOf p s).comp = some c ∧ c.finished = false ∧
        ∀ q c', (partOf q s).comp = some c' → c'.finished = false → c.deadline ≤ c'.deadline) ∧
      Machine.exec .millSegmentEnd s = .next ((List.range 4).foldl (fun s q => quadSegment p q s)
        (onComps (fun r c => if r = p then c else { c with tiles := c.tiles.map fun kv => (kv.1, kv.2.cut) })
          { s with dep := { s.dep with slot := (s.dep.slot + 1) % 8 } })))) ∧
  (∀ (tile : Fin 136) (s : State) (w : Waiting) (ws : List Waiting) (b : Batch) (task : Nat), Runs s → s.sys.stopped = false → s.dep.paused = false →
    let q := tile.val / 34
    let t := tile.val % 34
    let s1 := takePiece tile.val w s
    let ev := fun (e : Event) => raise e (some w.part) (arg0 tile.val w.part.val 0) 0 s1
    let shadowed : Bool := t = (quadOf q s1).shadowed && (quadOf q s1).shadow.isSome
    waitingPieces tile.val s = w :: ws → locate w.part w.copy q w.lo s = some (b, task) →
    Machine.exec (.pieceDrain tile .none none) s = .next (tryEndWindow q shadowed (piecePasses q t w b task s1)) ∧
    Machine.exec (.pieceDrain tile .residue none) s = .next (tryEndWindow q shadowed (startRerun q t w b task (ev .millResidue))) ∧
    (shadowed = true →
      Machine.exec (.pieceDrain tile .signature none) s = .next (tryEndWindow q true (startRerun q t w b task (ev .millMismatch)))) ∧
    (let e := sramError .uncorrectable s1
     Machine.exec (.pieceDrain tile .none (some .uncorrectable)) s =
       .next (tryEndWindow q (t = (quadOf q e).shadowed && (quadOf q e).shadow.isSome) (startRerun q t w b task e))))

/-- RERUN_DONE, classified as Table 13-2 says: all agreeing is a transient; one result apart, with a referee, makes that tile lasting-faulty
and passes the piece; anything else is unresolved. Without a referee A and S alone decide. REGION_COMPUTE_DONE once no tile has work of the
region left: it is finished, the lag recovers, and a region that finished after its deadline is counted and raises MILL_DEADLINE_MISS with
the MCLK cycles it was late. SHADOW_WINDOW_END and TEST_TASK_DONE: a window whose count expires ends, or is left to end, as tryEndWindow
says; a tile that fails its test is lasting-faulty, and the shadowed tile's pass counts for the 64 segments. -/
def Obligations.MillTests : Prop :=
  (∀ (q : Fin 4) (s : State) (r : Rerun) (rs : List Rerun) (b : Batch) (sh : Nat), Runs s → s.sys.stopped = false → s.dep.paused = false →
    let x := quadOf q.val s
    let s1 := countRerun q.val r s
    let keep := some (pieceRec r.tile r.part r.epoch b r.task s1)
    let s2 := passPiece r.part r.epoch b r.task r.first r.segs s1
    let say := fun agree u => Machine.exec (.rerunDone q agree) s = .next (tryEndWindow q.val true u)
    x.reruns = r :: rs → rerunBatch r s1 = some b → x.shadow = some sh →
    (∀ ref, referee x r.tile = some ref →
      say .all (transient q.val r b s2) ∧ say .aWrong (lastingFault q.val r.tile keep s2) ∧ say .sWrong (lastingFault q.val sh keep s2) ∧
      say .rWrong (lastingFault q.val ref keep s2) ∧ say .none (unresolved q.val r [r.tile, sh, ref] s1)) ∧
    (referee x r.tile = none →
      say .all (transient q.val r b s2) ∧ say .rWrong (transient q.val r b s2) ∧
      ∀ a ∈ [RerunAgreement.aWrong, .sWrong, .none], say a (unresolved q.val r [r.tile, sh] s1))) ∧
  (∀ (p : Fin 8) (s : State) (c : Copy), Runs s → s.sys.stopped = false → s.dep.paused = false → (partOf p s).comp = some c → c.finished = false →
    (∀ kv ∈ c.tiles, kv.2.queue = [] ∧ kv.2.cur = none) →
    let s1 := setPart p { partOf p s with comp := some { c with finished := true } } s
    let s2 := (List.range 4).foldl (fun s q => recoverLag p c q s) s1
    ((s.tick : ℚ) ≤ c.deadline → Machine.exec (.regionComputeDone p) s = .next s2) ∧
    (c.deadline < (s.tick : ℚ) → ∃ n : Nat, 4 * ((s.tick : ℚ) - c.deadline) ≤ n ∧ (n : ℚ) < 4 * ((s.tick : ℚ) - c.deadline) + 1 ∧
      Machine.exec (.regionComputeDone p) s =
        .next (raise .millDeadlineMiss (some p) (arg0 0 p.val 0) n (bump (.millDeadlineMiss p) 1 s2)))) ∧
  (∀ (q : Fin 4) (tile : Fin 136) (s : State), Runs s →
    let x := quadOf q.val s
    let y := quadOf (tile.val / 34) s
    let t := tile.val % 34
    let drop := { y with testing := y.testing.filter (· ≠ t) }
    (x.shadow.isSome → Machine.exec (.shadowWindowEnd q) s =
      .next (tryEndWindow q.val false (setQuad q.val { x with expired := true } s))) ∧
    (t ∈ y.testing → Machine.exec (.testTaskDone tile false) s =
      .next (tryEndWindow (tile.val / 34) true (lastingFault (tile.val / 34) t none (setQuad (tile.val / 34) drop s)))) ∧
    (StateInv s → t ∈ y.testing → ∃ u, Machine.exec (.testTaskDone tile true) s = .next (tryEndWindow (tile.val / 34) true u) ∧
      u = { s with quads := u.quads } ∧ quadOf (tile.val / 34) u =
        if y.expired = true ∧ t = y.shadowed then { drop with compared := max 64 y.compared } else drop))

/-- HARVEST_BATCH of a batch whose X tasks have all passed verification and that no earlier batch of its channel waits before: its tile sums
are added into the Granary and it is harvested; a withheld batch is reached and not added; an issue buffer above 256 transactions, as the
command finds it or as the fabric's queues stand, withholds, the first with MEM_GUARANTEE_MISS. SWEEP_TIMER_EXPIRE of a channel whose sweep
is due: it is dumped marked SWEPT and left empty, counted, and reported. -/
def Obligations.Harvest : Prop :=
  (∀ (p : Fin 8) (ord issue : Nat) (s : State) (cp : Copy) (b : Batch), Runs s → s.sys.stopped = false → s.dep.paused = false →
    (partOf p s).findClosed ord = some (cp, b) → b.harvested = false →
    (b.withheld = false → issue ≤ 256 → issueLate 0 s = false → xVerified ((partOf p s).cfgOf cp.epoch) b = true →
      earlierWaits (partOf p s) ((partOf p s).cfgOf cp.epoch).t b = false →
      Machine.exec (.harvestBatch p ord issue) s =
        (let s1 := addBatch p cp b (reach p cp b s)
         .next (stopSweep p (setPart p ((partOf p s1).onBatch cp.epoch ord fun b => { b with harvested := true }) s1)))) ∧
    (b.withheld = true → Machine.exec (.harvestBatch p ord issue) s = .next (stopSweep p (reach p cp b s))) ∧
    (b.withheld = false → 256 < issue → Machine.exec (.harvestBatch p ord issue) s =
      .next (stopSweep p (reach p cp b (withholdBatch p cp.epoch ord
        (raise .memGuaranteeMiss (some p) (arg0 b.chan p.val 0) issue s))))) ∧
    (b.withheld = false → issue ≤ 256 → issueLate 0 s = true → Machine.exec (.harvestBatch p ord issue) s =
      .next (stopSweep p (reach p cp b (withholdBatch p cp.epoch ord s))))) ∧
  (∀ (p : Fin 8) (chan : Fin 16384) (s : State) (c : ChanState), Runs s → s.sys.stopped = false → sweepDue p chan.val s = true →
    chanOf p chan.val s = some c → Machine.exec (.sweepTimerExpire p chan) s =
      .next (raise .accSweepDump (some p) (arg0 chan.val p.val 0) 0 (bump (.accSwept p) 1
        (clearChannel p chan.val (dumpChannel p chan.val true s)))))

/-- CHAIN_BATCH: an instance of a monitor takes the oldest batch that waits for it through its decimator and detectors, and a beam's
instance the earliest (nextInput) that still owes it its Stokes parameter, once no earlier batch of the channel owes the beam (owedEarlier)
and while the data path is not paused; samples of missing power are taken as absent. The last Stokes instance sends the power. DET_RANGE_SET
sets the RANGE of a valid chain entry, for its running instances (setRange) and those to come; a RANGE above 47 or an entry that is not
valid is ignored with DET_BAD_RANGE. -/
def Obligations.Chains : Prop :=
  (∀ (entry : Nat) (chan : Fin 16384) (stokes : Fin 4) (s : State), Runs s →
    (∀ i, 1024 ≤ entry → (s.det.monIn.find? fun i => i.entry = entry && i.chan = chan.val) = some i →
      Machine.exec (.chainBatch entry chan stokes) s =
        (let t := ((partOf i.part s).cfgOf i.epoch).t
         let r := runChain i.part entry chan.val 0 i.int (i.sub * (t / 16)) (i.pows.map fun v => (v.map fun n => (n : Int), 0)) s
         .next { r.2 with det := { r.2.det with monIn := r.2.det.monIn.filter (· ≠ i) } })) ∧
    (∀ i, entry < 1024 → nextInput entry chan.val stokes.val s = some i → owedEarlier i s = false → s.dep.paused = false →
      Machine.exec (.chainBatch entry chan stokes) s =
        (let t := ((partOf i.part s).cfgOf i.epoch).t
         let xs := if i.missing then List.replicate t (none, 0)
           else (i.samples.zip i.sats).map fun v => (some (stokesOf stokes.val v.1), v.2)
         let r := runChain i.part entry chan.val stokes.val i.int (i.sub * t) xs s
         let u := releaseRange (chainKey entry chan.val stokes.val) r.2
         let j := { i with left := i.left.filter (· ≠ stokes.val), outs := i.outs ++ [(stokes.val, r.1)] }
         .next (if j.left.isEmpty then sendPower j { u with det := { u.det with chainIn := u.det.chainIn.filter (· ≠ i) } }
           else { u with det := { u.det with chainIn := u.det.chainIn.map fun k => if k = i then j else k } })))) ∧
  (∀ (m : Master) (value : BitVec 48) (s : State), Accepts m s →
    let entry := fld fDetRangeSetEntry value
    let range := fld fDetRangeSetRange value
    let s0 := accessed m s
    (range ≤ 47 → entry ≤ 1087 → (decodeChain (entryNow 5 entry s0)).valid = true →
      Machine.exec (.detRangeSet m value) s = .next { s0 with det := { s0.det with
        chains := s0.det.chains.map fun kv => (kv.1, if kv.1 / 65536 = entry then kv.2.map fun x => setRange kv.1 range x s0 else kv.2),
        ranges := storeSet (fun _ => (0, 0)) s0.det.ranges entry (range + 1, entryNow 5 entry s0 / 2 ^ 128) } }) ∧
    (47 < range ∨ 1087 < entry ∨ (decodeChain (entryNow 5 entry s0)).valid = false →
      Machine.exec (.detRangeSet m value) s = .next (raise .detBadRange none (entry % 65536) 0 s0)))

/-- TRIG_IN_EDGE is stamped on TDC channel 1 (tdcEdge). With a capture partition that runs, an edge before that partition's origin raises
TIME_BEFORE_ORIGIN; with the pin as a source of the ARM in force, one whose sample is not below ARM_TIME is a fire (localFire), and one
below is not; with no such ARM, or with no capture partition that runs, the stamp is all. ARM_EFFECT with no event open takes the ARM that
waits once the writer has placed a sample at or after its ARM_TIME, raising TRG_ARMED: an ARM without sources disarms, and one with sources
is in force. Before that, while an event is open, or with no ARM that waits, nothing happens. -/
def Obligations.TriggerArms : Prop :=
  (∀ (x : RawStamp) (s : State), Runs s →
    let s1 := tdcEdge 1 x s
    let q := stampTime x s
    (∀ k, capturing s1 = some k → (partOf k.part s1).started = true →
      ((partOf k.part s1).samplePos q = none → Machine.exec (.trigInEdge x) s =
        .next (raise .timeBeforeOrigin (some k.part) (arg0 0 k.part.val 0) 0 s1)) ∧
      (∀ ft, (partOf k.part s1).samplePos q = some ft →
        (∀ a, armedFor 1 s1 = some a → a.time ≤ ft / 256 → Machine.exec (.trigInEdge x) s = .next (localFire a k.part 1 ft 0 0 s1).2) ∧
        (∀ a, armedFor 1 s1 = some a → ft / 256 < a.time → Machine.exec (.trigInEdge x) s = .next s1) ∧
        (armedFor 1 s1 = none → Machine.exec (.trigInEdge x) s = .next s1))) ∧
    ((∀ k, capturing s1 = some k → (partOf k.part s1).started = false) → Machine.exec (.trigInEdge x) s = .next s1)) ∧
  (∀ (s : State), Runs s →
    (∀ a rest, s.trig.armPending = a :: rest → eventOpen s = false → a.time < s.trig.placedMax → Machine.exec .armEffect s =
      .next (raise .trgArmed (s.trig.capt.map (·.part)) (arg0 a.id ((s.trig.capt.map (·.part.val)).getD 0) 0) a.time
        { s with trig := { s.trig with armed := if a.sources = 0 then none else some a, armPending := rest, event := none, eventSeq := 0 } })) ∧
    (eventOpen s = true ∨ s.trig.armPending = [] ∨ (∃ a rest, s.trig.armPending = a :: rest ∧ s.trig.placedMax ≤ a.time) →
      Machine.exec .armEffect s = .next s))

/-- A fire of the armed trigger (disposeFire): with no event, or past a settled one whose ARM repeats (freshAfter), it opens one where a
crib records, else NO_CRIB is counted, logged and raised; a fire below the coincidence window, one not earlier than the winner, and one
after settle that opens no event are logged and counted; one earlier than the winner becomes the winner. SETTLE_END of the open event once
its crib is HELD and SETTLE has passed: settle ends (endSettle); before that nothing happens. -/
def Obligations.Fires : Prop :=
  (∀ (a : Arm) (f : Fire) (s : State),
    (∀ k c, s.trig.event = none → capturing s = some k → cribIn 1 k s = some c →
      disposeFire a f s = (true, openEvent a k c f s)) ∧
    (∀ e k c, s.trig.event = some e → freshAfter e f = true → capturing s = some k → cribIn 1 k s = some c →
      disposeFire a f s = (true, openEvent a k c f s)) ∧
    ((s.trig.event = none ∨ ∃ e, s.trig.event = some e ∧ freshAfter e f = true) → (∀ k, capturing s = some k → cribIn 1 k s = none) →
      disposeFire a f s = (false, raise .trgNoCrib (s.trig.capt.map (·.part)) (arg0 0 ((s.trig.capt.map (·.part.val)).getD 0) 0)
        (f.time / 256) (bump .trgNoCrib 1 (logFire f 2 0 s.trig.eventSeq s)))) ∧
    (∀ e, s.trig.event = some e → e.settled = true → freshAfter e f = false →
      disposeFire a f s = (true, bump .trgLate 1 (logFire f 4 0 e.seq s))) ∧
    (∀ e, s.trig.event = some e → e.settled = false → f.time + e.arm.coinc * 256 < e.opened.time →
      disposeFire a f s = (true, bump .trgOutside 1 (logFire f 3 0 e.seq s))) ∧
    (∀ e, s.trig.event = some e → e.settled = false → e.opened.time ≤ f.time + e.arm.coinc * 256 → e.winner.rank ≤ f.rank →
      disposeFire a f s = (true, bump .trgMerged 1 (logFire f 1 e.crib e.seq
        { s with trig := { s.trig with event := some { e with fires := e.fires + 1 } } }))) ∧
    (∀ e, s.trig.event = some e → e.settled = false → e.opened.time ≤ f.time + e.arm.coinc * 256 → f.rank < e.winner.rank →
      let s1 := logSuperseded e.entry s
      let s2 := { s1 with trig := { s1.trig with event := some { e with winner := f, fires := e.fires + 1, entry := (sysRing 3 s1).next } } }
      disposeFire a f s = (true, logFire f 0 e.crib e.seq (setCrib e.crib { cribOf e.crib s2 with winner := some f } s2)))) ∧
  (∀ (crib : Fin 4) (s : State) (e : TrigEvent) (k : CaptCfg), Runs s → s.trig.event = some e → capturing s = some k →
    (e.crib = crib.val → e.settled = false → (cribOf crib.val s).state = 3 → e.settleAt ≤ s.tick →
      Machine.exec (.settleEnd crib) s = .next (endSettle crib.val e k s)) ∧
    (s.tick < e.settleAt ∨ (cribOf crib.val s).state ≠ 3 → Machine.exec (.settleEnd crib) s = .next s))

/-- CAPTURE_PACKET_SEND of a crib in READOUT sends its next packet by channel, captured slot and time, under the partition's epoch or the
one a STOP fixed, and the last one ends the readout (readDone); THROTTLE and the stopped state send none. CAPTURE_CONFIG_APPLY: the oldest
accepted configuration takes effect once no crib is SEALING, HELD or in READOUT. Every crib is cleared (its last event still shown), with
ENABLE = 1 a crib records where the partition runs (startCrib), and the descriptor that carried it completes; till then, or with none
accepted, nothing happens. -/
def Obligations.Capture : Prop :=
  (∀ (crib : Fin 4) (s : State) (k : CaptCfg), Runs s → capturing s = some k →
    let x := cribOf crib.val s
    let slots := x.slots.getD []
    let per := ceilDiv (x.spanLast + 1 - x.spanFirst).toNat x.pc
    let sent := setCrib crib.val { x with pos := x.pos + 1 } (sendProductAs (if x.frozen then x.epoch else roleEpoch k.part s) k.part 0x04 k.route
      (capturePacket x (k.chanFirst + x.pos / (slots.length * per)) (slots.getD (x.pos / per % slots.length) ⟨0, 0⟩) (x.pos % per)) s)
    (x.state = 4 → throttled s = false → s.sys.stopped = false → x.pos < x.packets →
      Machine.exec (.capturePacketSend crib) s =
        .next (if x.pos + 1 = x.packets then readDone crib.val k.part sent else sent)) ∧
    (throttled s = true ∨ s.sys.stopped = true → Machine.exec (.capturePacketSend crib) s = .next s)) ∧
  (∀ (s : State), Runs s →
    (s.trig.accepted = [] ∨ cribBusy s = true → Machine.exec .captureConfigApply s = .next s) ∧
    ∀ (tag : Nat) (k : CaptCfg) (rest : List (Nat × CaptCfg)) (d : Desc), s.trig.accepted = (tag, k) :: rest → cribBusy s = false →
    let x := partOf k.part s
    let s1 := { s with trig := { s.trig with accepted := rest, capt := if k.enable then some k else none, placedMax := 0,
                                             cribs := storeMap (fun _ => Crib.free) Crib.cleared s.trig.cribs } }
    let s2 := if k.enable = true ∧ x.started = true ∧ x.stopped = false then startCrib k none none s1 else s1
    (descOf tag s2 = some d → Machine.exec .captureConfigApply s = .next (complete d 0 0 0 s2)) ∧
    (descOf tag s2 = none → Machine.exec .captureConfigApply s = .next s2))

/-- The records a lane receives: on a level the unit is not on, and one with a reserved field set, nothing happens; one seen within the last
second is counted in BELL_DUP; and a fresh one is marked seen, queued for relay by a master, copied by a bridge (bridgeCopy) and used: a
FIRE and an ARM at the trigger, a ROLE against the known epoch (applyRole), a DEAD as BELL_UNIT_DEAD, a MSG by deliverMsg. A role record
(applyRole): below the known epoch it is dropped as stale, counted and reported; at the known epoch, naming another holder, it is a conflict
(roleConflict); otherwise it is kept, and each partition that holds the role is looked at (roleAt): one that is fence-pending reopens if the
record names this unit at the partition's own epoch and the partition itself, and is fenced if not; another is fenced by a higher epoch of
another holder. Then a unit it names takes the role (takeRole), and of role 0 another unit is trigger master no longer (loseMaster). -/
def Obligations.BellRecords : Prop :=
  (∀ (lane : Fin 4) (rec : List Byte) (s : State), Runs s → rec.length = 32 →
    ∀ row ∈ ([(.bellFireRecord lane rec, 1, fireRecord rec), (.bellArmRecord lane rec, 2, armRecord rec),
        (.bellRoleRecord lane rec, 3,
          applyRole (beAt rec 6 2) ⟨beAt rec 8 4, beAt rec 12 2 % 16384, bitOf (beAt rec 12 2) 15, beAt rec 14 1⟩),
        (.bellDeadRecord lane rec, 4, raise .bellUnitDead none (arg0 (beAt rec 6 2) 0 0) 0),
        (.bellMsgRecord lane rec, 5, deliverMsg rec)] : List (Instr × Nat × (State → State))),
      let level := lane.val / 2
      (onLevel level s = false ∨ recRsvdOk rec = false ∨ recType rec ≠ row.2.1 → Machine.exec row.1 s = .next s) ∧
      (onLevel level s = true → recRsvdOk rec = true → recType rec = row.2.1 →
        (recSeen rec s = true → Machine.exec row.1 s = .next (bump .bellDup 1 s)) ∧
        (recSeen rec s = false →
          let s1 := markSeen rec s
          Machine.exec row.1 s = .next (row.2.2 (bridgeCopy level rec (if isMaster level s1 then queueRec (2 + level) rec s1 else s1)))))) ∧
  (∀ (r : Nat) (x : RoleRec) (s : State),
    let mine := !x.vacant && x.holder = unitId s
    let kept := { s with bell := { s.bell with roles := storeSet (fun _ => none) s.bell.roles r (some x) } }
    let seen := (holdersOf r kept).foldl (fun s p => roleAt r x mine p s) kept
    (∀ k, roleKnown r s = some k → x.epoch < k.epoch →
      applyRole r x s = raise .bellStaleDrop none (arg0 r 0 0) 0 (bump .bellStale 1 s)) ∧
    (∀ k, roleKnown r s = some k → x.epoch = k.epoch → x.holder ≠ k.holder ∨ x.vacant ≠ k.vacant →
      applyRole r x s = roleConflict r x.epoch s) ∧
    ((∀ k, roleKnown r s = some k → k.epoch < x.epoch ∨ (k.epoch = x.epoch ∧ x.holder = k.holder ∧ x.vacant = k.vacant)) →
      (mine = true → applyRole r x s = takeRole r x.epoch (Fin.ofNat 8 x.part) seen) ∧
      (mine = false → r = 0 → applyRole r x s = loseMaster x.epoch seen) ∧
      (mine = false → r ≠ 0 → applyRole r x s = seen)) ∧
    (∀ (p : Fin 8) (u : State), let pending := bitOf (getF fBellFencePending .bellFence u) p.val
      (pending = true → (mine = true ∧ roleEpoch p u = x.epoch ∧ x.part = p.val) → roleAt r x mine p u = reopenPart p u) ∧
      (pending = true → ¬(mine = true ∧ roleEpoch p u = x.epoch ∧ x.part = p.val) → roleAt r x mine p u = fencePart p r x.epoch u) ∧
      (pending = false → (mine = false ∧ roleEpoch p u < x.epoch) → roleAt r x mine p u = fencePart p r x.epoch u) ∧
      (pending = false → ¬(mine = false ∧ roleEpoch p u < x.epoch) → roleAt r x mine p u = u)))

/-- BELL_HEADER_RECEIVE and BELL_CLAIM_RECEIVE: the symbols of a lane give the bytes after a start marker (lineReceive); with none, or on a
level the unit is not on, that is all. The arrival is stamped on the lane's TDC channel. A header too short or with a wrong CRC is counted,
passed on by a unit that is no master, and a collision to a claimant (claimCollision); a good CLAIM is ranked (bellClaim); a good FRAME
header restarts the watch for silence, returns to the master that launched it (masterHeader), and elsewhere is used and relaunched
(memberHeader). -/
def Obligations.BellHeaders : Prop :=
  ∀ (lane : Fin 4) (line : List Nat) (arrival sent : RawStamp) (s : State), Runs s →
    ∀ c ∈ [Instr.bellHeaderReceive lane line arrival sent, Instr.bellClaimReceive lane line arrival sent],
    let k := lane.val / 2
    let u := (lineReceive (64 + lane.val) line s).2
    let s1 := tdcEdge (6 + lane.val) arrival (bellFrame lane.val u)
    ((lineReceive (64 + lane.val) line s).1 = none ∨ onLevel k u = false → Machine.exec c s = .next u) ∧
    (∀ bytes, (lineReceive (64 + lane.val) line s).1 = some bytes → onLevel k u = true →
      let bad := bytes.length < 52 ∨ crcGood bytes = false
      let typ := beAt bytes 0 1 / 16
      let s2 := noteArrival lane.val (beAt bytes 8 5) (beAt bytes 38 2 % 16384) arrival s1
      (bad → Machine.exec c s =
        (let b := bellLaneFail lane.val (bump (.bellCrcErr lane) 1 s1)
         .next (showBell (claimCollision k (if isMaster k b then b else bellSend (onward lane.val) none bytes b))))) ∧
      (¬bad → typ = 2 → Machine.exec c s = .next (showBell (bellClaim lane.val bytes arrival sent s2))) ∧
      (¬bad → typ ≠ 2 → typ ≠ 1 → Machine.exec c s = .next s2) ∧
      (¬bad → typ = 1 →
        let s3 := { rejoin s2 with bell := { (rejoin s2).bell with lastValid := (rejoin s2).tick, isolatedAt := none } }
        Machine.exec c s =
          .next (showBell (if isMaster k s3 = true ∧ beAt bytes 2 2 % 16384 = unitId s3 then masterHeader lane.val s3
            else memberHeader lane.val bytes arrival sent s3))))

/-- A CLAIM (bellClaim) with this unit's ID that this unit did not launch is an ID conflict (idConflict), and a claimant then claims no
more. A claimant counts the return of its own (claimReturn: the third of consecutive frames in one direction makes it master, with
BELL_MASTER_CHANGE), forwards only one that ranks before its own and gives up, and drops the others; a master that is no bridge forwards a
bridge's and gives up, and drops the others; any other unit forwards it (passHeader). BELL_FRAME_LAUNCH on a level of the unit: the
configuration that waited for the frame applies; a master then takes its relay records and sends its header both ways, stamps the launches,
and sends its slot body; a claimant sends its CLAIM both ways, noted and stamped, and no slot body; any other unit sends its slot body
(sendSlot). BELL_SLOT_RECEIVE of symbols with a start marker, on a level of the unit, of another unit's good body marks that member heard
with its heartbeat and slot, measures the link, and passes the body on, unless this unit masters the level or the slot is its own and it may
speak; a wrong CRC is counted. -/
def Obligations.BellClaims : Prop :=
  (∀ (lane : Fin 4) (bs : List Byte) (arrival sent : RawStamp) (s : State),
    let k := lane.val / 2
    let r := ringSt k s
    let mine := beAt bs 2 2 % 16384 = unitId s
    let strange := mine ∧ headerMark bs ∉ r.claims
    let yield := onRing k (fun r => { r with state := 0, returns := [(0, 0), (0, 0)] }) s
    let pass := fun s => passHeader lane.val bs arrival sent s
    let is := fun t => bellClaim lane.val bs arrival sent s = t
    (strange → is (idConflict (if r.state = 1 then yield else s))) ∧
    (¬strange → r.state = 4 → ¬mine → claimKey bs < 16384 → claimPrio s = 1 →
      is (pass (onRing k (fun r => { r with state := 0, missing := [3, 3] }) s))) ∧
    (¬strange → r.state = 4 → mine ∨ 16384 ≤ claimKey bs ∨ claimPrio s ≠ 1 → is s) ∧
    (¬strange → r.state = 1 → mine → is (claimReturn k (dirOf lane.val) (beAt bs 8 5) s)) ∧
    (¬strange → r.state = 1 → ¬mine → claimKey bs < ownKey s → is (pass yield)) ∧
    (¬strange → r.state = 1 → ¬mine → ownKey s ≤ claimKey bs → is s) ∧
    (¬strange → r.state ≠ 1 → r.state ≠ 4 → is (pass s)) ∧
    ∀ (d frame : Nat), let x := r.returns.getD d (0, 0)
      (2 ≤ x.2 → frame = (x.1 + 1) % 2 ^ 40 →
        let t := onRing k (fun r => { r with state := 4, masterId := unitId s, returns := [(0, 0), (0, 0)], missing := [0, 0],
                                             held := none, silent := false }) s
        claimReturn k d frame s = raise .bellMasterChange none (arg0 (unitId s) k 0) 0
          { t with bell := { t.bell with margins := (t.bell.margins.set (2 * k) 10000).set (2 * k + 1) 10000 } }) ∧
      (x.2 < 2 ∨ frame ≠ (x.1 + 1) % 2 ^ 40 → 
        let n := if 0 < x.2 ∧ frame = (x.1 + 1) % 2 ^ 40 then x.2 + 1 else 1
        claimReturn k d frame s = onRing k (fun r => { r with returns := r.returns.set d (frame, n) }) s)) ∧
  (∀ (ring : BellRing) (sent : RawStamp) (lane : Fin 4) (slot : Fin 128) (line : List Nat) (s : State), Runs s →
    let k := ringNo ring
    let s1 := applyBellCfg s
    let stamp := fun (s : State) => noteSend (2 * k) (frameNow s) (rawValue s.time.bins sent)
      (noteSend (2 * k + 1) (frameNow s) (rawValue s.time.bins sent) (tdcEdge (10 + 2 * k) sent (tdcEdge (11 + 2 * k) sent s)))
    (onLevel k s = false → Machine.exec (.bellFrameLaunch ring sent) s = .next s) ∧
    (onLevel k s = true → (ringSt k s).state ≠ 4 → (ringSt k s).state ≠ 1 →
      Machine.exec (.bellFrameLaunch ring sent) s = .next (showBell (sendSlot k s1))) ∧
    (onLevel k s = true → (ringSt k s).state = 1 →
      let h := ownHeader 2 k 0 [] s1
      let s2 := onRing k (fun r => { r with claims := (headerMark h :: r.claims).take 16 }) s1
      Machine.exec (.bellFrameLaunch ring sent) s = .next (showBell (stamp
        (bellSend (2 * k) none (ownHeader 2 k 1 [] s2) (bellSend (2 * k + 1) none h s2))))) ∧
    (onLevel k s = true → (ringSt k s).state = 4 →
      let r := takeRecs (2 + k) 64 (masterBreak k s1)
      Machine.exec (.bellFrameLaunch ring sent) s = .next (showBell (sendSlot k (stamp
        (bellSend (2 * k) none (ownHeader 1 k 1 r.1 r.2) (bellSend (2 * k + 1) none (ownHeader 1 k 0 r.1 r.2) r.2)))))) ∧
    (let l := lane.val / 2
     let u := (lineReceive (64 + lane.val) line s).2
     let pass := fun bs (s : State) => if isMaster l s || (slot.val = ownSlot l s && !s.bell.muted) then s
       else bellSend (onward lane.val) (some slot.val) bs s
     ((lineReceive (64 + lane.val) line s).1 = none ∨ onLevel l u = false → Machine.exec (.bellSlotReceive lane slot line) s = .next u) ∧
     ∀ bs, (lineReceive (64 + lane.val) line s).1 = some bs → onLevel l u = true →
      (bs.length < 28 ∨ crcGood bs = false → Machine.exec (.bellSlotReceive lane slot line) s =
        .next (pass bs (bellLaneFail lane.val (bump (.bellCrcErr lane) 1 u)))) ∧
      (28 ≤ bs.length → crcGood bs = true → beAt bs 0 2 % 16384 ≠ unitId u →
        let m := memberKey l (beAt bs 0 2 % 16384)
        Machine.exec (.bellSlotReceive lane slot line) s = .next (pass bs (measureLink lane.val bs { u with bell := { u.bell with
          members := storeSet (fun _ => none) u.bell.members m (some (beAt bs 4 4, slot.val)), dead := u.bell.dead.filter (· ≠ m) } })))))

/-- The Bell timers: silence on a level of the unit on which neither a claim nor a wait runs makes it ISOLATED, and an eligible unit begins
its back-off (beginBackoff); it counts as isolated from when every level of it is silent. The end of a back-off begins a claim. A master
that misses a member declares it dead once and sends a DEAD record. ISOLATE_FENCE fences every partition with a role. An authority resends
every role it has assigned. BELL_CFG_WRITE while a Bell lane is enabled or not yet DOWN leaves UNIT_ID, RATE, BRIDGE and MASTER_ELIG, and
raises BELL_CFG_REFUSED when the write would change one of them; with every Bell lane disabled they are stored and apply at once. Its other
fields are stored either way. -/
def Obligations.BellTimers : Prop :=
  (∀ (ring : BellRing) (u : BitVec 14) (s : State), Runs s →
    let k := ringNo ring
    (onLevel k s = true → (ringSt k s).state ≠ 1 → (ringSt k s).state ≠ 2 →
      let t := onRing k (fun r => { r with state := 0, missing := [3, 3], silent := true }) (useHeld k s)
      let v := if (ringSt 0 t).silent && (!isBridge t || (ringSt 1 t).silent)
        then { t with bell := { t.bell with isolatedAt := some (t.bell.isolatedAt.getD t.tick) } } else t
      Machine.exec (.bellSilenceTimeout ring) s = .next (showBell (beginBackoff k v))) ∧
    (onLevel k s = false ∨ (ringSt k s).state = 1 ∨ (ringSt k s).state = 2 →
      Machine.exec (.bellSilenceTimeout ring) s = .next (showBell s)) ∧
    ((ringSt k s).state ≠ 2 → Machine.exec (.bellBackoffEnd ring) s = .next (showBell s)) ∧
    ((ringSt k s).state = 2 → (ringSt k s).collided = true → Machine.exec (.bellBackoffEnd ring) s =
      .next (showBell (onRing k (fun r => { r with state := 0, collided := false }) s))) ∧
    ((ringSt k s).state = 2 → (ringSt k s).collided = false → Machine.exec (.bellBackoffEnd ring) s =
      .next (showBell (onRing k (fun r => { r with state := 1, returns := [(0, 0), (0, 0)] }) s))) ∧
    (∀ hb slot, storeGet (fun _ => none) s.bell.members (memberKey k u.toNat) = some (hb, slot) → isMaster k s = true →
      memberKey k u.toNat ∉ s.bell.dead → Machine.exec (.bellDeadTimeout ring u) s =
        .next (originate 4 (beBytes 2 u.toNat ++ beBytes 4 hb ++ beBytes 5 (frameNow s) ++ beBytes 15 0)
          { s with bell := { s.bell with dead := memberKey k u.toNat :: s.bell.dead } })) ∧
    (isMaster k s = false → Machine.exec (.bellDeadTimeout ring u) s = .next s) ∧
    (fld fBellCfgIsolateFence s.bell.eff = 1 → s.bell.isolatedAt.isSome → Machine.exec .isolateFenceTimeout s =
      .next ((List.finRange 8).foldl (fun s p => if holdsRole p s then fencePart p (roleIdOf p s) (roleEpoch p s) s else s) s)) ∧
    (fld fBellCfgIsolateFence s.bell.eff ≠ 1 ∨ s.bell.isolatedAt = none → Machine.exec .isolateFenceTimeout s = .next s) ∧
    (fld fBellCfgAuth s.bell.eff = 1 → Machine.exec .roleBeaconTimer s =
      .next (s.bell.assigned.foldl (fun s a => originate 3 (roleBody a.1 a.2) s) s)) ∧
    (fld fBellCfgAuth s.bell.eff ≠ 1 → Machine.exec .roleBeaconTimer s = .next s)) ∧
  (∀ (m : Master) (value : BitVec 48) (s : State), Accepts m s → StateInv s → (accessed m s).bell.idConflict = false →
    let s0 := accessed m s
    let off := (List.range 4).all fun l => !bitOf (getF fLaneBellCfgEn .laneBellCfg s0) l && laneState (64 + l) s0 = 0
    let ident := fun (w : Payload) => [fld fBellCfgUnitId w, fld fBellCfgRate w, fld fBellCfgBridge w, fld fBellCfgMasterElig w]
    ∃ t, Machine.exec (.bellCfgWrite m value) s = .next t ∧
      fld fBellCfgAuth (regOf .bellCfg t) = fld fBellCfgAuth value ∧ fld fBellCfgIsolateFence (regOf .bellCfg t) = fld fBellCfgIsolateFence value ∧
      fld fBellCfgDeadFrames (regOf .bellCfg t) = max 1 (fld fBellCfgDeadFrames value) ∧
      fld fBellCfgTauLog2 (regOf .bellCfg t) = max 6 (fld fBellCfgTauLog2 value) ∧
      (off = true → ident (regOf .bellCfg t) = ident value ∧ t.bell.eff = withIdentity value s0.bell.eff) ∧
      (off = false → ident (regOf .bellCfg t) = ident (regOf .bellCfg s0) ∧ t.bell.eff = s0.bell.eff ∧
        ∃ w, (ident value = ident (regOf .bellCfg s0) → t = setReg .bellCfg w s0) ∧
          (ident value ≠ ident (regOf .bellCfg s0) → t = raise .bellCfgRefused none 0 0 (setReg .bellCfg w s0))))

/-- A lane in use is brought up in steps: DOWN sends NEG at the lowest rate; marker lock takes DOWN to NEG and STEP to TRAIN; a NEG frame is
answered, and with eight matching ones both ways the ends agree, and the sixty-fourth from then switches to STEP at the agreed rate; a TRAIN
frame's requests move the taps within their ranges and are answered, and sixty-four TRAIN frames in a row with both ends READY reach ACTIVE,
or SLEEP while a direction sleeps; a time limit falls back: NEG and STEP to DOWN, and TRAIN of a data lane to STEP one rate lower, or to
DOWN from the lowest or on a Bell lane. A lane not in use, or in another state, is left as it is. What entering a lane state does: the new
STATE stands; a lane that was not ACTIVE raises LANE_UP on entry to ACTIVE, and one that was not DOWN raises LANE_DOWN on entry to DOWN; a
Bell lane that is not ACTIVE carries no valid frames (bellLaneStops). -/
def Obligations.LaneBringUp : Prop :=
  (∀ (lane : Lane) (f : NegFrame) (t : TrainFrame) (s : State), Runs s →
    let n := laneNo lane
    let x := laneOf n s
    let st := laneState n s
    let used := laneUsed n s = true
    (used → st = 0 → Machine.exec (.laneNegTimer lane) s = .next (sendNeg n (setRate n 0 s))) ∧
    (used → st = 0 → Machine.exec (.laneMarkerLock lane) s =
      .next (laneEnter n 1 (onLane n (fun x => { x with negSent := 0, negGot := 0, negAfter := 0, partner := none }) s))) ∧
    (used → st = 2 → Machine.exec (.laneMarkerLock lane) s =
      .next (laneEnter n 3 (onLane n (fun x => { x with readyRun := 0, taps := [0, 4, 8] }) s))) ∧
    (used → st = 1 →
      let same := x.partner = some f ∧ (agreedRate n f s).isSome
      let got := if same then x.negGot + 1 else if (agreedRate n f s).isSome then 1 else 0
      let after := if 8 ≤ got ∧ 8 ≤ x.negSent + 1 then x.negAfter + 1 else 0
      let s1 := sendNeg n (onLane n (fun x => { x with negSent := x.negSent + 1, negGot := got, negAfter := after,
                                                       partner := some f, target := (agreedRate n f s).getD 0 }) s)
      Machine.exec (.virosNegFrame lane f) s = .next (if 64 ≤ after then laneEnter n 2 (setRate n (laneOf n s1).target s1) else s1)) ∧
    (used → st = 3 →
      let taps := if t.preset then [0, 4, 8] else x.taps
      let a := tapStep (if n < 64 ∧ 6 ≤ laneRate n s then 6 else 0) (taps.getD 0 0) t.pre2
      let b := tapStep 16 (taps.getD 1 0) t.pre1
      let c := tapStep 24 (taps.getD 2 0) t.post
      let run := if t.ready = true ∧ t.ownReady = true then x.readyRun + 1 else 0
      let req := fun r : TapRequest => match r with | .hold => 0 | .inc => 1 | .dec => 2
      let body := beBytes 1 (req t.ownPre2 * 16 + req t.ownPre1 * 4 + req t.ownPost) ++
        beBytes 1 ((if t.ownPreset then 2 else 0) + (if t.ownReady then 1 else 0)) ++ beBytes 1 (a.2 * 16 + b.2 * 4 + c.2)
      let s1 := linkSend n 1 (linkFrame 3 0 0 false false false body)
        (onLane n (fun x => { x with taps := [a.1, b.1, c.1], readyRun := run }) s)
      let sleeps := (laneOf n s1).asleep.tx = true ∨ (laneOf n s1).asleep.rx = true
      Machine.exec (.virosTrainFrame lane t) s = .next (if 64 ≤ run then laneEnter n (if sleeps then 5 else 4) s1 else s1)) ∧
    (used → st = 1 ∨ st = 2 → Machine.exec (.laneStateTimeout lane) s = .next (laneEnter n 0 (setRate n 0 s))) ∧
    (used → st = 3 → n < 64 → 0 < laneRate n s → Machine.exec (.laneStateTimeout lane) s =
      .next (laneEnter n 2 (setRate n (laneRate n s - 1) s))) ∧
    (used → st = 3 → 64 ≤ n ∨ laneRate n s = 0 → Machine.exec (.laneStateTimeout lane) s = .next (laneEnter n 0 (setRate n 0 s))) ∧
    (¬used ∨ st ≠ 0 → Machine.exec (.laneNegTimer lane) s = .next s) ∧
    (¬used ∨ (st ≠ 0 ∧ st ≠ 2) → Machine.exec (.laneMarkerLock lane) s = .next s) ∧
    (¬used ∨ st ≠ 1 → Machine.exec (.virosNegFrame lane f) s = .next s) ∧
    (¬used ∨ st ≠ 3 → Machine.exec (.virosTrainFrame lane t) s = .next s) ∧
    (¬used ∨ (st ≠ 1 ∧ st ≠ 2 ∧ st ≠ 3) → Machine.exec (.laneStateTimeout lane) s = .next s)) ∧
  (∀ (n st : Nat) (s : State), StateInv s → st < 8 →
    let s1 := setF fLaneStatusState (laneReg n) st s
    let s2 := if 64 ≤ n ∧ st ≠ 4 then bellLaneStops (n - 64) s1 else s1
    let who := arg0 (n % 64) (if n < 64 then n / 8 else 8) 0
    laneState n s1 = st ∧
    (laneState n s ≠ 4 → st = 4 → laneEnter n st s = raise .laneUp none who 0 s2) ∧
    (laneState n s ≠ 0 → st = 0 → laneEnter n st s = raise .laneDown none who 0 s2) ∧
    (laneState n s = st ∨ (st ≠ 0 ∧ st ≠ 4) → laneEnter n st s = s2))

/-- A group configuration that groupRefused names (a reserved mode or interface, GMODE 3 on another interface than C2M, a Viros lane count
outside 1 to 8) is refused with LANE_CFG_REFUSED; any other is stored, and its lanes go DOWN, with LANE_DOWN for the group. LANE_CFG_WRITE:
bits 15 to 3 are stored, but for TX_SLEEP, RX_SLEEP and EIDLE of a lane whose partner supports no low power, where a request raises
LANE_CFG_REFUSED; a loopback puts the lane in LOOP; a lane that leaves one is ACTIVE where its Ethernet port is up, and begins from DOWN
elsewhere; and low-power states no longer asked for are left (exitLowPower), those asked for wait for the replay buffer (settleLowPower).
LANE_BELL_CFG_WRITE: the enables are stored, and a lane whose enable is clear goes DOWN. -/
def Obligations.LaneConfiguration : Prop :=
  (∀ (m : Master) (g : Fin 8) (value : BitVec 48) (s : State), Accepts m s →
    let s0 := accessed m s
    (groupRefused value = true → Machine.exec (.laneGroupCfgWrite m g value) s =
      .next (raise .laneCfgRefused none (arg0 (8 * g.val) g.val 0) 0 s0)) ∧
    (groupRefused value = false → StateInv s0 → ∃ t, Machine.exec (.laneGroupCfgWrite m g value) s =
        .next (raise .laneDown none (arg0 (8 * g.val) g.val 0) 0 t) ∧
      regOf (.laneGroupCfg g) t = value &&& 0x1FF ∧ (∀ l : Fin 64, l.val / 8 = g.val → laneState l.val t = 0) ∧
      t = { s0 with regs := t.regs, lanes := t.lanes, out := t.out, egr := { s0.egr with short := s0.egr.short.filter (· ≠ g.val) } })) ∧
  (∀ (m : Master) (l : Fin 64) (value : BitVec 48) (s : State), Accepts m s →
    let n := l.val
    let s0 := accessed m s
    let ok := lowPowerOk n s0
    let asks := fld fLaneCfgTxSleep value = 1 ∨ fld fLaneCfgRxSleep value = 1 ∨ fld fLaneCfgEidle value = 1
    let old := regOf (.laneCfg l) s0
    let w := if ok = true then value &&& 0xFFF8
      else setFld fLaneCfgTxSleep (fld fLaneCfgTxSleep old) (setFld fLaneCfgRxSleep (fld fLaneCfgRxSleep old)
        (setFld fLaneCfgEidle (fld fLaneCfgEidle old) (value &&& 0xFFF8)))
    let s1 := setReg (.laneCfg l) w s0
    let s2 := if asks ∧ ok = false then raise .laneCfgRefused none (arg0 n (n / 8) 0) 0 s1 else s1
    let is := fun t => Machine.exec (.laneCfgWrite m l value) s = .next t
    (fld fLaneCfgLoop w ≠ 0 → is (setF fLaneStatusState (.laneStatus l) 7 s2)) ∧
    (fld fLaneCfgLoop w = 0 → laneState n s2 = 7 → (portOf (n / 8) s2).ethUp = true → is (setF fLaneStatusState (.laneStatus l) 4 s2)) ∧
    (fld fLaneCfgLoop w = 0 → laneState n s2 = 7 → (portOf (n / 8) s2).ethUp = false → is (laneEnter n 0 s2)) ∧
    (fld fLaneCfgLoop w = 0 → laneState n s2 ≠ 7 → ok = false → is s2) ∧
    (fld fLaneCfgLoop w = 0 → laneState n s2 ≠ 7 → ok = true →
      let keep : LowPower := ⟨fld fLaneCfgTxSleep value = 1, fld fLaneCfgRxSleep value = 1, fld fLaneCfgEidle value = 1⟩
      is (settleLowPower (n / 8) (onLane n (fun x => { x with
        wants := ⟨keep.tx && !x.asleep.tx, keep.rx && !x.asleep.rx, keep.eidle && !x.asleep.eidle⟩ }) (exitLowPower n keep s2)))) ∧
    Machine.exec (.laneBellCfgWrite m value) s = .next ((List.range 4).foldl
      (fun s k => if bitOf (fld fLaneBellCfgEn value) k then s else laneEnter (64 + k) 0 (onLane (64 + k) (fun _ => LaneSt.idle) s))
      (setF fLaneBellCfgEn .laneBellCfg (fld fLaneBellCfgEn value) s0)))

/-- A lane's symbols give the bytes after a start marker (lineReceive); with none, that is all. On an ACTIVE lane of a Viros port a frame
whose CRC-32C fails is counted and answered with a NAK (linkCrcFail). Of a DATA frame the acknowledgement is taken first; in order, its
payload is delivered (joinPayload); out of order, it is answered with one NAK until a frame in order comes. Of a CTRL frame the
acknowledgement is taken, then its low-power request (partnerLowPower). The replay timer of the port and one of its lanes sends what is
unacknowledged again, and beyond 64 replays of that lane within 1 ms retrains it; the idle timer of a Viros port sends ACK_SEQ. -/
def Obligations.VirosFrames : Prop :=
  ∀ (l : Fin 64) (line : List Nat) (full : Bool) (q : LowPowerRequest) (s : State), Runs s →
    let g := l.val / 8
    let u := (lineReceive l.val line s).2
    let data := fun t => Machine.exec (.virosDataFrame l line full) s = .next t
    let ctrl := fun t => Machine.exec (.virosCtrlFrame l line q) s = .next t
    ((lineReceive l.val line s).1 = none ∨ isViros l.val u = false ∨ laneState l.val u < 4 ∨ laneState l.val u = 7 → data u ∧ ctrl u) ∧
    (∀ bytes, (lineReceive l.val line s).1 = some bytes → isViros l.val u = true → laneState l.val u = 4 →
      (linkHeader bytes = none → data (linkCrcFail l.val bytes u) ∧ ctrl (linkCrcFail l.val bytes u)) ∧
      (∀ h, linkHeader bytes = some h →
        let s1 := takeAck g l.val (bitsOf h 47 36) (bitOf h 35) u
        let inOrder := bitsOf h 59 48 = ((portOf g s1).lastGot + 1) % 4096
        (bitsOf h 63 60 = 1 → inOrder → data (joinPayload g (bitOf h 34) (bitOf h 33) full ((bytes.drop 8).take (bytes.length - 12))
          (onPort g (fun p => { p with lastGot := bitsOf h 59 48, naking := false }) s1))) ∧
        (bitsOf h 63 60 = 1 → ¬inOrder → (portOf g s1).naking = false →
          data (sendCtrl g true (onPort g (fun p => { p with naking := true }) s1))) ∧
        (bitsOf h 63 60 = 1 → ¬inOrder → (portOf g s1).naking = true → data s1) ∧
        (bitsOf h 63 60 ≠ 1 → data u) ∧
        (bitsOf h 63 60 = 2 → ctrl (partnerLowPower l.val q s1)) ∧
        (bitsOf h 63 60 ≠ 2 → ctrl u))) ∧
    (∀ g' : Fin 8, g'.val = g → isViros l.val s = true → (portOf g s).unacked ≠ [] →
      let recent := s.tick :: (laneOf l.val s).replays.filter fun t => s.tick < t + 400000
      let s2 := onLane l.val (fun x => { x with replays := recent })
        ((portOf g s).unacked.foldl (fun s f => sendLink g f s) (bump (.laneReplay l) 1 s))
      Machine.exec (.virosReplayTimeout g' l) s = .next (if 64 < recent.length then retrainLane l.val s2 else s2)) ∧
    (∀ g' : Fin 8, g'.val ≠ g ∨ isViros l.val s = false ∨ (portOf g'.val s).unacked = [] →
      Machine.exec (.virosReplayTimeout g' l) s = .next s) ∧
    (∀ g' : Fin 8, gmode g'.val s = 6 → Machine.exec (.virosIdleTimer g') s = .next (sendCtrl g'.val false s)) ∧
    (∀ g' : Fin 8, gmode g'.val s ≠ 6 → Machine.exec (.virosIdleTimer g') s = .next s)

/-- ETH_LINK_UP of a port in an Ethernet mode that is not up, and no STANDBY: it is up with the FEC that its mode gives or, at 100GbE on CR
and KR, the partner agreed, its lanes go ACTIVE (ethLanes), and LANE_UP is raised. ETH_LINK_LOSS of one that is up: each of its lanes counts
a retraining; its lanes train, or wait for the module on C2M; it advertises its mode again (advertise); and LANE_RETRAIN is raised.
Otherwise nothing happens. -/
def Obligations.EthernetLink : Prop :=
  ∀ (g : Fin 8) (rsFec : Bool) (s : State), Runs s →
    let mode := gmode g.val s
    let eth := mode ≠ 0 ∧ mode < 6
    let up := (portOf g.val s).ethUp
    (eth → up = false → s.sys.standby = false → s.sys.exiting = false → Machine.exec (.ethLinkUp g rsFec) s =
      (let fec : Bool := mode ≠ 1 || portIface g.val s = 0 || rsFec
       let s1 := ethLanes g.val 4 (onPort g.val (fun p => { p with ethUp := true, fec := fec }) s)
       .next (raise .laneUp none (arg0 (8 * g.val) g.val 0) 0
         { s1 with egr := { s1.egr with short := s1.egr.short.filter (· ≠ g.val) } }))) ∧
    (¬eth ∨ up = true ∨ s.sys.standby = true ∨ s.sys.exiting = true → Machine.exec (.ethLinkUp g rsFec) s = .next s) ∧
    (eth → up = true → Machine.exec (.ethLinkLoss g) s =
      (let s1 := (portLanes g.val s).foldl (fun s n => bump (.laneRetrain (Fin.ofNat 64 n)) 1 s) s
       let auto := portIface g.val s ≠ 0
       .next (raise .laneRetrain none (arg0 (8 * g.val) g.val 0) 0 (advertise g.val
         (ethLanes g.val (if auto then 3 else 0) (onPort g.val (fun p => { p with ethUp := false, fecRecent := [] }) s1)))))) ∧
    (¬eth ∨ up = false → Machine.exec (.ethLinkLoss g) s = .next s)

/-- MEM_LAYOUT_WRITE with no partition started, capture ENABLE 0 and sizes that fit is applied: MEM_LAYOUT is stored, what the regions held
is discarded (discardRegions), and the failed pseudo-channels are retired. With a partition started, with capture enabled or with sizes that
do not fit it is not applied: the register keeps its value and MEM_LAYOUT_REFUSED is raised. MEM_ALLOT_WRITE: a RATE or BURST written as 0
is stored as 1; a RATE that is not raised is always admitted; one that would take the admitted load beyond the guaranteed budget is not
applied and raises MEM_ALLOT_REFUSED. -/
def Obligations.MemConfiguration : Prop :=
  (∀ (m : Master) (v : Payload) (s : State), Accepts m s →
    let a := accessed m s
    let fits := layoutOk v (128 - (failedPcs a).length)
    ((∀ p, (partOf p a).started = false) → a.trig.capt = none → fits = true →
      Machine.exec (.memLayoutWrite m v) s = .next (raise .memLayoutApplied none 0 0
        (let t := discardRegions (setReg .memLayout (v &&& Reg.memLayout.rwMask) a)
         { t with hbm := { t.hbm with retired := failedPcs t, relayout := false } }))) ∧
    ((∃ p, (partOf p a).started = true) ∨ a.trig.capt ≠ none ∨ fits = false →
      Machine.exec (.memLayoutWrite m v) s = .next (raise .memLayoutRefused none 0 0 a)) ∧
    (let t := discardRegions a
     t.granary = [] ∧ t.chans = [] ∧ t.scratch = [] ∧ t.det.chains = [] ∧ t.regs = a.regs ∧ t.hostMem = a.hostMem ∧ t.hif = a.hif)) ∧
  (∀ (m : Master) (k : Fin 3) (v : Payload) (s : State), Accepts m s →
    let a := accessed m s
    let rate := max 1 (fld fMemAllotRate v)
    let burst := max 1 (fld fMemAllotBurst v)
    let old := getF fMemAllotRate (.memAllot k) a
    let l := planNow a
    (rate ≤ old ∨ ({ l with rates := l.rates - old + rate } : Plan).hbm a ≤ budget a →
      Machine.exec (.memAllotWrite m k v) s =
        .next (setReg (.memAllot k) (setFld fMemAllotBurst burst (setFld fMemAllotRate rate 0)) a)) ∧
    (old < rate → budget a < ({ l with rates := l.rates - old + rate } : Plan).hbm a →
      Machine.exec (.memAllotWrite m k v) s = .next (raise .memAllotRefused none (arg0 k.val 0 0) 0 a)))

/-- HBM_ACCESS of a 32 B burst. One that waits in its controller's queue and that the controller may serve (serveNext) leaves it, its row
stands open, the bus counts it, and it is performed (burstDone); one that may not be served yet waits; one that no grant brought is
performed at once (the model's choice, log 140). Performed, a clean read of a burst not poisoned, and a clean write of one that never
failed, change nothing; one symbol in error is corrected, counted and tracked; two are uncorrectable, as a poisoned burst is: counted,
reported by MEM_UE with the pseudo-channel, the structure and the address, poisoned, and its consumer reacts (poisonReact). A quarantined
pseudo-channel discards writes. A pseudo-channel that fails is marked in MEM_PC_STATUS_s, sets RELAYOUT_PENDING, is recorded in the Ledger
and raises MEM_PC_FAILED; one that has failed already does not fail again. REFRESH_DUE of memory that is powered and not in STANDBY: while a
level-15 transaction waits for the pseudo-channel the refresh is put off, up to eight times, and the ninth is issued; with none waiting it
is issued with all that were put off; an issued refresh closes every open row; a retraining that fails makes the pseudo-channel fail.
SCRUB_READ: clean bursts are read in rising order; a retired pseudo-channel and STANDBY stop the scrubber. -/
def Obligations.HbmTraffic : Prop :=
  (∀ (a : HbmBurst) (s : State), Runs s → burstOk a.addr = true →
    let pc := a.pc.val
    let key := burstKey pc a.addr
    let waits := (ctlQueue pc s).find? fun r => r.addr = a.addr && r.write = a.write
    (∀ r, waits = some r → r ∈ serveNext pc s → Machine.exec (.hbmAccess a) s =
      .next (burstDone a (refreshFree pc (busServe pc r.write (openRow pc r.addr (setCtlQueue pc ((ctlQueue pc s).erase r) s)))))) ∧
    (∀ r, waits = some r → r ∉ serveNext pc s → Machine.exec (.hbmAccess a) s = .next s) ∧
    (waits = none → Machine.exec (.hbmAccess a) s = .next (burstDone a s)) ∧
    (pcFailed pc s = true → a.write = true → burstDone a s = s) ∧
    (pcFailed pc s = false → a.write = false → a.err = .symbols [] → key ∉ s.hbm.poisoned → burstDone a s = s) ∧
    (∀ k, pcFailed pc s = false → a.write = false → a.err = .symbols [k] → key ∉ s.hbm.poisoned →
      burstDone a s = correctedError pc a.addr s) ∧
    (∀ bad : List (Fin 36), pcFailed pc s = false → a.write = false → a.err = .symbols bad →
      key ∈ s.hbm.poisoned ∨ bad.dedup.length = 2 → storeGet (fun _ => 0) s.hbm.ueAt key ≠ 2 →
      burstDone a s = poisonReact pc a.addr a.target
        (let t := raise .memUe none (pc + structNo a.target * 65536) a.addr (bump (.memUe (stackOf pc)) 1 s)
         { t with hbm := { t.hbm with ueAt := storeSet (fun _ => 0) t.hbm.ueAt key 1,
                                      poisoned := if key ∈ t.hbm.poisoned then t.hbm.poisoned else t.hbm.poisoned ++ [key] } })) ∧
    (∀ bad, pcFailed pc s = false → a.write = true → a.err = .symbols bad → key ∉ s.hbm.poisoned →
      (storeGet (fun _ => 0) s.hbm.ueAt key = 1 →
        burstDone a s = { s with hbm := { s.hbm with ueAt := storeSet (fun _ => 0) s.hbm.ueAt key 2 } }) ∧
      (storeGet (fun _ => 0) s.hbm.ueAt key ≠ 1 → burstDone a s = s))) ∧
  (∀ (pc : Fin 128) (s : State), StateInv s →
    (pcFailed pc.val s = true → failPc pc.val s = s) ∧
    (pcFailed pc.val s = false →
      (∃ t, failPc pc.val s = raise .memPcFailed none (arg0 pc.val (stackOf pc.val).val 0) 0 t ∧ t.hbm.relayout = true ∧
        t.hostMem = s.hostMem ∧ t.parts = s.parts ∧ pcFailed pc.val t = true) ∧
      pcFailed pc.val (markPc pc.val s) = true)) ∧
  (∀ (pc : Fin 128) (newer : Bool) (e : HbmError) (t : HbmTarget) (s : State), Runs s →
    let h := s.hbm
    let owed := storeGet (fun _ => 0) h.postponed pc.val
    let done := storeGet (fun _ => 0) h.refreshed pc.val
    let put := fun n (h : Hbm) => { h with postponed := storeSet (fun _ => 0) h.postponed pc.val n }
    let issue := fun n (h : Hbm) => { h with refreshed := storeSet (fun _ => 0) h.refreshed pc.val (done + n),
                                             rows := storeSet (fun _ => []) h.rows pc.val [] }
    let is := fun h' : Hbm => ∀ trained, Machine.exec (.refreshDue pc trained) s =
      .next (if trained = some false then failPc pc.val { s with hbm := h' } else { s with hbm := h' })
    let at_ := storeGet (fun _ => 0) h.scrubAt pc.val
    (s.sys.standby = true ∨ h.powered = false → is h) ∧
    (s.sys.standby = false → h.powered = true → level15Waits pc.val s = true → owed < 8 → is (put (owed + 1) h)) ∧
    (s.sys.standby = false → h.powered = true → level15Waits pc.val s = true → 8 ≤ owed → is (issue 1 h)) ∧
    (s.sys.standby = false → h.powered = true → level15Waits pc.val s = false → is (issue (owed + 1) (put 0 h))) ∧
    (pc.val ∈ h.retired ∨ s.sys.standby = true → Machine.exec (.scrubRead pc e t newer) s = .next s) ∧
    (pc.val ∉ h.retired → s.sys.standby = false → at_ + 32 < 1152 * 1048576 → burstKey pc.val at_ ∉ h.poisoned →
      Machine.exec (.scrubRead pc (.symbols []) t false) s =
        .next { s with hbm := { h with scrubAt := storeSet (fun _ => 0) h.scrubAt pc.val (at_ + 32) } }) ∧
    (pc.val ∉ h.retired → s.sys.standby = false → pcFailed pc.val s = false → Machine.exec (.scrubRead pc e t false) s =
      .next (scrubNext pc.val (burstRead pc.val at_ e t s).2)))

/-- A read of TIME_NOW_S returns SEC and latches NS and FRAC into that master's copy of TIME_NOW_NS, which is what the master then reads
there until its next read of TIME_NOW_S; another master's copy stays. TIME_RATE.ADJ is stored, clamped to 10,737,418 either way, while
SOURCE is HOST or the Reeve's servo writes; a write of another is ignored and raises TIME_SET_REFUSED. -/
def Obligations.TimeNowAndRate : Prop :=
  ∀ (m : Master) (v : Payload) (s : State), Accepts m s →
    let a := accessed m s
    let adjust := signedOf 32 (fld fTimeRateAdj v)
    let rate := Machine.exec (.timeRateWrite m v) s
    (∃ t, Machine.exec (.timeNowSRead m) s = .next (emit (.readData m (readWord (BitVec.ofNat 48 a.time.sec) t)) t) ∧
      t = { a with time := { a.time with latches := storeSet (fun _ => 0) a.time.latches (masterKey m) (a.time.sub / 2 ^ 16) } } ∧
      (storeSorted none a.time.latches = true → readReg m .timeNowNs t = BitVec.ofNat 48 (a.time.sub / 2 ^ 16) ∧
        ∀ o, o ≠ m → readReg o .timeNowNs t = readReg o .timeNowNs a)) ∧
    (timeSource a = 3 ∨ m = .reeve →
      (adjust < -10737418 → rate = .next (setF fTimeRateAdj .timeRate (unsignedOf 32 (-10737418)) a)) ∧
      (-10737418 ≤ adjust → adjust ≤ 10737418 → rate = .next (setF fTimeRateAdj .timeRate (unsignedOf 32 adjust) a)) ∧
      (10737418 < adjust → rate = .next (setF fTimeRateAdj .timeRate (unsignedOf 32 10737418) a))) ∧
    (timeSource a ≠ 3 → m ≠ .reeve → rate = .next (raise .timeSetRefused none 0 0 a)) ∧
    (∀ (o : Master) (u : State), readReg o .timeNowNs u = BitVec.ofNat 48 (storeGet (fun _ => 0) u.time.latches (masterKey o))) ∧
    increment a = 10737418240 + adj a ∧
    (StateInv s → ∀ x : Int, -(2 ^ 31) ≤ x → x < 2 ^ 31 → adj (setF fTimeRateAdj .timeRate (unsignedOf 32 x) s) = x)

/-- On a TCLK edge with no step set and no holdover, local time advances by 2.5 ns + ADJ × 2^-32 ns and a slew's step, modulo 2^48 s; the
slew's step is what is left of it, at most 1,073,741 units either way, and is taken off what is left. Of everything else only the model's
record of the timebase's runs (noteRun) may change. TIME_SLEW_WRITE, while SOURCE is HOST or by the Reeve, replaces the part of a slew not
yet applied; otherwise it is ignored and raises TIME_SET_REFUSED. TIME_STEP stores its other fields first; without STEP that is all. Under
SOURCE = HOST, or by the Reeve, STEP is set when NS is below 10^9 and is void otherwise; else it is refused. A load (loadStep) of such a
TIME_SET gives its seconds, nanoseconds and FRAC, with the fraction bits below FRAC zero; a device that runs takes it at the next TCLK edge,
where STEP_AT_PPS is 0. -/
def Obligations.TimeChanges : Prop :=
  (∀ (s : State), getF fTimeCtlStep .timeCtl s = 0 → s.time.holdover = false →
    let left := s.time.slewLeft
    let t := timeTick s
    (localQ t : Int) = (localQ s + (10737418240 + adj s) + slewStep left) % (2 ^ 48 * 1000000000 * 2 ^ 32 : Nat) ∧
    t.time.sub < 1000000000 * 2 ^ 32 ∧ t.time.slewLeft = left - slewStep left ∧
    (left.natAbs ≤ 1073741 → slewStep left = left) ∧ (1073741 < left → slewStep left = 1073741) ∧ (left < -1073741 → slewStep left = -1073741) ∧
    t = { s with time := { s.time with sec := t.time.sec, sub := t.time.sub, slewLeft := t.time.slewLeft, runs := t.time.runs } }) ∧
  (∀ (m : Master) (v : Payload) (s : State), Accepts m s →
    let a := accessed m s
    (timeSource a = 3 ∨ m = .reeve → Machine.exec (.timeSlewWrite m v) s =
      .next { a with time := { a.time with slewLeft := signedOf 40 (fld fTimeSlewOffset v) * 2 ^ 24 } }) ∧
    (timeSource a ≠ 3 → m ≠ .reeve → Machine.exec (.timeSlewWrite m v) s = .next (raise .timeSetRefused none 0 0 a))) ∧
  ((∀ (m : Master) (v : Payload) (s : State), Accepts m s →
    let a := setF fTimeCtlSource .timeCtl (fld fTimeCtlSource v) (setF fTimeCtlTqReq .timeCtl (fld fTimeCtlTqReq v) (accessed m s))
    let b := if fld fTimeCtlSource v = 1 then a else { a with time := { a.time with ppsLocked := false } }
    let t := updateTimeq (setF fTimeCtlStepAtPps .timeCtl (fld fTimeCtlStepAtPps v)
      (setF fTimeCtlTauLog2 .timeCtl (min 10 (fld fTimeCtlTauLog2 v)) b))
    (fld fTimeCtlStep v = 0 → Machine.exec (.timeStep m v) s = .next t) ∧
    (fld fTimeCtlStep v = 1 → timeRefused m t = true → Machine.exec (.timeStep m v) s = .next (raise .timeSetRefused none 0 0 t)) ∧
    (fld fTimeCtlStep v = 1 → timeRefused m t = false → getF fTimeSetNsNs .timeSetNs t < 1000000000 →
      Machine.exec (.timeStep m v) s = .next (setF fTimeCtlStep .timeCtl 1 t)) ∧
    (fld fTimeCtlStep v = 1 → timeRefused m t = false → 1000000000 ≤ getF fTimeSetNsNs .timeSetNs t →
      Machine.exec (.timeStep m v) s = .next (raise .timeSetRefused none 0 0 (setF fTimeCtlStep .timeCtl 0 t)))) ∧
  (∀ (s : State), StateInv s → getF fTimeSetNsNs .timeSetNs s < 1000000000 →
    let t := loadStep s
    t.time.sec = getF fTimeSetSSec .timeSetS s ∧
    t.time.sub = getF fTimeSetNsNs .timeSetNs s * 2 ^ 32 + getF fTimeSetNsFrac .timeSetNs s * 2 ^ 16 ∧ t.time.everSet = true) ∧
  (∀ (s : State), StateInv s → getF fTimeCtlStep .timeCtl s = 1 → getF fTimeCtlStepAtPps .timeCtl s = 0 → s.time.holdover = false →
    let d := increment s + slewStep s.time.slewLeft
    let u := setLocalQ (localQ s + d) s
    timeTick s = noteRun (s.tick + 1) d
      (loadStep { u with time := { u.time with slewLeft := s.time.slewLeft - slewStep s.time.slewLeft } })))

/-- PPS_IN_EDGE is stamped on TDC channel 0. An edge within half a second of the last accepted one, by the stamps' count, or outside the
window while locked, has no other effect; an accepted one with a step waiting for PPS loads it, under SOURCE = PPS it steers the servo by
stamp less DELAY less the second boundary, and otherwise it is only noted. Losing PPS unlocks; losing the selected source begins holdover.
PPS_OUT_PULSE gives a pulse of 100 us stamped on TDC channel 14, its delay line where the servo left it (a free value, log 4), while OUT_EN
is 1 and no gate holds it; off or gated, none. SYNC_OUT_PULSE gives 100 ns high. Before FIRMWARE the pins are held and there is no pulse.
SYNC_IN_EDGE is stamped on channel 2 and has no other effect. -/
def Obligations.TimeSources : Prop :=
  (∀ (x : RawStamp) (s : State), Runs s →
    let q := stampTime x s
    let v := (rawValue s.time.bins x).toNat
    let t := tdcEdge 0 x s
    let th := offSecond (q - signedOf 32 (getF fTimePpsCfgDelay .timePpsCfg t) * 2 ^ 32 / 1000)
    let noted := { t with time := { t.time with ppsLast := some v } }
    let stepWaits := getF fTimeCtlStep .timeCtl t = 1 ∧ getF fTimeCtlStepAtPps .timeCtl t = 1
    let late := ∀ l, t.time.ppsLast = some l → 128000000000000 ≤ (v + 2 ^ 48 * 160000 - l) % (2 ^ 48 * 160000)
    let accepted := late ∧ (t.time.ppsLocked = false ∨ (th.natAbs : Nat) ≤ max 1 (getF fTimePpsCfgWin .timePpsCfg t) * 1000 * 2 ^ 32)
    (¬accepted → Machine.exec (.ppsInEdge x) s = .next t) ∧
    (accepted → stepWaits → Machine.exec (.ppsInEdge x) s = .next (loadStep noted)) ∧
    (accepted → ¬stepWaits → timeSource t = 1 → Machine.exec (.ppsInEdge x) s =
      .next (servoUpdate th { noted with time := { noted.time with ppsLocked := th.natAbs ≤ 100000 * 2 ^ 32 } })) ∧
    (accepted → ¬stepWaits → timeSource t ≠ 1 → Machine.exec (.ppsInEdge x) s = .next noted) ∧
    Machine.exec .timePpsLost s = .next (raise .timePpsLost none 0 0 { s with time := { s.time with ppsLocked := false } }) ∧
    (timeSource s ≠ 3 → s.time.holdover = false → Machine.exec .timeSourceLost s =
      .next (raise .timeSourceLost none 0 0 { s with time := { s.time with holdover := true } })) ∧
    (timeSource s = 3 ∨ s.time.holdover = true → Machine.exec .timeSourceLost s = .next s)) ∧
  (∀ (x : RawStamp) (s : State), Runs s →
    (pinsLive s = true → getF fTimePpsCfgOutEn .timePpsCfg s = 1 → ¬(getF fTimePpsCfgOutGate .timePpsCfg s = 1 ∧ s.hif.timeq = true) →
      ∃ t d, Machine.exec (.ppsOutPulse x) s = .next (tdcEdge 14 x t) ∧ d < 256 ∧
        t = { s with out := .pulse 1 100000 :: s.out, time := { s.time with ppsDelay := d }, free := t.free }) ∧
    (pinsLive s = false ∨ getF fTimePpsCfgOutEn .timePpsCfg s = 0 ∨ (getF fTimePpsCfgOutGate .timePpsCfg s = 1 ∧ s.hif.timeq = true) →
      Machine.exec (.ppsOutPulse x) s = .next s) ∧
    (pinsLive s = true → Machine.exec .syncOutPulse s = .next { s with out := .pulse 2 100 :: s.out }) ∧
    (pinsLive s = false → Machine.exec .syncOutPulse s = .next s) ∧
    Machine.exec (.syncInEdge x) s = .next (tdcEdge 2 x s))

/-- REF_GATE_END takes the edges its gate brought (tdcArrive) and judges each reference by its offset (judgeRef): beyond TOL it is at best
SUSPECT, and OUT after DWELL such gates in a row with TIME_REF_OUT_TOL; within TOL less HYST for RETURN gates in a row it is GOOD with
TIME_REF_GOOD. TIME_REF_LOST makes a reference that is enabled and not absent OUT at once; REF_SETTLE_END ends the settle. Without REVERT a
source in use is kept while it is not OUT. -/
def Obligations.References : Prop :=
  (∀ (g : RefGate) (s : State), Runs s →
    let ya := (gateOffsets g s).1
    let yb := (gateOffsets g s).2
    let ra := judgeRef (getF fTimeRefCfgEnA .timeRefCfg s = 1) ya s.time.refA s
    let rb := judgeRef (getF fTimeRefCfgEnB .timeRefCfg s = 1) yb s.time.refB s
    Machine.exec (.refGateEnd g) s = .next (refSwitch (trackCrystal g (refEvent rb.2 1 (refEvent ra.2 0
      (g.edges.foldl (fun s a => tdcArrive a s) { s with time := { s.time with refA := ra.1, refB := rb.1 } })))))) ∧
  (∀ (y : Int) (r : RefMon) (s : State), 1 ≤ getF fTimeRefCfgDwell .timeRefCfg s → 1 ≤ getF fTimeRefCfgReturn .timeRefCfg s →
    ((refTol s).1 < y.natAbs → r.qual ≠ 1 → r.qual ≠ 0 → getF fTimeRefCfgDwell .timeRefCfg s ≤ r.beyond + 1 →
      (judgeRef true (some y) r s).1.qual = 1 ∧ (judgeRef true (some y) r s).2 = some .timeRefOutTol) ∧
    ((refTol s).1 < y.natAbs → r.qual = 3 → r.beyond + 1 < getF fTimeRefCfgDwell .timeRefCfg s →
      (judgeRef true (some y) r s).1.qual = 2 ∧ (judgeRef true (some y) r s).2 = none) ∧
    (y.natAbs < (refTol s).2 → (refTol s).2 ≤ (refTol s).1 → r.qual ≠ 3 → getF fTimeRefCfgReturn .timeRefCfg s ≤ r.good + 1 →
      (judgeRef true (some y) r s).1.qual = 3 ∧ (judgeRef true (some y) r s).2 = some .timeRefGood)) ∧
  (∀ (s : State), Runs s →
    (getF fTimeRefCfgEnA .timeRefCfg s = 1 → s.time.refA.qual ≠ 0 → Machine.exec (.timeRefLost .a) s =
      .next (refSwitch (raise .timeRefLost none (arg0 0 0 0) 0 { s with time := { s.time with refA := ⟨1, 0, 0, s.time.refA.off⟩ } }))) ∧
    (getF fTimeRefCfgEnB .timeRefCfg s = 1 → s.time.refB.qual ≠ 0 → Machine.exec (.timeRefLost .b) s =
      .next (refSwitch (raise .timeRefLost none (arg0 1 0 0) 0 { s with time := { s.time with refB := ⟨1, 0, 0, s.time.refB.off⟩ } }))) ∧
    (getF fTimeRefCfgRevert .timeRefCfg s = 0 → s.time.pll = 1 → 2 ≤ s.time.refA.qual → pllNext s = 1) ∧
    (getF fTimeRefCfgRevert .timeRefCfg s = 0 → s.time.pll = 2 → 2 ≤ s.time.refB.qual → pllNext s = 2) ∧
    Machine.exec .refSettleEnd s = .next (updateTimeq { s with time := { s.time with settling := false } }))

/-- TDC_CAL_REQUEST and TDC_GO store TIME_TDC_CTL without its request bits and then start; a calibration that ends with every bin hit and no
bin above 2,500 units takes its table and raises TIME_TDC_CAL_DONE, and another keeps the old one and raises TIME_TDC_CAL_FAIL. At
TDC_MEASURE_DONE the edges it brings are taken (tdcArrive); once a running measurement has its COUNT_M1 + 1 samples it ends with DONE, its
results (tdcResults) and TIME_TDC_DONE, and a calibration asked for meanwhile begins. -/
def Obligations.TdcEngine : Prop :=
  ∀ (m : Master) (v : Payload) (hits : List Nat) (edges : List TdcArrival) (s : State), Runs s →
    let a := accessed m s
    let w := setFld fTimeTdcCtlCalExtra (min 4 (fld fTimeTdcCtlCalExtra v)) (setFld fTimeTdcCtlCal 0 (setFld fTimeTdcCtlGo 0 v))
    let t := setReg .timeTdcCtl (w &&& BitVec.ofNat 48 0xFFFFFFFFFFF8) a
    let h := 2 ^ (20 + getF fTimeTdcCtlCalExtra .timeTdcCtl s)
    let ws := binWidths hits h
    let ended := { s with time := { s.time with calBusy := false, calTemp := s.therm.sensors.getD 22 0, calEver := true } }
    let u := edges.foldl (fun s a => tdcArrive a s) s
    let e := u.time.engine
    let last := u.time.busy = true ∧ getF fTimeTdcCtlCountM1 .timeTdcCtl u + 1 ≤ e.taken
    (barred m s = false → fld fTimeTdcCtlCal v = 1 → fld fTimeTdcCtlGo v = 0 → s.time.busy = false →
      Machine.exec (.tdcCalRequest m v) s = .next { t with time := { t.time with calBusy := true, calPending := false } }) ∧
    (barred m s = false → fld fTimeTdcCtlCal v = 1 → fld fTimeTdcCtlGo v = 0 → s.time.busy = true →
      Machine.exec (.tdcCalRequest m v) s = .next { t with time := { t.time with calPending := true } }) ∧
    (barred m s = false → fld fTimeTdcCtlGo v = 1 → fld fTimeTdcCtlCal v = 0 → getF fTimeTdcCtlMode .timeTdcCtl t < 2 →
      Machine.exec (.tdcGo m v) s = .next { t with time := { t.time with
        busy := true, done := false, missed := false, used := 0, ovf := 0, engine := ⟨0, [], 0, none⟩ } }) ∧
    (barred m s = false → fld fTimeTdcCtlGo v = 1 → fld fTimeTdcCtlCal v = 0 → 2 ≤ getF fTimeTdcCtlMode .timeTdcCtl t →
      Machine.exec (.tdcGo m v) s = .next (raise .timeTdcBadCfg none 0 0 t)) ∧
    (fits (.tdcCalDone hits) s = true → s.time.calBusy = true → (∀ n ∈ hits, n ≠ 0) → (∀ b ∈ ws, b ≤ 2500) →
      Machine.exec (.tdcCalDone hits) s =
        .next (updateTimeq (raise .timeTdcCalDone none 0 0 { ended with time := { ended.time with bins := some ws } }))) ∧
    (fits (.tdcCalDone hits) s = true → s.time.calBusy = true → (0 ∈ hits ∨ ∃ b ∈ ws, 2500 < b) →
      Machine.exec (.tdcCalDone hits) s = .next (raise .timeTdcCalFail none 0 0 ended)) ∧
    (fits (.tdcCalDone hits) s = true → s.time.calBusy = false → Machine.exec (.tdcCalDone hits) s = .next s) ∧
    (¬last → Machine.exec (.tdcMeasureDone edges) s = .next u) ∧
    (last → ∀ r, r = raise .timeTdcDone none 0 0 (tdcResults e.xs
        { u with time := { u.time with busy := false, done := true, used := e.xs.length, ovf := min 0x7FFF e.excluded } }) →
      (r.time.calPending = false → Machine.exec (.tdcMeasureDone edges) s = .next r) ∧
      (r.time.calPending = true → Machine.exec (.tdcMeasureDone edges) s = .next (tdcCalBegin r)))

/-- A stamp offered to the timestamp queue advances QSEQ; with room it is the newest entry, and with 256 held it is dropped, counted up to
0xFFFF, and raises TIME_TSQ_OVERFLOW unless one was raised since occupancy was last 128 or fewer. TIME_TSQ_POP removes the oldest, if there
is one, and TSQ_CLR_DROPS clears DROPS. A stamp offered changes nothing of the timebase, the servo, the TDC and its measurement but the
queue's own QSEQ, entries, DROPS and overflow mark. -/
def Obligations.TimestampQueue : Prop :=
  (∀ (q : Int) (id source msg : Nat) (s : State),
    let u := (q % (2 ^ 48 * secUnits : Nat)).toNat
    let n := wrap 16 (s.time.qseq + 1)
    (s.time.tsq.length < 256 → tsqOffer q id source msg s =
      let e : TsqEntry := ⟨u / secUnits, u % secUnits / 2 ^ 16, wrap 16 id, s.time.qseq, source, msg⟩
      { s with time := { s.time with qseq := n, tsq := s.time.tsq ++ [e] } }) ∧
    (256 ≤ s.time.tsq.length →
      let d := { s with time := { s.time with qseq := n, drops := min 65535 (s.time.drops + 1), overflowed := true } }
      tsqOffer q id source msg s = if s.time.overflowed then d else raise .timeTsqOverflow none 0 0 d) ∧
    (let t := (tsqOffer q id source msg s).time
     t = { s.time with qseq := t.qseq, tsq := t.tsq, drops := t.drops, overflowed := t.overflowed })) ∧
  (∀ (m : Master) (v : Payload) (s : State), Accepts m s →
    let a := accessed m s
    let q := a.time.tsq.drop 1
    (fld fTimeTsqPopPop v = 1 → Machine.exec (.timeTsqPop m v) s =
      .next { a with time := { a.time with tsq := q, overflowed := a.time.overflowed && q.length > 128 } }) ∧
    (fld fTimeTsqCfgClrDrops v = 1 → ∃ t, Machine.exec (.tsqClrDrops m v) s = .next { t with time := { t.time with drops := 0 } } ∧
      t = setF fTimeTsqCfgPtpEn .timeTsqCfg (fld fTimeTsqCfgPtpEn v) (setF fTimeTsqCfgChEn .timeTsqCfg (fld fTimeTsqCfgChEn v) a)))

/-- HIF_RING_CFG_WRITE: while EN is 1 a write to BASE or IDX, or one that changes another CFG field, is not stored and raises
HIF_RING_CFG_REFUSED, and EN is cleared by one of EN = 0; while EN is 0 a write is stored, but for EN = 1 where LOG2, SLOT_LOG2, GROUP or
the completion ring is not as it must be. HIF_POLL_TICK in scan mode reads the doorbell of every enabled ring in rising order, and in
summary mode those of the rings of the bitmap, which it clears; a poll that may not run does nothing; HIF_NUDGE asks for one poll once boot
is done, and is ignored before. -/
def Obligations.Rings : Prop :=
  (∀ (m : Master) (n : Fin 16384) (v : Payload) (s : State), Accepts m s →
    let a := accessed m s
    let w := v &&& BitVec.ofNat 48 0xFFFFFFFFFF80
    let old := regOf (.ringCfg n) a
    let x := fld fRingIdxIdx v
    let refused := raise .hifRingCfgRefused none (arg0 n.val 0 0) 0
    (fld fRingCfgEn old = 1 → Machine.exec (.hifRingCfgWrite m n .base v) s = .next (refused a) ∧
      Machine.exec (.hifRingCfgWrite m n .idx v) s = .next (refused a)) ∧
    (fld fRingCfgEn old = 1 → fld fRingCfgEn w = 1 → setFld fRingCfgEn 1 w ≠ old →
      Machine.exec (.hifRingCfgWrite m n .cfg v) s = .next (refused a)) ∧
    (fld fRingCfgEn old = 1 → fld fRingCfgEn w = 1 → setFld fRingCfgEn 1 w = old → Machine.exec (.hifRingCfgWrite m n .cfg v) s = .next a) ∧
    (fld fRingCfgEn old = 1 → fld fRingCfgEn w = 0 → Machine.exec (.hifRingCfgWrite m n .cfg v) s =
      .next (setF fRingCfgEn (.ringCfg n) 0 (if setFld fRingCfgEn 1 w = old then a else refused a))) ∧
    (fld fRingCfgEn old = 0 → ¬(fld fRingCfgEn w = 1 ∧ ringEnableBad w a = true) →
      Machine.exec (.hifRingCfgWrite m n .cfg v) s = .next (setReg (.ringCfg n) w a)) ∧
    (fld fRingCfgEn old = 0 → fld fRingCfgEn w = 1 → ringEnableBad w a = true →
      Machine.exec (.hifRingCfgWrite m n .cfg v) s = .next (refused (setReg (.ringCfg n) (setFld fRingCfgEn 0 w) a))) ∧
    (fld fRingCfgEn old = 0 → Machine.exec (.hifRingCfgWrite m n .base v) s = .next (setReg (.ringBase n) v a) ∧
      Machine.exec (.hifRingCfgWrite m n .idx v) s =
        .next (setRingCtx n.val { ringCtx n.val a with prod := x, cons := x } (setF fRingIdxIdx (.ringIdx n) x a)))) ∧
  (∀ (m : Master) (v : Payload) (s : State), Runs s →
    let t := { s with hif := { s.hif with nudge := false } }
    (mayPoll s = false → Machine.exec .hifPollTick s = .next s) ∧
    (mayPoll s = true → getF fHifPollScan .hifPoll s = 1 →
      Machine.exec .hifPollTick s = .next ((enabledRings t).foldl (fun u n => takeDoorbell n u) t)) ∧
    (mayPoll s = true → getF fHifPollScan .hifPoll s = 0 →
      Machine.exec .hifPollTick s = .next ((summaryRings t).foldl (fun u n => takeDoorbell n u) (clearSummary t))) ∧
    (barred m s = false → Machine.exec (.hifNudge m v) s = .next (if bootStage (accessed m s) = 4 then
      { accessed m s with hif := { (accessed m s).hif with nudge := true } } else accessed m s)) ∧
    (mayPoll s = true ↔ bootStage s = 4 ∧ s.sys.reeveRuns = true ∧ hostOpen s = true ∧ (getF fHifPollEn .hifPoll s = 1 ∨ s.hif.nudge = true)))

/-- A doorbell's INDEX that a ring takes: the producer's of a SUB ring is valid while at most 2^LOG2 ahead of IDX, a consumer's of another
ring while at most 2^LOG2 behind it, modulo 2^32; any other is an overrun: nothing is taken or fetched from it, the ring is disabled and
HIF_RING_OVERRUN is raised. A disabled ring takes none. -/
def Obligations.DoorbellWindows : Prop :=
  ∀ (n : Fin 16384) (s : State),
    let x := leAt (hostRead ((regOf .hifDbBase s).toNat * 4096 + 8 * n.val) 4 s) 0 4
    let ahead := (x + 2 ^ 32 - ringIdx n s) % 2 ^ 32
    let behind := (ringIdx n s + 2 ^ 32 - x) % 2 ^ 32
    let c := ringCtx n.val s
    let past := raise .hifRingOverrun none (arg0 n.val 0 0) 0 (setF fRingCfgEn (.ringCfg n) 0 s)
    (ringF fRingCfgEn n s = 0 → takeDoorbell n s = s) ∧
    (ringF fRingCfgEn n s ≠ 0 → ringF fRingCfgType n s = 0 → ahead ≤ ringSize n s → takeDoorbell n s = setRingCtx n.val { c with prod := x } s) ∧
    (ringF fRingCfgEn n s ≠ 0 → ringF fRingCfgType n s = 0 → ringSize n s < ahead → takeDoorbell n s = past) ∧
    (ringF fRingCfgEn n s ≠ 0 → ringF fRingCfgType n s ≠ 0 → behind ≤ ringSize n s → takeDoorbell n s = setRingCtx n.val { c with cons := x } s) ∧
    (ringF fRingCfgEn n s ≠ 0 → ringF fRingCfgType n s ≠ 0 → ringSize n s < behind → takeDoorbell n s = past) ∧
    ringF fRingCfgEn n past = 0 ∧ (ringCtx n.val past).prod = c.prod ∧ fetchable n past = false

/-- DESC_FETCH of the ring whose turn it is: its completion entry is reserved, IDX and the round robin move on, and the descriptor that was
read takes flight; one whose tag is in flight completes TAG_BUSY and leaves the tag's record, and one that could not be read completes
BUS_ERROR, under a tag that no one knows (log 17). -/
def Obligations.DescriptorFetch : Prop :=
  ∀ (n : Fin 16384) (s : State), Runs s → bootStage s = 4 → s.sys.reeveRuns = true → hostOpen s = true → s.hif.inflight.length < 131072 →
    nextRing s = some n →
    let cpl := ringF fRingCfgCplRing n s
    let x := ringIdx n s
    let q := (List.range 8).map fun i => leAt (hostRead (ringAddr n x s) 64 s) (8 * i) 8
    let d : Desc := ⟨n.val, cpl, bitsOf (q.getD 0 0) 32 16, q, false, false⟩
    let r := setRingCtx cpl { ringCtx cpl s with reserved := (ringCtx cpl s).reserved + 1 } s
    let t := setF fRingIdxIdx (.ringIdx n) (x + 1) { r with hif := { r.hif with robin := (n.val + 1) % 16384 } }
    ((∀ e ∈ s.hif.inflight, e.tag ≠ d.tag) → Machine.exec (.descFetch n true) s =
      .next (setTagRec d.tag ⟨true, 0, d.opcode, false⟩ { t with hif := { t.hif with inflight := t.hif.inflight ++ [d] } })) ∧
    ((∃ e ∈ s.hif.inflight, e.tag = d.tag) → Machine.exec (.descFetch n true) s =
      .next (setTagRec d.tag (tagRec d.tag t) (writeCompletion d (busyStatus d) 0 0 (releaseCpl cpl t)))) ∧
    (opcodeDefined d.opcode = true → rsvdSet d = false → busyStatus d = 0x12) ∧
    (let e : Desc := ⟨n.val, cpl, Config.freeValue t.free % 131072, List.replicate 8 0, false, false⟩
      ∃ u, Machine.exec (.descFetch n false) s =
      .next (setTagRec e.tag (tagRec e.tag u) (writeCompletion e 0x50 0 0 (releaseCpl cpl u))) ∧
      u = { t with free := t.free + 1 })

/-- A descriptor that fails several checks completes with the lowest of their codes: the check found fails, no failing check has a lower
code, and none is found exactly where none fails. -/
def Obligations.LowestCode : Prop :=
  ∀ (cs : List Check),
    (∀ c, firstFail cs = some c → c ∈ cs ∧ c.fails = true ∧ ∀ d ∈ cs, d.fails = true → c.code ≤ d.code) ∧
    (firstFail cs = none ↔ ∀ c ∈ cs, c.fails = false)

/-- A descriptor in flight that may begin runs by its command: when no check fails it has its effect, and else it completes with the lowest
failing code and has none. The checks of its own that each opcode makes, and the effect, are named row by row. -/
def Obligations.DescriptorsRun : Prop :=
  ∀ (tag : BitVec 17) (readOk : Bool) (words : Nat) (d : Desc) (s : State), Runs s → descOf tag.toNat s = some d → mayBegin d s = true →
    let b := markBegun d s
    let run := fun (c : Instr) (op : Nat) (own : List Check) (effect : State) => d.opcode = op →
      (firstFail (headChecks d b ++ own) = none → Machine.exec c s = .next effect) ∧
      (∀ k, firstFail (headChecks d b ++ own) = some k → Machine.exec c s = .next (complete d k.code k.r0 k.r1 b))
    let core := descCore d
    run (.nop tag) 0x00 [] (complete d 0 0 0 b) ∧
    run (.start tag) 0x01 (startChecks d b) (startPart d b) ∧
    run (.configure tag) 0x02 (configureChecks d b) (configurePart d b) ∧
    run (.stop tag) 0x03 [chk (!(partOf d.part b).started) 0x30]
      (complete d 0 0 0 (setPart d.part { partOf d.part b with stopping := true } b)) ∧
    run (.tableWrite tag readOk) 0x04 (tableWriteChecks readOk d b) (tableWrite d b) ∧
    run (.bankCommit tag) 0x05 [chk (partOf d.part b).commit.isSome 0x31]
      (let r := commitBank d.part (d.qw 1) (d.qw 2) b
       if d.qw 1 < r.1 then complete d 0x02 r.1 0 r.2 else complete d 0 0 0 r.2) ∧
    run (.captureConfig tag) 0x06 (captureChecks d b)
      (let k := decodeCapt d
       let t := if k.enable then leaveStandby b else b
       let u := { t with trig := { t.trig with accepted := t.trig.accepted ++ [(d.tag, k)] } }
       if t.trig.accepted = [] then captureApply u else u) ∧
    run (.triggerArm tag) 0x07 (chk ((decodeArm d).scope && b.bell.role0.isNone) 0x32 :: armChecks (decodeArm d) b) (triggerArm d b) ∧
    run (.triggerFire tag) 0x08 [chk (hostArm d b).isNone 0x33] (triggerFire d b) ∧
    run (.statsRead tag) 0x09 (statsChecks d b) (statsRead d b) ∧
    run (.portConfig tag) 0x0A [] (complete d 0 0 0 (onPort (bitsOf (d.qw 1) 2 0) (fun p =>
      { p with mac := ofBe (leBytes 6 (d.qw 2)), ip4 := ofBe (leBytes 4 (d.qw 3)), ip6 := ofBe (leBytes 8 (d.qw 4) ++ leBytes 8 (d.qw 5)) }) b)) ∧
    run (.roleAssign tag) 0x0B
      [chk (match roleKnown (bitsOf (d.qw 1) 15 0) b with | some k => bitsOf (d.qw 1) 47 16 ≤ k.epoch | none => false) 0x36,
       chk (fld fBellCfgAuth b.bell.eff = 0) 0x37]
      (complete d 0 0 0 (assignRole (bitsOf (d.qw 1) 15 0)
        ⟨bitsOf (d.qw 1) 47 16, bitsOf (d.qw 1) 61 48, bitOf (d.qw 1) 62, d.part.val⟩ b)) ∧
    run (.timeQuality tag) 0x0C [chk (timeSource b ≠ 3) 0x3A]
      (complete d 0 0 0 (updateTimeq { b with time := { b.time with hostTq := bitsOf (d.qw 1) 7 0 } })) ∧
    run (.stwLoad tag words) 0x0D [chk (!loadFits d) 0x13, chk (coreOf core b).active 0x38] (stwLoad words d b) ∧
    run (.stwRun tag) 0x0E [chk (coreOf core b).active 0x38] (complete d 0 0 0
      ((List.range 4).foldl (fun u k => setSysRing k ((sysRing k u).seek (1 + core) 0) u)
        (setCore core ((coreOf core b).started d.part (bitsOf (d.qw 1) 29 16)) b))) ∧
    run (.stwStop tag) 0x0F [] (let x := coreOf core b
      if x.active && x.rep.isSome then setCore core { x with stopDue := true } b else stwStopNow core b) ∧
    run (.fwWrite tag readOk) 0x10 (fwChecks readOk d b) (fwWrite d b) ∧
    run (.query tag) 0x11 [] (complete d 0 (queryResult (bitsOf (d.qw 1) 16 0) b) 0 b) ∧
    (0x11 < d.opcode → Machine.exec (.badOpcode tag) s = .next (complete d 0x10 0 0 b))

/-- A completion: the descriptor leaves flight and its reserved entry is given back; with the host open and the CPL ring an enabled one its
entry, which carries the ring, the tag, the Crier word, the opcode, the status and both results, is stored at the ring's next place, IDX
counts one and the tag is recorded as written; a QUIET descriptor that succeeds, and one whose ring is no enabled CPL ring or whose link
went down, is only recorded. The completion of a START or an enabling CAPTURE_CONFIG that succeeds waits for the exit from STANDBY, and any
completion while the Reeve is stopped for its restart; a descriptor whose completion waits is not completed again. START leaves the
partition started under its configuration with nothing in its copies, and every table entry to be read afresh; the started core of STW_RUN
has its registers, status and stack clear, its memories and its queue of transfers kept. -/
def Obligations.Completions : Prop :=
  (∀ (d : Desc) (status r0 r1 : Nat) (s : State), StateInv s →
    let n := Fin.ofNat 16384 d.cpl
    let t := releaseCpl d.cpl (dropDesc d s)
    let x := ringIdx n t
    let entry := completionEntry d status r0 r1 (ringPhase n x t) (attnNat t) (timeWord t)
    let w := setF fRingIdxIdx (.ringIdx n) (x + 1) (hostWrite (ringAddr n x t) entry t)
    (d.waits s = true → complete d status r0 r1 s = s) ∧
    (d.waits s = false → waitsForExit d status s = true →
      complete d status r0 r1 s = { s with hif := { s.hif with waiting := s.hif.waiting ++ [⟨d, status, r0, r1⟩] } }) ∧
    (∀ e ∈ t.hif.inflight, ¬(e.tag = d.tag ∧ e.ring = d.ring)) ∧
    (d.waits s = false → waitsForExit d status s = false → (d.quiet = true ∧ status = 0) ∨ d.orphan = true ∨ hostOpen s = false ∨ ringF fRingCfgEn n s = 0 ∨ ringF fRingCfgType n s ≠ 1 →
      complete d status r0 r1 s = setTagRec d.tag ⟨true, status, d.opcode, false⟩ t) ∧
    (d.waits s = false → waitsForExit d status s = false → ¬(d.quiet = true ∧ status = 0) → d.orphan = false → hostOpen s = true → ringF fRingCfgEn n s ≠ 0 →
      ringF fRingCfgType n s = 1 →
      complete d status r0 r1 s = ringIrq n d.irq (setTagRec d.tag ⟨true, status, d.opcode, true⟩ w)) ∧
    entry.length = 32) ∧
  ((∀ (d : Desc) (s : State), StateInv s → let x := partOf d.part (startPart d s)
    x.started = true ∧ x.cfg = decodeCfg d ∧ x.epochs = [⟨1, 0, 0, decodeCfg d, none⟩] ∧ x.fill = none ∧ x.closed = [] ∧ x.parked = [] ∧ x.pending = [] ∧
      x.stale = List.range 4096 ∧ x.seqs = (partOf d.part s).seqs ∧ x.bank = (partOf d.part s).bank) ∧
  (∀ (p : Fin 8) (pc : Nat) (x : Core), let y := x.started p pc
    y.state = 1 ∧ y.pc = pc ∧ y.part = p ∧ y.prog = x.prog ∧ y.data = x.data ∧ y.xfers = x.xfers ∧ y.stack = [] ∧
      y.d = List.replicate 16 0 ∧ y.a = List.replicate 2 0 ∧ y.sr = Core.idle.sr ∧ y.subno = x.subno ∧ y.ret = x.ret ∧ y.cause = x.cause))

/-- The PCIe link: a hot reset or a link-down ends with the link down, an FLR leaves it up; each discards the split-write latch and what a
nudge asked for, disables every ring, loses the completions of descriptors in flight and raises HIF_LINK_DOWN. PERST_N also clears the host
interface's registers and records; training brings the link up. D3hot closes the host interface, which enters STANDBY from IDLE, and D0
opens it and leaves a STANDBY that D3hot entered. HIF_ATTN_CLR clears WITHHELD, and lowers SEV to the severity of what is still present; HB
toggles from the end of boot while the Reeve runs; a deferred interrupt is raised when its gap ends, and none otherwise; HIF_ESTOP with KEY
= 0x53544F50 stops the device, which keeps its data, with SEV 3 and WITHHELD set, and any other value is ignored. -/
def Obligations.PcieAndAttention : Prop :=
  (∀ (s : State), Runs s →
    (∀ k, ∃ t, Machine.exec (.pcieLinkReset k) s = .next (raise .hifLinkDown none 0 0 t) ∧
      t.hif.linkUp = (s.hif.linkUp && decide (k = .flr)) ∧ t.hif.d3hot = false ∧ t.hif.nudge = false ∧ t.hif.latch = none ∧
      (∀ d ∈ t.hif.inflight, d.begun = true ∧ d.orphan = true) ∧ t.parts = s.parts) ∧
    (∃ t, Machine.exec .perstN s = .next t ∧ t.hif.linkUp = false ∧ t.hif.rings = [] ∧ t.hif.inflight = [] ∧ t.hif.tags = [] ∧
      t.hif.latch = none ∧ (∀ kv ∈ t.regs, isHifOffset kv.1 = false) ∧ t.parts = s.parts) ∧
    (∀ rate width, Machine.exec (.pcieLinkUp rate width) s =
      .next { s with hif := { s.hif with linkUp := true, rate := rate, width := width } }) ∧
    (isIdle s = false → Machine.exec .pcieD3hot s = .next { s with hif := { s.hif with d3hot := true } }) ∧
    (isIdle s = true → ∃ t, Machine.exec .pcieD3hot s = .next t ∧ t.sys.standby = true ∧ t.sys.standbyByD3 = true ∧ t.hif.d3hot = true) ∧
    (s.sys.standbyByD3 = false → Machine.exec .pcieD0 s = .next { s with hif := { s.hif with d3hot := false } }) ∧
    (s.sys.standbyByD3 = true → s.sys.standby = false →
      Machine.exec .pcieD0 s = .next { s with hif := { s.hif with d3hot := false } }) ∧
    (s.sys.standbyByD3 = true → s.sys.standby = true → ∃ t, Machine.exec .pcieD0 s = .next t ∧
      t.sys.standby = false ∧ t.sys.exiting = true ∧ t.hif.d3hot = false)) ∧
  (∀ (m : Master) (v : Payload) (vec : BitVec 11) (s : State), Runs s →
    let a := accessed m s
    let clear := fun (c : Instr) => barred m s = false → ∃ t, Machine.exec c s = .next t ∧
      t.hif.withheld = (a.hif.withheld && decide (fld fHifAttnClrWithheld v = 0)) ∧
      t.hif.sev = (if fld fHifAttnClrSev v = 1 then presentSev a else a.hif.sev) ∧
      { t with hif := { t.hif with withheld := a.hif.withheld, sev := a.hif.sev } } = a
    clear (.attnClrWithheld m v) ∧ clear (.attnClrSev m v) ∧
    (bootStage s = 4 → s.sys.reeveRuns = true → Machine.exec .hbToggle s = .next { s with hif := { s.hif with hb := !s.hif.hb } }) ∧
    (¬(bootStage s = 4 ∧ s.sys.reeveRuns = true) → Machine.exec .hbToggle s = .next s) ∧
    (vec.toNat ∈ s.hif.irqDeferred → hostOpen s = true → irqGap vec.toNat s = false → Machine.exec (.irqModExpire vec) s =
      .next (emit (.irq vec.toNat) { s with hif := { s.hif with
        irqDeferred := s.hif.irqDeferred.filter (· ≠ vec.toNat), irqLast := storeSet (fun _ => 0) s.hif.irqLast vec.toNat (s.tick + 1) } })) ∧
    (¬(vec.toNat ∈ s.hif.irqDeferred ∧ hostOpen s = true ∧ irqGap vec.toNat s = false) → Machine.exec (.irqModExpire vec) s = .next s) ∧
    (barred m s = false → fld fHifEstopKey v = 0x53544F50 → ∃ t, Machine.exec (.hifEstop m v) s = .next t ∧ t.sys.stopped = true ∧ t.hif.sev = 3 ∧
      (a.sys.stopped = false → t.hif.withheld = true) ∧ t.parts = s.parts ∧ t.chans = s.chans ∧ t.granary = s.granary) ∧
    (barred m s = false → fld fHifEstopKey v ≠ 0x53544F50 → Machine.exec (.hifEstop m v) s = .next a))

/-- Stopping the device, whoever asks: it is stopped with SEV at fault and WITHHELD set; its partitions, what HBM holds for them, Bell and
time stay; a device that is stopped already does not change. A fault of a root clock, numbered as log 138 says, raises CLK_MON_FAULT and
stops it; a port's reference takes the port down, and a port that is off has none; the PCIe reference is a link-down. A lockstep mismatch,
or an uncorrectable error of the Reeve's working SRAM once counted and raised, stops the Reeve with DEP_REEVE_LOCKSTEP, holds time and ends
the monitor's session and DMA channels 28 to 31; a second one within 10 s stops the device. The restart sets the Reeve running with REMAP
set, raises DEP_REEVE_RESTARTED and gives the completions that waited; a Reeve that runs is not restarted. -/
def Obligations.DeviceFaults : Prop :=
  (∀ (s : State), Runs s →
    let roots : List (MonitoredClock × Nat) := [(.mclk, 0), (.fclk, 1), (.cclk, 2), (.tclk, 3)]
    (s.sys.stopped = true → stopDevice s = s) ∧
    (s.sys.stopped = false → let t := stopDevice s
      t.sys = { s.sys with stopped := true } ∧ t.hif.sev = 3 ∧ t.hif.withheld = true ∧ t.parts = s.parts ∧
      t.granary = s.granary ∧ t.chans = s.chans ∧ t.bell = s.bell ∧ t.time = s.time) ∧
    (∀ c ∈ roots, Machine.exec (.clkMonFault c.1) s = .next (stopDevice (raise .clkMonFault none (arg0 c.2 0 0) 0 s))) ∧
    Machine.exec (.clkMonFault .peRefclk) s = .next (linkEvent false s) ∧
    (∀ g, gmode g.val s = 0 → Machine.exec (.clkMonFault (.dlRefclk g)) s = .next s) ∧
    (∀ g, gmode g.val s ≠ 0 → Machine.exec (.clkMonFault (.dlRefclk g)) s = .next ((portLanes g.val s).foldl (fun u n => laneEnter n 0 u)
      (onPort g.val (fun p => { p with ethUp := false, fecRecent := [] }) s)))) ∧
  (∀ (s : State), Runs s →
    (∀ sram, ∃ t, Machine.exec (.reeveLockstep sram) s = .next t ∧ t.sys.reeveRuns = false ∧ t.sys.remapped = false ∧ t.time = { s.time with holdover := true } ∧
      t.dep.mismatchAt = some s.tick ∧ t.mon.unlocked = false ∧ t.mon.challenge = none ∧ t.mon.waiting = [] ∧ t.parts = s.parts ∧
      t.led.busy = s.led.busy ∧
      (t.sys.stopped = true ↔ s.sys.stopped = true ∨ ∃ x, s.dep.mismatchAt = some x ∧ s.tick < x + 4000000000)) ∧
    (StateInv s → Machine.exec (.reeveLockstep true) s = Machine.exec (.reeveLockstep false) (raise .depSramUe none 0 0 (bump .depSramUe 1 s))) ∧
    (s.sys.reeveRuns = true → Machine.exec .depReeveRestarted s = .next s) ∧
    (s.sys.reeveRuns = false → Machine.exec .depReeveRestarted s = .next (completeWaiting (raise .depReeveRestarted none 0 0 (setReg .reeveCtl 1
      { s with sys := { s.sys with reeveRuns := true }, time := { s.time with holdover := s.time.holdover && timeSource s ≠ 3 } })))))

/-- Voltage: seven readings inside their windows are only noted, with the time when the last ones were not; while the device is not paused,
a rail outside its window pauses it, and one beyond its absolute maximum stops it. The pause ends 2 ms after every rail was back, not
before. CONFIG_SCAN without a mismatch notes the time of the pass, and each mismatch raises DEP_CONFIG_CRC and marks the partitions that use
the block; while the Reeve is stopped there is no scan. OUTAGE_TICK counts a millisecond exactly when a started partition is in outage, and
OUTAGE_COMMIT_TIMER queues the total as a record. PWR_WARN in the firmware stage and after boot stops the device and puts one event log
record, with every uncommitted entry and the outage, ahead of what the Ledger does, unless the Ledger is read-only; it is taken once, and
not before. -/
def Obligations.VoltageScanOutage : Prop :=
  (∀ (rails : List Int) (s : State), Runs s → rails.length = 7 →
    let out := fun l : List Int => l.zipIdx.filter fun r => railOut railWindow r.2 r.1
    let beyond := rails.zipIdx.filter fun r => railOut railLimit r.2 r.1
    (out rails = [] → beyond = [] → out s.dep.rails = [] →
      Machine.exec (.voltageSample rails) s = .next { s with dep := { s.dep with rails := rails } }) ∧
    (out rails = [] → beyond = [] → out s.dep.rails ≠ [] →
      Machine.exec (.voltageSample rails) s = .next { s with dep := { s.dep with rails := rails, railsAt := s.tick } }) ∧
    (out rails ≠ [] → beyond = [] → s.dep.voltageLow = false → ∃ t, Machine.exec (.voltageSample rails) s = .next t ∧ t.dep.paused = true ∧ t.dep.voltageLow = true ∧
      t.dep.rails = rails ∧ t.sys = s.sys) ∧
    (beyond ≠ [] → ∃ t, Machine.exec (.voltageSample rails) s = .next t ∧ t.sys.stopped = true ∧ t.dep.rails = rails) ∧
    (s.dep.paused = true → out s.dep.rails = [] → s.dep.railsAt + 800000 ≤ s.tick →
      Machine.exec .voltageRecovered s = .next { s with dep := { s.dep with paused := false, voltageLow := false } }) ∧
    (s.dep.paused = false ∨ out s.dep.rails ≠ [] ∨ s.tick < s.dep.railsAt + 800000 → Machine.exec .voltageRecovered s = .next s)) ∧
  (∀ (ms : List ConfigBlock) (s : State), Runs s →
    let out := (List.finRange 8).filter fun p => (partOf p s).started && (s.sys.stopped || p.val ∈ s.dep.outage)
    let total := getF fDepOutageTotalMs .depOutage s
    let quiet := { s with dep := { s.dep with outage := [] } }
    (s.sys.reeveRuns = false → Machine.exec (.configScan ms) s = .next s) ∧
    (s.sys.reeveRuns = true → Machine.exec (.configScan []) s = .next { s with dep := { s.dep with scanAt := timeWord s } }) ∧
    (s.sys.reeveRuns = true → ms ≠ [] → Machine.exec (.configScan ms) s = .next (ms.foldl (fun u b => (List.finRange 8).foldl
      (fun u p => if bitOf b.parts.toNat p.val then suspectAll p u else u)
      (raise .depConfigCrc none (b.block.toNat + b.parts.toNat * 65536) u.dep.scanAt u)) s)) ∧
    (out = [] → Machine.exec .outageTick s =
      .next (setF fDepOutageActive .depOutage 0 (setF fDepOutageTotalMs .depOutage total quiet))) ∧
    (out ≠ [] → ∃ mask, Machine.exec .outageTick s =
      .next (setF fDepOutageActive .depOutage mask (setF fDepOutageTotalMs .depOutage (min (2 ^ 32 - 1) (total + 1)) quiet)) ∧
      ∀ p : Fin 8, bitOf mask p.val = true ↔ p ∈ out) ∧
    Machine.exec .outageCommitTimer s = .next (ledgerQueue (.record (.outage total)) s)) ∧
  (∀ (s : State), Runs s →
    (¬(bootStage s = 3 ∨ bootStage s = 4) ∨ s.sys.pwrWarned = true → Machine.exec .pwrWarn s = .next s) ∧
    (bootStage s = 3 ∨ bootStage s = 4 → s.sys.pwrWarned = false → ∃ t, Machine.exec .pwrWarn s = .next t ∧ t.sys.stopped = true ∧ t.sys.pwrWarned = true ∧
      (s.led.readOnly = false → ∃ events, t.led.busy = .record (.eventLog events (getF fDepOutageTotalMs .depOutage t)) :: s.led.busy ∧
        s.led.events <+: events ∧ (∃ e ∈ events, e.id = Event.pwrWarn.id) ∧ t.led.events = [] ∧ t.led.oldestAt = none)))

/-- The resets. While POR_N or SYS_RST_N is low and without power the device is held; POR_N and a device reset start over from the reset
state, with the fuses, what the Ledger committed, the host's memory and the queue kept, and LAST_CAUSE says which, or THERMAL where it ends
SHUTDOWN. SYS_RESET acts 1 us after KEY = 0x52535421 is written, and another value is ignored. -/
def Obligations.DeviceResets : Prop :=
  (∀ (m : Master) (v : Payload) (s : State), Runs s →
    let a := accessed m s
    (barred m s = false → fld fSysResetKey v = 0x52535421 → Machine.exec (.sysResetWrite m v) s = .next { a with sys := { a.sys with resetDue := some (a.tick + 400) } }) ∧
    (barred m s = false → fld fSysResetKey v ≠ 0x52535421 → Machine.exec (.sysResetWrite m v) s = .next a) ∧
    (∀ t, s.sys.resetDue = some t → t ≤ s.tick → Machine.exec .deviceReset s = .next (deviceReset 2 s)) ∧
    (∀ t, s.sys.resetDue = some t → s.tick < t → Machine.exec .deviceReset s = .next s) ∧
    (s.sys.resetDue = none → Machine.exec .deviceReset s = .next s)) ∧
  (∀ (s : State),
    (∃ t, Machine.exec .porNAssert s = .next t ∧ held t = true ∧ t.sys.porLow = true ∧ t.fuses = s.fuses ∧ t.jtag = State.reset.jtag) ∧
    Machine.exec .porNRelease s = .next { s with sys := { s.sys with porLow := false, powered := true } } ∧
    (∃ t, Machine.exec (.sysRstN true) s = .next t ∧ held t = true ∧ t.sys.inReset = true ∧ t.fuses = s.fuses) ∧
    (∃ t, Machine.exec (.sysRstN false) s = .next t ∧ t.sys.inReset = false ∧ t.sys.rstLow = false ∧ t.regs = s.regs ∧ t.jtag.drive = 0) ∧
    (∃ t, Machine.exec .powerLoss s = .next t ∧ held t = true ∧ t.sys.powered = false ∧ t.sys.thermLatch = false ∧ t.fuses = s.fuses)) ∧
  (∀ (cause : Nat) (s : State), StateInv s → cause < 4 → let t := deviceReset cause s
    getF fSysBootStatusLastCause .sysBootStatus t = (if s.sys.thermLatch then 3 else cause) ∧ bootStage t = 0 ∧ t.sys.stopped = false ∧
      t.sys.thermLatch = false ∧ t.pending = s.pending ∧ t.fuses = s.fuses ∧ t.hostMem = s.hostMem ∧ t.parts = [] ∧ t.tables = [] ∧
      t.scratch = [] ∧ t.granary = [] ∧ t.led.busy = [] ∧ (∀ b : Bool, (bankOf b.toNat t).recs = (bankOf b.toNat s).recs) ∧
      t.led.slots = s.led.slots)

/-- Boot goes stage by stage: ROM waits at 97 degrees and above and samples the strap, which enables the monitor unless a fuse or the
register bars it; LEDGER replays the valid bank of higher GEN and fails without one; VERIFY boots a good image left in the recovery buffer,
else the first slot of higher VERSION that passes, else the other, else ends in RECOVERY with the first slot's fault; DONE applies the
layout, raises SVN_MIN to the image's SVN, at most 64, and raises SYS_BOOT_DONE. Out of its stage each does nothing. The Ledger: an
operation whose read-back is right takes effect and leaves the flash; the first failure of one only tries it again, and a second makes the
Ledger read-only with LEDGER_FAIL. Every 10 s, or with 64 waiting, the oldest 64 events at most become one record; earlier, nothing does. -/
def Obligations.BootAndLedger : Prop :=
  (∀ (hot : Int) (strap : Bool) (s : State), Runs s → StateInv s →
    let a := firstSlot s
    (bootStage s = 0 → hot < 97 * 16 → ∃ t, Machine.exec (.bootRomDone hot strap) s = .next t ∧ bootStage t = 1 ∧ t.mon.strap = strap ∧
      (t.mon.enabled = true ↔ strap = true ∧ s.fuses.lockout = false ∧ getF fMonCtlDisable .monCtl s = 0)) ∧
    (bootStage s ≠ 0 ∨ 97 * 16 ≤ hot → Machine.exec (.bootRomDone hot strap) s = .next s) ∧
    (bootStage s = 1 → bootBank s = none → Machine.exec .bootLedgerDone s = .next (setF fSysBootStatusError .sysBootStatus 6 (setStage 5 s))) ∧
    (bootStage s = 1 → ∀ k, bootBank s = some k → ∃ t, Machine.exec .bootLedgerDone s = .next t ∧ bootStage t = 2 ∧ t.led.active = k ∧
      t.led.recovered = (bankOf k s).dirtyTail) ∧
    (bootStage s = 2 → s.sys.bufferedImage = true → imageFault (recoveryByte s) s = 0 → Machine.exec .bootVerifyDone s =
      .next (bootSlot 0 (programBuffer { s with sys := { s.sys with bufferedImage := false } }))) ∧
    (bootStage s = 2 → ¬(s.sys.bufferedImage = true ∧ imageFault (recoveryByte s) s = 0) → let u := { s with sys := { s.sys with bufferedImage := false } }
      Machine.exec .bootVerifyDone s = .next (if slotFault a s = 0 then bootSlot a u
        else if slotFault (1 - a) s = 0 then bootSlot (1 - a) { u with sys := { u.sys with rejected := some (a, slotFault a s) } }
        else setF fSysBootStatusError .sysBootStatus (slotFault a s) (setStage 6 u))) ∧
    (bootStage s = 3 → ∃ t, Machine.exec .sysBootDone s = .next t ∧ bootStage t = 4 ∧ t.fuses.svnMin = min 64 (max s.fuses.svnMin s.sys.imageSvn) ∧
      t.hbm.retired = failedPcs s ∧ t.hbm.relayout = false ∧ t.hif.hb = true) ∧
    (bootStage s ≠ 1 → Machine.exec .bootLedgerDone s = .next s) ∧ (bootStage s ≠ 2 → Machine.exec .bootVerifyDone s = .next s) ∧
    (bootStage s ≠ 3 → Machine.exec .sysBootDone s = .next s) ∧
    (bootStage (bootSlot a s) = 3 ∧ getF fSysBootStatusSlot .sysBootStatus (bootSlot a s) = a)) ∧
  (∀ (o : LedOp) (rest : List LedOp) (s : State), Runs s →
    let total := getF fDepOutageTotalMs .depOutage s
    let left := s.led.events.drop 64
    let due := (∃ t, s.led.oldestAt = some t ∧ t + 4000000000 ≤ s.tick) ∨ 64 ≤ s.led.events.length
    (s.led.busy = [] → ∀ ok, Machine.exec (.ledgerProgramDone ok) s = .next s) ∧
    (s.led.busy = o :: rest → Machine.exec (.ledgerProgramDone true) s = .next (opDone o { s with led := { s.led with busy := rest, retries := 0 } })) ∧
    (s.led.busy = o :: rest → s.led.retries = 0 → Machine.exec (.ledgerProgramDone false) s = .next { s with led := { s.led with retries := 1 } }) ∧
    (s.led.busy = o :: rest → s.led.retries ≠ 0 → ∃ t, Machine.exec (.ledgerProgramDone false) s = .next t ∧
      t.led.readOnly = true ∧ t.led.busy = [] ∧ 3 ≤ t.hif.sev) ∧
    (s.led.events ≠ [] → due → Machine.exec .eventLogCommitTimer s = .next (ledgerQueue (.record (.eventLog (s.led.events.take 64) total))
      { s with led := { s.led with events := left, oldestAt := if left = [] then none else some s.tick } })) ∧
    (s.led.events = [] ∨ ¬due → Machine.exec .eventLogCommitTimer s = .next s))

/-- The thermal regime: a second sample in a row of 115 degrees or more is SHUTDOWN: the device is stopped and held, the latch is set. From
NORMAL, 100 degrees is WARN with THERM_WARN; from WARN, 105 degrees is THROTTLE at step 1; 50 ms below 97 is NORMAL; changes of state lie 50
ms apart. A step rises to 3 at most after 50 ms at 105 or more and falls after 50 ms below 102, from step 1 to WARN, where the DMA goes on;
else nothing changes. STANDBY: SYS_POWER.REQ = 1 enters it while the device is IDLE and is ignored otherwise; REQ = 0 leaves it and starts
the exit; the exit's end writes the completions that waited for it, oldest first. -/
def Obligations.ThermalAndStandby : Prop :=
  (∀ (sensors : List Int) (s : State), Runs s → StateInv s →
    let t := (hottestSensor sensors).2
    let seen := recalibrate (noteSample sensors s)
    let now := (hottestSensor s.therm.sensors).2
    let st := getF fSysThermStatusState .sysThermStatus s
    let step := getF fSysThermStatusStep .sysThermStatus s
    (sensors.length = 24 → t < 115 * 16 ∨ s.therm.hotRun = 0 → Machine.exec (.thermSample sensors) s = .next (thermEval t seen)) ∧
    (sensors.length = 24 → 115 * 16 ≤ t → 1 ≤ s.therm.hotRun → Machine.exec (.thermSample sensors) s = .next (shutdown t seen)) ∧
    (let u := shutdown t s
     held u = true ∧ u.sys.thermLatch = true ∧ u.hbm.powered = false ∧ (s.led.busy = [] → u.sys.stopped = true ∧ u.parts = s.parts)) ∧
    Machine.exec .thermDwellTimer s = .next (thermEval now s) ∧
    (st = 0 → 100 * 16 ≤ now → changeFree s = true → thermEval now s = raise .thermWarn none 0 0 (noteChange (setTherm 1 0 s))) ∧
    (st = 1 → 105 * 16 ≤ now → changeFree s = true → thermEval now s = setStep 1 (noteChange s)) ∧
    (st = 1 → now < 105 * 16 → heldLong s.therm.below97 s = true → changeFree s = true →
      thermEval now s = raise .thermNormal none 0 0 (noteChange (setTherm 0 0 s))) ∧
    (st = 0 ∨ st = 1 → changeFree s = false → thermEval now s = s) ∧
    (st = 0 → now < 100 * 16 → thermEval now s = s) ∧
    (st = 1 → now < 105 * 16 → heldLong s.therm.below97 s = false → thermEval now s = s) ∧
    (st = 2 → heldLong s.therm.above105 s = false → heldLong s.therm.below102 s = false → thermEval now s = s) ∧
    (st = 2 → heldLong s.therm.above105 s = false → heldLong s.therm.below102 s = true → step ≤ 1 → thermEval now s =
      if changeFree s = true then dmaResume (raise .thermWarn none 0 0 (noteChange (setTherm 1 0 (raise .thermThrottle none 0 0 s)))) else s) ∧
    (st = 2 → heldLong s.therm.above105 s = true → step < 3 → thermEval now s = setStep (step + 1) s) ∧
    (st = 2 → heldLong s.therm.above105 s = true → 3 ≤ step → thermEval now s = s) ∧
    (st = 2 → heldLong s.therm.above105 s = false → heldLong s.therm.below102 s = true → 1 < step → thermEval now s = setStep (step - 1) s)) ∧
  (∀ (m : Master) (v : Payload) (s : State), Runs s →
    let a := accessed m s
    let writes := fun (c : Instr) => barred m s = false →
      (fld fSysPowerReq v = 1 → isIdle a = true → Machine.exec c s = .next (setF fSysPowerReq .sysPower 1 (enterStandby a))) ∧
      (fld fSysPowerReq v = 1 → isIdle a = false → Machine.exec c s = .next a) ∧
      (fld fSysPowerReq v = 0 → a.sys.standby = true → Machine.exec c s = .next (setF fSysPowerReq .sysPower 0
        { a with sys := { a.sys with standby := false, standbyByD3 := false, exiting := true } })) ∧
      (fld fSysPowerReq v = 0 → a.sys.standby = false → Machine.exec c s = .next a)
    writes (.standbyRequest m v) ∧ writes (.standbyExitRequest m v) ∧
    (s.sys.exiting = true → Machine.exec .standbyExitDone s = .next (completeWaiting { s with sys := { s.sys with exiting := false } })) ∧
    (s.sys.exiting = false → Machine.exec .standbyExitDone s = .next s) ∧
    (let t := enterStandby a
     t.sys.standby = true ∧ t.parts = a.parts ∧ t.granary = a.granary ∧ t.scratch = a.scratch ∧ t.time = a.time))

/-- The Steward's arithmetic, logic and immediate instructions, and its loads, stores, multiplies and register moves: a RUNNING core, not
paused by THROTTLE, whose word at the PC is this instruction and legal, takes the new registers and flags, counts its cycle, and goes on to
the next word, or repeats the word while a REP counts; no other core and nothing else of the device changes. -/
def Obligations.StewardComputes : Prop :=
  ∀ (c : Fin 8) (s : State), Runs s → StateInv s → throttled s = false →
    let x := coreOf c.val s
    let w := x.word x.pc
    x.state = 1 → legal w = true → x.stopDue = false → x.pc < 16383 →
    let y : Core := { x with cycles := wrap 48 (x.cycles + 1) }
    let does := fun (i : Instr) (op : Nat) (z : Core) => opOf w = op → Machine.exec i s = .next (setCore c.val
      (match x.rep with | some (n + 2) => { z with rep := some (n + 1) } | _ => { z with pc := x.pc + 1, rep := none }) s)
    let d := f1d w
    let a := y.reg (f1s w)
    let b := y.reg (f1t w)
    let ai := signedOf 24 a.toNat
    let bi := signedOf 24 b.toNat
    let carry : Nat := if y.sr.c then 1 else 0
    let sat := satOf w
    let n := amount w y
    let im := immOf w
    let iw := BitVec.ofNat 24 (unsignedOf 24 im)
    let acc := accOf w
    let av := y.accInt acc
    let dv := y.reg d
    let k := bitsOf w 20 18
    let m := bitsOf w 17 16
    let product := y.regInt (bitsOf w 23 21) * y.regInt (8 + bitsOf w 20 18)
    let sh := shOf w
    does (.stwNop c) 0x00 y ∧
    does (.stwAdd c) 0x01 (y.put sat d (ai + bi) (some (2 ^ 24 ≤ a.toNat + b.toNat))) ∧
    does (.stwAdc c) 0x02 (y.put sat d (ai + bi + carry) (some (2 ^ 24 ≤ a.toNat + b.toNat + carry))) ∧
    does (.stwSub c) 0x03 (y.put sat d (ai - bi) (some (a.toNat < b.toNat))) ∧
    does (.stwSbc c) 0x04 (y.put sat d (ai - bi - carry) (some (a.toNat < b.toNat + carry))) ∧
    does (.stwCmp c) 0x05 (y.flagsOf (ai - bi) (a.toNat < b.toNat)) ∧
    does (.stwAnd c) 0x06 (y.putLogic d (a &&& b)) ∧
    does (.stwOr c) 0x07 (y.putLogic d (a ||| b)) ∧
    does (.stwXor c) 0x08 (y.putLogic d (a ^^^ b)) ∧
    does (.stwShl c) 0x09 (y.put sat d (if 23 < n then 0 else ai * 2 ^ n) none) ∧
    does (.stwShr c) 0x0A (y.putZn d (BitVec.ofNat 24 (a.toNat / 2 ^ n))) ∧
    does (.stwAsr c) 0x0B (y.putZn d (BitVec.ofNat 24 (unsignedOf 24 (ai / 2 ^ n)))) ∧
    does (.stwMul c) 0x0C (y.put sat d ((ai * bi + 2 ^ 22) / 2 ^ 23) none) ∧
    does (.stwMin c) 0x0D (y.putZn d (if ai ≤ bi then a else b)) ∧
    does (.stwMax c) 0x0E (y.putZn d (if bi ≤ ai then a else b)) ∧
    does (.stwAbs c) 0x0F (y.put sat d ai.natAbs none) ∧
    does (.stwNeg c) 0x10 (y.put sat d (-ai) (some (0 < a.toNat))) ∧
    does (.stwPopc c) 0x11 (y.putZ d (BitVec.ofNat 24 (popCount 24 a.toNat))) ∧
    does (.stwNorm c) 0x12 (y.putZ d (BitVec.ofNat 24 (redundantSigns 24 ai))) ∧
    does (.stwMov c) 0x13 (y.putZn d a) ∧
    does (.stwLdi c) 0x14 (y.setReg d iw) ∧
    does (.stwLdh c) 0x15 (y.setReg d (setFld ⟨23, 16⟩ (bitsOf w 7 0) dv)) ∧
    does (.stwAddi c) 0x16 (y.put sat d (signedOf 24 dv.toNat + signedOf 24 iw.toNat) (some (2 ^ 24 ≤ dv.toNat + iw.toNat))) ∧
    does (.stwCmpi c) 0x17 (y.flagsOf (signedOf 24 dv.toNat - im) (dv.toNat < unsignedOf 24 im)) ∧
    does (.stwLd c) 0x18 ((y.setReg d (y.load (memAddr w y))).postMod k m) ∧
    does (.stwSt c) 0x19 ((y.store (memAddr w y) dv).postMod k m) ∧
    does (.stwMpy c) 0x1A (f3Loads w (y.putAcc sat acc product)) ∧
    does (.stwMac c) 0x1B (f3Loads w (y.putAcc sat acc (av + product))) ∧
    does (.stwMsu c) 0x1C (f3Loads w (y.putAcc sat acc (av - product))) ∧
    does (.stwLd2 c) 0x1D (f3Loads w y) ∧
    does (.stwMva c) 0x1E (mvaOf w y) ∧
    does (.stwLda c) 0x1F (ldaOf w y) ∧
    does (.stwSha c) 0x20 (y.putAcc sat acc (if 0 ≤ sh then av / 2 ^ sh.toNat else av * 2 ^ (-sh).toNat)) ∧
    does (.stwAdda c) 0x21 (y.putAcc sat acc (av + y.accInt (1 - acc))) ∧
    does (.stwClra c) 0x22 (y.setAcc acc 0) ∧
    does (.stwMovp c) 0x28 (if bitOf w 25 then y.setAddrReg m k (BitVec.ofNat 16 dv.toNat) else y.setReg d (BitVec.ofNat 24 (y.addrReg m k).toNat)) ∧
    does (.stwSetp c) 0x29 (y.setAddrReg (bitsOf w 25 24) (bitsOf w 23 21) (BitVec.ofNat 16 (bitsOf w 15 0))) ∧
    does (.stwMovs c) 0x2A
      (let z := y.setReg d (BitVec.ofNat 24 (y.special c.val (bitsOf w 20 16)))
       if bitOf w 25 then y.setSpecial (bitsOf w 20 16) dv
       else if bitsOf w 20 16 = 10 then { z with cycleH := y.cycles / 2 ^ 24 } else z)

/-- Saturation, for a result to a D register and to an accumulator: under S a result outside the register's range is replaced by the nearer
limit and the sticky SS set; without S it wraps; one that fits is stored as it is whatever S is. V says that it did not fit, Z and N follow
what is stored, C is set only where given, and nothing else of the core changes. -/
def Obligations.StewardSaturation : Prop :=
  (∀ (sat : Bool) (d : Nat) (e : Int) (k : Option Bool) (x : Core), d < x.d.length →
    let y := x.put sat d e k
    let v := signedOf 24 (y.reg d).toNat
    (-(2 ^ 23) ≤ e → e ≤ 2 ^ 23 - 1 → v = e ∧ y.sr.v = false ∧ y.sr.ss = x.sr.ss) ∧
    (2 ^ 23 - 1 < e → sat = true → v = 2 ^ 23 - 1 ∧ y.sr.v = true ∧ y.sr.ss = true) ∧
    (e < -(2 ^ 23) → sat = true → v = -(2 ^ 23) ∧ y.sr.v = true ∧ y.sr.ss = true) ∧
    (e < -(2 ^ 23) ∨ 2 ^ 23 - 1 < e → sat = false → (v - e) % 2 ^ 24 = 0 ∧ y.sr.v = true ∧ y.sr.ss = x.sr.ss) ∧
    (y.sr.z = true ↔ v = 0) ∧ (y.sr.n = true ↔ v < 0) ∧ y.sr.c = k.getD x.sr.c ∧ y.sr.ien = x.sr.ien ∧ y.sr.inh = x.sr.inh ∧
    (∀ i, i ≠ d → y.reg i = x.reg i) ∧ y = { x with d := y.d, sr := y.sr }) ∧
  (∀ (sat : Bool) (i : Nat) (e : Int) (x : Core), i < x.a.length →
    let y := x.putAcc sat i e
    let v := y.accInt i
    (-(2 ^ 55) ≤ e → e ≤ 2 ^ 55 - 1 → v = e ∧ y.sr.v = false ∧ y.sr.ss = x.sr.ss) ∧
    (2 ^ 55 - 1 < e → sat = true → v = 2 ^ 55 - 1 ∧ y.sr.v = true ∧ y.sr.ss = true) ∧
    (e < -(2 ^ 55) → sat = true → v = -(2 ^ 55) ∧ y.sr.v = true ∧ y.sr.ss = true) ∧
    (e < -(2 ^ 55) ∨ 2 ^ 55 - 1 < e → sat = false → (v - e) % 2 ^ 56 = 0 ∧ y.sr.v = true ∧ y.sr.ss = x.sr.ss) ∧
    (y.sr.z = true ↔ v = 0) ∧ (y.sr.n = true ↔ v < 0) ∧ y.sr.c = x.sr.c ∧
    (∀ j, j ≠ i → y.accInt j = x.accInt j) ∧ y = { x with a := y.a, sr := y.sr })

/-- The Steward's flow of control: a branch, call or return whose condition holds takes 3 cycles and goes on at its target, and otherwise at
the next word; a call at eight return addresses, a return at none, a REP of a flow instruction and the end of program memory (of a NOP) are
faults; RTI takes PC and SR from the return register; WAIT sleeps unless an enabled interrupt is pending; HALT stops the core; an illegal
word, or an uncorrectable error of its memories, faults it. Interrupts of a core: the lowest-numbered pending and enabled source enters
while IEN is 1, INH is 0 and no repeat runs: PC and SR are saved, its IP bit clears, IEN clears and INH is set, and the PC is at the
source's vector. A timer with a period makes its source pending; a stall costs a cycle, but none in a repeat. -/
def Obligations.StewardControl : Prop :=
  ((∀ (c : Fin 8) (s : State), Runs s → StateInv s → throttled s = false →
    let x := coreOf c.val s
    let w := x.word x.pc
    x.state = 1 → x.stopDue = false → x.rep = none → x.pc < 16383 →
    let y : Core := { x with cycles := wrap 48 (x.cycles + 1) }
    let u := setCore c.val y s
    let taken := f6Taken c.val w u
    let goes := fun (pc : Nat) (z : Core) => setCore c.val { z with pc := pc, cycles := wrap 48 (y.cycles + 2), rep := none } s
    let on := fun z : Core => setCore c.val { z with pc := x.pc + 1, rep := none } s
    let count := if bitOf w 25 then (x.reg (f1d w)).toNat % 65536 else bitsOf w 15 0
    let block := x.ptr (bitsOf w 20 18)
    (legal w = false → Machine.exec (.stwIllegal c false) s = .next (stwFault c.val 1 s)) ∧
    Machine.exec (.stwIllegal c true) s = .next (stwFault c.val 4 (sramError .uncorrectable s)) ∧
    (legal w = true →
      (opOf w = 0x23 → taken = true → Machine.exec (.stwBr c) s = .next (goes (bitsOf w 13 0) y)) ∧
      (opOf w = 0x23 → taken = false → Machine.exec (.stwBr c) s = .next (on y)) ∧
      (opOf w = 0x24 → taken = true → x.stack.length < 8 →
        Machine.exec (.stwCall c) s = .next (goes (bitsOf w 13 0) { y with stack := (x.pc + 1) % 16384 :: x.stack })) ∧
      (opOf w = 0x24 → taken = true → 8 ≤ x.stack.length → Machine.exec (.stwCall c) s = .next (stwFault c.val 3 u)) ∧
      (opOf w = 0x24 → taken = false → Machine.exec (.stwCall c) s = .next (on y)) ∧
      (opOf w = 0x25 → taken = true → ∀ r rest, x.stack = r :: rest → Machine.exec (.stwRet c) s = .next (goes r { y with stack := rest })) ∧
      (opOf w = 0x25 → taken = true → x.stack = [] → Machine.exec (.stwRet c) s = .next (stwFault c.val 3 u)) ∧
      (opOf w = 0x25 → taken = false → Machine.exec (.stwRet c) s = .next (on y)) ∧
      (opOf w = 0x26 → Machine.exec (.stwRti c) s = .next (goes x.ret.1 { y with sr := x.ret.2 })) ∧
      (opOf w = 0x27 → isFlow (x.word (x.pc + 1)) = false → Machine.exec (.stwRep c) s =
        .next (setCore c.val { y with pc := x.pc + 1, rep := some (if count = 0 then 65536 else count) } s)) ∧
      (opOf w = 0x27 → isFlow (x.word (x.pc + 1)) = true → Machine.exec (.stwRep c) s =
        .next (stwFault c.val 2 (setCore c.val { y with pc := x.pc + 1 } u))) ∧
      (opOf w = 0x2B → x.xfers.length < 4 → Machine.exec (.stwXreq c) s =
        .next (on (({ y with xfers := x.xfers ++ [readBlock x block] } : Core).putContainer (block + 3) 0))) ∧
      (opOf w = 0x2B → 4 ≤ x.xfers.length → Machine.exec (.stwXreq c) s = .next u) ∧
      (opOf w = 0x2C → x.xfers = [] → Machine.exec (.stwXwait c) s = .next (on y)) ∧
      (opOf w = 0x2C → x.xfers ≠ [] → Machine.exec (.stwXwait c) s = .next u) ∧
      (opOf w = 0x2D → Nat.land x.ip x.ie = 0 → Machine.exec (.stwWait c) s = .next (on { y with state := 2 })) ∧
      (opOf w = 0x2D → Nat.land x.ip x.ie ≠ 0 → Machine.exec (.stwWait c) s = .next (on y)) ∧
      (opOf w = 0x2E → Machine.exec (.stwHalt c) s = .next (raise .stwStopped (some x.part) (arg0 c.val x.part.val 0) (x.pc + 1)
        (setCore c.val { y with state := 4, pc := x.pc + 1 } s))))) ∧
  (∀ (c : Fin 8) (s : State), Runs s → StateInv s → throttled s = false → let x := coreOf c.val s
    x.state = 1 → x.stopDue = false → x.rep = none → x.pc = 16383 → legal (x.word x.pc) = true → opOf (x.word x.pc) = 0 →
    Machine.exec (.stwNop c) s = .next (stwFault c.val 5 (setCore c.val { x with cycles := wrap 48 (x.cycles + 1) } s)))) ∧
  (∀ (c : Fin 8) (s : State), Runs s → StateInv s →
    let x := coreOf c.val s
    let ready := fun k : Nat => bitOf x.ip k = true ∧ bitOf x.ie k = true
    (∀ k, k < 4 → throttled s = false → x.active = true → x.sr.ien = true → x.sr.inh = false → x.rep = none → ready k → (∀ j, j < k → ¬ready j) →
      Machine.exec (.stwInterruptEntry c) s = .next (setCore c.val
        { x with ret := (x.pc, x.sr), ip := putBits x.ip k k 0, sr := { x.sr with inh := true, ien := false }, pc := 4 * (k + 1), state := 1 } s)) ∧
    (throttled s = true ∨ x.active = false ∨ x.sr.ien = false ∨ x.sr.inh = true ∨ x.rep ≠ none ∨ (∀ j, j < 4 → ¬ready j) →
      Machine.exec (.stwInterruptEntry c) s = .next s) ∧
    (x.timer ≠ 0 → Machine.exec (.stwTimerExpire c) s = .next (setCore c.val (x.pend 3) s)) ∧
    (x.timer = 0 → Machine.exec (.stwTimerExpire c) s = .next s) ∧
    (x.state = 1 → x.rep = none → Machine.exec (.stwSlotStall c) s =
      .next (setCore c.val { x with cycles := wrap 48 (x.cycles + 1) } s)) ∧
    (x.state ≠ 1 ∨ x.rep ≠ none → Machine.exec (.stwSlotStall c) s = .next s))

/-- A core's transfer engine runs the transfer at the head of its queue: where a check of its kind fails the result is the lowest failing
code with no entry moved; else a READ, WRITE, COMMIT or RANGE is performed. Its end writes the count, of a ring read the entries lost, and
then the status with DONE into the block and makes the XDONE source pending; nothing runs under THROTTLE or while the Stewards' interface
drains, and nothing runs or ends while the core repeats an instruction. -/
def Obligations.StewardTransfers : Prop :=
  ∀ (c : Fin 8) (t : Xfer) (rest : List Xfer) (s : State), Runs s → (coreOf c.val s).xfers = t :: rest → t.result = none →
    let old := coreOf c.val s
    let p := old.part
    let run := fun (i : Instr) (kind : Nat) (checks : List Check) (effect : State) => t.kind = kind →
      let still := throttled s = true ∨ .stewards ∈ s.fab.draining ∨ old.rep ≠ none
      (still → Machine.exec i s = .next s) ∧
      (¬still → firstFail checks = none → Machine.exec i s = .next effect) ∧
      (¬still → ∀ k, firstFail checks = some k → Machine.exec i s = .next (xferResult c.val k.code 0 none s))
    let w := writeXfer c.val t p t.count 0 s
    let b := commitBank p t.sC t.ref s
    let r := detRange (BitVec.ofNat 48 (t.aux % 64 * 2048 + t.index % 2048)) s
    run (.stwXferRead c) 0 (xferChecks false t p s) (xferRead c.val t p s) ∧
    run (.stwXferWrite c) 1 (xferChecks true t p s) (xferResult c.val (w.2.1.getD 0) w.1 none w.2.2) ∧
    run (.stwXferCommit c) 2 [chk t.rsvd 0x11, chk (partOf p s).commit.isSome 0x31]
      (xferResult c.val (if t.sC < b.1 then 0x02 else 0) 0 none b.2) ∧
    run (.stwXferRange c) 3 [chk t.rsvd 0x11] (xferResult c.val (if r.1 then 0 else 0x13) 0 none r.2) ∧
    (∀ status n lost, let u := setCore c.val { old with xfers := { t with result := some (status, n, lost) } :: rest } s
      let counted := ({ old with xfers := rest } : Core).putContainer (t.block + 4) (n % 2 ^ 24)
      let noted := match lost with | some l => counted.putContainer (t.block + 5) l | none => counted
      (old.rep ≠ none → Machine.exec (.stwXferDone c) u = .next u) ∧
      (old.rep = none → Machine.exec (.stwXferDone c) u = .next (setCore c.val
        ((noted.putContainer (t.block + 3) (unsignedOf 32 (signedOf 24 (2 ^ 23 + status)))).pend 0) s))) ∧
    Machine.exec (.stwXferDone c) s = .next s

/-- DMA_CH_n_CTL: the host's write to channels 28 to 31 is ignored. On an idle channel START starts the transfer of its registers, or in
descriptor mode the chain at SRC, DONE and RESULT cleared and BUSY set; MODE and QOS are stored, QOS 15 as 14. A chain whose address a
descriptor may not have ends at once. While BUSY they keep, START is ignored, and ABORT stops the channel with result 1. The three commands
are one register write. The DMA engine's bursts, each answered once the fabric has performed it: a read's data goes to its write, or is
discarded by a channel that ends; an acknowledged write counts; a burst that fails makes the transfer end with result 2 or 3 once nothing is
outstanding. A descriptor that arrives runs; one that cannot be read ends the chain with DESC_ERR, and one with a reserved bit set too, its
whole count as residue. A burst keeps to 256 B boundaries of both ends. The end of a register-mode transfer sets DONE, RESULT and RESIDUE
and clears BUSY and the channel; a success raises DMA_DONE under EVT_EN alone, an abort raises DMA_ABORT, and another failure DMA_BUS_ERROR.
-/
def Obligations.DmaEngine : Prop :=
  (∀ (m : Master) (ch : Fin 32) (v : Payload) (s : State), Accepts m s →
    let a := accessed m s
    let all := fun (t : State) => Machine.exec (.dmaStartRegister m ch v) s = .next t ∧ Machine.exec (.dmaStartDescriptor m ch v) s = .next t ∧
      Machine.exec (.dmaAbortWrite m ch v) s = .next t
    let r := Reg.dmaCtl ch
    let e := setF fDmaCtlEvtEn r (fld fDmaCtlEvtEn v) a
    let t := setF fDmaCtlMode r (fld fDmaCtlMode v) (setF fDmaCtlQos r (min 14 (fld fDmaCtlQos v)) e)
    let st := Reg.dmaStatus ch
    let u := setF fDmaStatusResult st 0 (setF fDmaStatusDone st 0 (setF fDmaStatusBusy st 1 t))
    let src := dmaAddr ch.val .dmaSrcH .dmaSrcL t
    let dst := dmaAddr ch.val .dmaDstH .dmaDstL t
    let n := getF fDmaCountCount (.dmaCount ch) t
    let copy : DmaChan := ⟨src, dst, if n = 0 then 2 ^ 32 else n, 0, [], [], [], 0, none, false, false, false, none, 0, 0, true, false, 0, 0, 0⟩
    let chain : DmaChan := ⟨0, 0, 0, 0, [], [], [], 0, none, false, true, true, none, src, 0, false, false, dst, 0, 0⟩
    let mine := ¬(m = .host ∧ 28 ≤ ch.val)
    (¬mine → all a) ∧
    (mine → dmaOf ch.val a = none → fld fDmaCtlStart v = 0 → all t) ∧
    (mine → dmaOf ch.val a = none → fld fDmaCtlStart v = 1 → getF fDmaCtlMode r t ≠ 1 → all (dmaSettle ch.val (setDma ch.val (some copy) u))) ∧
    (mine → dmaOf ch.val a = none → fld fDmaCtlStart v = 1 → getF fDmaCtlMode r t = 1 → (descPlace src u).isSome = true →
      all (dmaIssue ch.val 16 (setDma ch.val (some chain) u))) ∧
    (mine → dmaOf ch.val a = none → fld fDmaCtlStart v = 1 → getF fDmaCtlMode r t = 1 → descPlace src u = none → all (dmaNoChain ch.val chain u)) ∧
    (mine → dmaOf ch.val a ≠ none → fld fDmaCtlAbort v = 0 → all e) ∧
    (mine → dmaOf ch.val a ≠ none → fld fDmaCtlAbort v = 1 → all (dmaStop ch.val 1 (setF fDmaCtlAbort r 1 e)))) ∧
  ((∀ (ch : Fin 32) (ok : Bool) (c : DmaChan) (s : State), Runs s → dmaOf ch.val s = some c →
    (∀ o len n rest, c.reads = (o, len, n) :: rest →
      let goes := fun (d : DmaChan) => Machine.exec (.dmaBurstReadDone ch ok) s =
        .next (dmaSettle ch.val (setDma ch.val (some { d with reads := rest }) (takeReply n s)))
      (replyOf n s = none → Machine.exec (.dmaBurstReadDone ch ok) s = .next s) ∧
      (∀ r, replyOf n s = some r → c.discard = true → goes c) ∧
      (∀ bs, replyOf n s = some (some bs) → c.discard = false → ok = true → goes { c with got := c.got ++ [(o, bs)] }) ∧
      (∀ r, replyOf n s = some r → c.discard = false → ok = false ∨ r = none → goes { c with got := [], ending := some 2, discard := true })) ∧
    (∀ o len n rest, c.writes = (o, len, n) :: rest →
      let goes := fun (d : DmaChan) => Machine.exec (.dmaBurstWriteAck ch ok) s =
        .next (dmaSettle ch.val (setDma ch.val (some { d with writes := rest }) (takeReply n s)))
      (replyOf n s = none → Machine.exec (.dmaBurstWriteAck ch ok) s = .next s) ∧
      (∀ bs, replyOf n s = some (some bs) → ok = true → c.ending ≠ some 3 → goes { c with written := c.written + len }) ∧
      (∀ r, replyOf n s = some r → ok = false ∨ r = none ∨ c.ending = some 3 → goes { c with got := [], ending := some 3, discard := true })) ∧
    (c.fetching = false ∨ c.fetchNo = none → Machine.exec (.dmaDescFetched ch ok) s = .next s) ∧
    (∀ n, c.fetching = true → c.fetchNo = some n →
      let d : DmaChan := { c with fetching := false, fetchNo := none }
      (replyOf n s = none → Machine.exec (.dmaDescFetched ch ok) s = .next s) ∧
      (∀ r e, replyOf n s = some r → c.ending = some e ∨ c.ending = none ∧ e = 4 ∧ (ok = false ∨ r = none) → ∃ u, Machine.exec (.dmaDescFetched ch ok) s =
        .next (dmaEnd ch.val d e (Config.freeValue s.free % 2 ^ 33) u) ∧ u = { takeReply n s with free := s.free + 1 }) ∧
      (∀ bs, replyOf n s = some (some bs) → c.ending = none → ok = true →
        let q2 := leAt bs 16 8
        let count := if bitsOf q2 31 0 = 0 then 2 ^ 32 else bitsOf q2 31 0
        let e : DmaChan := { d with src := leAt bs 0 8, dst := leAt bs 8 8, count := count, next := 0, written := 0, last := bitOf q2 32, evt := bitOf q2 33,
                                    nextAt := leAt bs 24 8 }
        let t := setDma ch.val (some e) (takeReply n s)
        Machine.exec (.dmaDescFetched ch ok) s = .next (if bitsOf q2 63 34 ≠ 0 then dmaEnd ch.val e 4 count t else dmaSettle ch.val t)))) ∧
  (∀ c : DmaChan, c.next < c.count → 0 < c.burst ∧ c.burst ≤ 256 ∧ c.next + c.burst ≤ c.count ∧
    (c.src + c.next) % 256 + c.burst ≤ 256 ∧ (c.dst + c.next) % 256 + c.burst ≤ 256)) ∧
  (∀ (ch : Fin 32) (c : DmaChan) (result residue : Nat) (s : State), StateInv s → dmaOf ch.val s = some c → c.chain = false →
    let status := BitVec.ofNat 48 (result * 2 ^ 45 + 2 ^ 43 + residue % 2 ^ 33)
    let t := setF fDmaCtlAbort (.dmaCtl ch) 0 (setDma ch.val none (setReg (.dmaStatus ch) status s))
    let on := getF fDmaCtlEvtEn (.dmaCtl ch) t = 1
    dmaEnd ch.val c result residue s = (if result = 0 then (if on then raise .dmaDone none (arg0 ch.val 0 0) 0 t else t)
      else raise (if result = 1 then .dmaAbort else .dmaBusError) none (arg0 ch.val 0 result) residue t) ∧
    dmaOf ch.val t = none ∧ regOf (.dmaStatus ch) t = status ∧ (∀ k : Fin 32, k ≠ ch → dmaOf k.val t = dmaOf k.val s))

/-- The SMBus target: while the Reeve runs, each read command answers its words, low byte first, and changes nothing (its power is a free
value, log 63); a write, or a command of no row, is a NACK; while the Reeve restarts every one is. The boundary-scan port while powered:
each code selects its register and what drives the pins, EXTEST, CLAMP and HIGHZ only while SYS_RST_N is low; IDCODE scans 0x14096E5B least
significant bit first; the boundary register of 16 cells gives what it captured before what was scanned in, and keeps what is left; what
EXTEST captures is free (log 67). -/
def Obligations.BoardPorts : Prop :=
  (∀ (s : State), Runs s →
    let answer := fun bs : List Byte => emit (.smbus (some bs)) s
    (s.sys.reeveRuns = true →
      Machine.exec .smbReadAttn s = .next (answer (leBytes 2 (attnNat s))) ∧
      Machine.exec .smbReadPart s = .next (answer (leBytes 2 (getF fSysIdPart .sysId s))) ∧
      Machine.exec .smbReadTj s = .next (answer (leBytes 2 (unsignedOf 16 (tj s)))) ∧
      (∃ t, Machine.exec .smbReadPower s = .next (emit (.smbus (some (leBytes 2 (Config.freeValue s.free)))) t) ∧ t = { s with free := s.free + 1 }) ∧
      Machine.exec .smbReadTemps s = .next (answer (s.therm.sensors.flatMap fun x => leBytes 2 (unsignedOf 16 x))) ∧
      Machine.exec .smbReadRails s = .next (answer (s.dep.rails.flatMap fun x => leBytes 2 (unsignedOf 16 (x / 10)))) ∧
      Machine.exec .smbReadOutage s = .next (answer (leBytes 4 (getF fDepOutageTotalMs .depOutage s)))) ∧
    (s.sys.reeveRuns = false → ∀ c ∈ [Instr.smbReadAttn, .smbReadPart, .smbReadTj, .smbReadPower, .smbReadTemps, .smbReadRails, .smbReadOutage],
      Machine.exec c s = .next (emit (.smbus none) s)) ∧
    (∀ command : BitVec 8, command.toNat ≤ 6 → Machine.exec (.smbOther command false) s = .next s) ∧
    (∀ (command : BitVec 8) (write : Bool), write = true ∨ 6 < command.toNat → Machine.exec (.smbOther command write) s = .next (emit (.smbus none) s))) ∧
  (∀ (pins scan : List Bool) (code : BitVec 8) (s : State), s.sys.powered = true →
    let low := s.sys.rstLow
    let load := fun (ir : BitVec 8) (drive : Nat) => { s with jtag := { s.jtag with ir := ir, drive := drive } }
    let shifted := fun (captured : List Bool) (t : State) => emit (.jtag ((captured ++ scan).take scan.length))
      { t with jtag := { t.jtag with boundary := ((captured ++ scan).drop scan.length).take 16 } }
    (pins.length = 16 → Machine.exec (.jtagSamplePreload pins scan) s = .next (shifted pins (load 1 0))) ∧
    (low = true → ∃ captured t, captured.length = 16 ∧ Machine.exec (.jtagExtest scan) s = .next (shifted captured t) ∧
      t = { load 0 1 with free := s.free + 1 }) ∧
    (low = false → Machine.exec (.jtagExtest scan) s = .next (emit (.jtag [false]) (load 0 0))) ∧
    (∃ bits, Machine.exec .jtagIdcode s = .next (emit (.jtag bits) (load 2 0)) ∧ bits.length = 32 ∧
      ∀ i, i < 32 → bits[i]? = some (Nat.testBit 0x14096E5B i)) ∧
    Machine.exec .jtagClamp s = .next (emit (.jtag [false]) (load 4 (if low then 1 else 0))) ∧
    Machine.exec .jtagHighz s = .next (emit (.jtag [false]) (load 5 (if low then 2 else 0))) ∧
    (code.toNat ∈ [0x00, 0x01, 0x02, 0x04, 0x05] → Machine.exec (.jtagBypass code) s = .next s) ∧
    (¬(code.toNat ∈ [0x00, 0x01, 0x02, 0x04, 0x05]) → Machine.exec (.jtagBypass code) s = .next (emit (.jtag [false]) (load code 0))) ∧
    Machine.exec .jtagTestLogicReset s = .next (load 2 0))

/-- Monitor sessions: CHAL answers a fresh challenge (free, log 4) unless challenges are throttled; UNLK with its response unlocks and
clears FAILS, and with another counts a failure, every third of which throttles; the challenge serves once. An unlocked session is not
unlocked again (log 64). RELOCK, LOCK and the idle time end a session, and MON_CTL.DISABLE disables the monitor; the throttle ends by its
timer. Monitor commands: STAT, a malformed line and ESTOP need no session, and ESTOP stops the device at once; RD reads a register as a
64-bit word; WR, BAUD and FUSE wait for their audit record and are performed when it is committed, or are answered ER LEDGER; a WR of
HIF_ESTOP or a REEVE_ register is refused. -/
def Obligations.Monitor : Prop :=
  (∀ (m : Master) (v : Payload) (r : BitVec 32) (s : State), Runs s → monLive s = true →
    let a := accessed m s
    let used := { s with mon := { s.mon with challenge := none } }
    let n := s.mon.fails + 1
    (s.mon.throttled = true → Machine.exec .chal s = .next (say "ER WAIT" s)) ∧
    (s.mon.throttled = false → let x := Config.freeValue s.free
      ∃ t, Machine.exec .chal s = .next (say ("OK " ++ hexDigits 8 x) t) ∧
        t = { s with free := s.free + 1, mon := { s.mon with challenge := some (BitVec.ofNat 32 x) } }) ∧
    (s.mon.unlocked = true → Machine.exec (.unlk r) s = .next (say "ER ACCESS" s)) ∧
    (s.mon.unlocked = false → ∀ c, s.mon.challenge = some c → monResponse c = r.toNat → Machine.exec (.unlk r) s = .next (say "OK" (monStateRecord
      (audit 0 0 0 0 (raise .monUnlocked none 0 0 { used with mon := { used.mon with unlocked := true, fails := 0, throttled := false } }))))) ∧
    (s.mon.unlocked = false → (∀ c, s.mon.challenge = some c → monResponse c ≠ r.toNat) → Machine.exec (.unlk r) s = .next (say "ER LOCKED" (monStateRecord
      (audit 0 0 0 1 (raise .monUnlockFail none 0 0 { used with mon := { used.mon with fails := n, throttled := s.mon.throttled || n % 3 = 0 } }))))) ∧
    (s.mon.unlocked = true → Machine.exec .lock s = .next (say "OK" (endSession false s)) ∧
      Machine.exec .monIdleTimeout s = .next (endSession false s)) ∧
    (s.mon.unlocked = false → Machine.exec .lock s = .next (say "ER LOCKED" s) ∧ Machine.exec .monIdleTimeout s = .next s) ∧
    (s.mon.throttled = true → Machine.exec .monThrottleEnd s = .next (monStateRecord { s with mon := { s.mon with throttled := false } })) ∧
    (s.mon.throttled = false → Machine.exec .monThrottleEnd s = .next s) ∧
    (barred m s = false → ∀ c ∈ [Instr.monRelock m v, .monDisable m v],
      (fld fMonCtlRelock v = 0 → fld fMonCtlDisable v = 0 → Machine.exec c s = .next a) ∧
      (fld fMonCtlRelock v = 1 → fld fMonCtlDisable v = 0 → Machine.exec c s = .next (endSession false a)) ∧
      (fld fMonCtlDisable v = 1 → ∃ t, Machine.exec c s = .next { t with mon := { t.mon with enabled := false } } ∧
        t = endSession false (setF fMonCtlDisable .monCtl 1 (if fld fMonCtlRelock v = 1 then endSession false a else a)))) ∧
    (let t := endSession false s
     t.mon.unlocked = false ∧ t.mon.challenge = none ∧ t.mon.waiting = [] ∧ t.mon.baud = 0 ∧ t.fuses = s.fuses ∧ t.regs = s.regs)) ∧
  (∀ (o : BitVec 24) (v : Payload) (n : Nat) (code : BitVec 32) (s : State), Runs s → monLive s = true →
    let waits := fun (t : State) (c : MonCmd) => { t with mon := { t.mon with waiting := t.mon.waiting ++ [(t.mon.auditNo, c)] } }
    let used := { s with mon := { s.mon with challenge := none } }
    Machine.exec .stat s = .next (say ("OK " ++ hexDigits 4 (attnNat s) ++ " " ++ hexDigits 12 (readReg .monitor .sysId s).toNat ++ " " ++
      hexDigits 4 (unsignedOf 16 (tj s)) ++ " " ++ hexDigits 12 (monStatus s).toNat) s) ∧
    Machine.exec (.monSyntax n) s = .next (say "ER SYNTAX" s) ∧
    Machine.exec .monEstop s = .next (say "OK" (audit 2 0 0 0 (stopDevice (raise .hifEstop none 0 0 s)))) ∧
    (s.mon.unlocked = true →
      (o.toNat = Reg.timeNowS.offset → Machine.exec (.monRd o) s =
        .next (say ("OK " ++ hexDigits 16 (readOffset .monitor o.toNat s).toNat) (timeNowLatch .monitor s))) ∧
      (o.toNat ≠ Reg.timeNowS.offset → Machine.exec (.monRd o) s = .next (say ("OK " ++ hexDigits 16 (readOffset .monitor o.toNat s).toNat) s)) ∧
      (wrBarred o.toNat = true → Machine.exec (.monWr o v) s = .next (say "ER ACCESS" (audit 1 o.toNat v.toNat 1 s))) ∧
      (wrBarred o.toNat = false → s.led.readOnly = false → Machine.exec (.monWr o v) s = .next (waits (audit 1 o.toNat v.toNat 0 s) (.wr o v))) ∧
      (s.led.readOnly = true → (wrBarred o.toNat = false → Machine.exec (.monWr o v) s = .next (say "ER LEDGER" s)) ∧
        (n ≤ 5 → Machine.exec (.baud n) s = .next (say "ER LEDGER" s)) ∧
        (responseOk code s = true → Machine.exec (.fuseLockout code) s = .next (say "ER LEDGER" used))) ∧
      (n ≤ 5 → s.led.readOnly = false → Machine.exec (.baud n) s = .next (waits (audit 3 0 n 0 s) (.baud n))) ∧
      (5 < n → Machine.exec (.baud n) s = .next (say "ER SYNTAX" s)) ∧
      (responseOk code s = true → s.led.readOnly = false → Machine.exec (.fuseLockout code) s = .next (waits (audit 4 0 0 0 used) .fuse)) ∧
      (responseOk code s = false → Machine.exec (.fuseLockout code) s = .next (say "ER ACCESS" (audit 4 0 0 1 used))) ∧
      (1 ≤ n → n ≤ 64 → Machine.exec (.monEvt n) s = .next ((lastN n (eventLog s)).foldl (fun u e => say (eventLine e) u) (say "OK" s)) ∧
        Machine.exec (.aud n) s = .next ((lastN n (auditLog s)).foldl (fun u l => say (auditLine l) u) (say "OK" s))) ∧
      (n = 0 ∨ 64 < n → Machine.exec (.monEvt n) s = .next (say "ER SYNTAX" s) ∧ Machine.exec (.aud n) s = .next (say "ER SYNTAX" s))) ∧
    (s.mon.unlocked = false → ∀ c ∈ [Instr.monRd o, .monWr o v, .monEvt n, .aud n, .baud n, .fuseLockout code],
      Machine.exec c s = .next (say "ER LOCKED" s)) ∧
    (s.mon.waiting = [] → Machine.exec .monAuditTimeout s = .next s) ∧
    (∀ w rest, s.mon.waiting = w :: rest → Machine.exec .monAuditTimeout s = .next (say "ER LEDGER" { s with mon := { s.mon with waiting := rest } })) ∧
    (let t := monPerform .fuse s
     t.fuses = { s.fuses with lockout := true } ∧ t.mon.enabled = false ∧ t.mon.unlocked = false))
end

