-- ==== Sys2Proof/Laws/Bits.lean ====
section
/-!
SUPPORT. Fields of registers: a field reads back what was stored in it, and another field reads as before.
-/
namespace Sys2Proof

/-- A number split at a field: below it, the field, above it. -/
theorem putBits_eq {x hi lo v : Nat} (h : lo ≤ hi) :
    putBits x hi lo v = x / 2 ^ (hi + 1) * 2 ^ (hi + 1) + (v % 2 ^ (hi + 1 - lo)) * 2 ^ lo + x % 2 ^ lo := by
  have e : 2 ^ (hi + 1) = 2 ^ lo * 2 ^ (hi + 1 - lo) := by rw [← pow_add]; congr 1; omega
  have d1 := Nat.div_add_mod x (2 ^ lo)
  have d2 := Nat.div_add_mod (x / 2 ^ lo) (2 ^ (hi + 1 - lo))
  have d3 : x / 2 ^ (hi + 1) = x / 2 ^ lo / 2 ^ (hi + 1 - lo) := by rw [e, Nat.div_div_eq_div_mul]
  unfold putBits bitsOf
  rw [d3, e]
  generalize 2 ^ lo = A at *
  generalize 2 ^ (hi + 1 - lo) = B at *
  generalize hq : x / A / B = Q at *
  generalize hr : x / A % B = R at *
  generalize v % B = V
  have hx : x = A * (B * Q + R) + x % A := by rw [d2]; exact d1.symm
  generalize x % A = L at *
  subst hx
  ring_nf
  omega

/-- A stored field reads back, cut to its width. -/
theorem bitsOf_putBits {x hi lo v : Nat} (h : lo ≤ hi) : bitsOf (putBits x hi lo v) hi lo = v % 2 ^ (hi + 1 - lo) := by
  rw [putBits_eq h]
  have e : 2 ^ (hi + 1) = 2 ^ lo * 2 ^ (hi + 1 - lo) := by rw [← pow_add]; congr 1; omega
  unfold bitsOf
  have ha : 0 < 2 ^ lo := by positivity
  have hl : x % 2 ^ lo < 2 ^ lo := Nat.mod_lt _ ha
  rw [e]
  generalize 2 ^ lo = A at *
  generalize 2 ^ (hi + 1 - lo) = B at *
  have : x / (A * B) * (A * B) + v % B * A + x % A = A * (x / (A * B) * B + v % B) + x % A := by ring
  rw [this, Nat.mul_add_div ha, Nat.div_eq_of_lt hl, Nat.add_zero, Nat.add_comm, Nat.add_mul_mod_self_right, Nat.mod_mod]

/-- A number with a field stored stays below the same power of two. -/
theorem putBits_lt {x hi lo v n : Nat} (h : lo ≤ hi) (hn : hi < n) (hx : x < 2 ^ n) : putBits x hi lo v < 2 ^ n := by
  rw [putBits_eq h]
  have e : 2 ^ n = 2 ^ (n - (hi + 1)) * 2 ^ (hi + 1) := by rw [← pow_add]; congr 1; omega
  have e' : 2 ^ (hi + 1) = 2 ^ (hi + 1 - lo) * 2 ^ lo := by rw [← pow_add]; congr 1; omega
  have h1 : x / 2 ^ (hi + 1) < 2 ^ (n - (hi + 1)) := by
    rw [Nat.div_lt_iff_lt_mul (by positivity), ← e]; exact hx
  have h2 : x % 2 ^ lo < 2 ^ lo := Nat.mod_lt _ (by positivity)
  have h3 : v % 2 ^ (hi + 1 - lo) < 2 ^ (hi + 1 - lo) := Nat.mod_lt _ (by positivity)
  rw [e]
  generalize x / 2 ^ (hi + 1) = Q at *
  rw [e']
  generalize 2 ^ lo = A at *
  generalize 2 ^ (hi + 1 - lo) = B at *
  generalize 2 ^ (n - (hi + 1)) = C at *
  generalize v % B = V at *
  generalize x % A = L at *
  calc Q * (B * A) + V * A + L < Q * (B * A) + V * A + A := by omega
    _ = Q * (B * A) + (V + 1) * A := by ring
    _ ≤ Q * (B * A) + B * A := by gcongr; omega
    _ = (Q + 1) * (B * A) := by ring
    _ ≤ C * (B * A) := by gcongr; omega

/-- A field of a bit vector reads back what was stored in it. -/
theorem fld_setFld {n : Nat} {f : Fld} {v : Nat} {x : BitVec n} (h : f.lo ≤ f.hi) (hn : f.hi < n) :
    fld f (setFld f v x) = v % 2 ^ (f.hi + 1 - f.lo) := by
  unfold fld setFld
  rw [BitVec.toNat_ofNat, Nat.mod_eq_of_lt (putBits_lt h hn x.isLt), bitsOf_putBits h]

/-- A field above the one stored reads as before. -/
theorem bitsOf_putBits_above {x hi lo v hi' lo' : Nat} (h : lo ≤ hi) (ha : hi < lo') : bitsOf (putBits x hi lo v) hi' lo' = bitsOf x hi' lo' := by
  rw [putBits_eq h]
  unfold bitsOf
  congr 1
  have e : 2 ^ lo' = 2 ^ (hi + 1) * 2 ^ (lo' - (hi + 1)) := by rw [← pow_add]; congr 1; omega
  have e' : 2 ^ (hi + 1) = 2 ^ (hi + 1 - lo) * 2 ^ lo := by rw [← pow_add]; congr 1; omega
  rw [e, ← Nat.div_div_eq_div_mul, ← Nat.div_div_eq_div_mul]
  congr 1
  have h2 : x % 2 ^ lo < 2 ^ lo := Nat.mod_lt _ (by positivity)
  have h3 : v % 2 ^ (hi + 1 - lo) < 2 ^ (hi + 1 - lo) := Nat.mod_lt _ (by positivity)
  have hp : 0 < 2 ^ (hi + 1) := by positivity
  rw [Nat.add_assoc, Nat.mul_comm (x / 2 ^ (hi + 1)), Nat.mul_add_div hp]
  refine (congrArg _ (Nat.div_eq_of_lt ?_)).trans (Nat.add_zero _)
  rw [e']
  generalize 2 ^ lo = A at *
  generalize 2 ^ (hi + 1 - lo) = B at *
  generalize v % B = V at *
  generalize x % A = L at *
  calc V * A + L < V * A + A := by omega
    _ = (V + 1) * A := by ring
    _ ≤ B * A := by gcongr; omega

/-- A field below the one stored reads as before. -/
theorem bitsOf_putBits_below {x hi lo v hi' lo' : Nat} (h : lo ≤ hi) (hb : hi' < lo) (hl : lo' ≤ hi') :
    bitsOf (putBits x hi lo v) hi' lo' = bitsOf x hi' lo' := by
  rw [putBits_eq h]
  have e : 2 ^ (hi + 1) = 2 ^ (hi + 1 - lo) * 2 ^ lo := by rw [← pow_add]; congr 1; omega
  have e' : 2 ^ lo = 2 ^ lo' * (2 ^ (hi' + 1 - lo') * 2 ^ (lo - (hi' + 1))) := by rw [← pow_add, ← pow_add]; congr 1; omega
  unfold bitsOf
  have hx := Nat.div_add_mod x (2 ^ lo)
  have step : ∀ k, (k * 2 ^ lo + x % 2 ^ lo) / 2 ^ lo' % 2 ^ (hi' + 1 - lo') = x % 2 ^ lo / 2 ^ lo' % 2 ^ (hi' + 1 - lo') := by
    intro k
    generalize x % 2 ^ lo = L
    rw [e']
    generalize 2 ^ (lo - (hi' + 1)) = C
    have ha : 0 < 2 ^ lo' := by positivity
    generalize 2 ^ lo' = A at *
    generalize 2 ^ (hi' + 1 - lo') = B at *
    rw [show k * (A * (B * C)) + L = A * (k * (B * C)) + L by ring, Nat.mul_add_div ha,
      show k * (B * C) + L / A = L / A + B * (k * C) by ring, Nat.add_mul_mod_self_left]
  rw [e, show x / (2 ^ (hi + 1 - lo) * 2 ^ lo) * (2 ^ (hi + 1 - lo) * 2 ^ lo) + v % 2 ^ (hi + 1 - lo) * 2 ^ lo =
    (x / (2 ^ (hi + 1 - lo) * 2 ^ lo) * 2 ^ (hi + 1 - lo) + v % 2 ^ (hi + 1 - lo)) * 2 ^ lo by ring, step, ← step (x / 2 ^ lo),
    Nat.mul_comm (x / 2 ^ lo), hx]

/-- A field of a bit vector reads as before when another one is stored. -/
theorem fld_setFld_other {n : Nat} {f g : Fld} {v : Nat} {x : BitVec n} (h : f.lo ≤ f.hi) (hn : f.hi < n) (hg : g.lo ≤ g.hi)
    (hd : f.hi < g.lo ∨ g.hi < f.lo) : fld g (setFld f v x) = fld g x := by
  unfold fld setFld
  rw [BitVec.toNat_ofNat, Nat.mod_eq_of_lt (putBits_lt h hn x.isLt)]
  rcases hd with hd | hd
  · exact bitsOf_putBits_above h hd
  · exact bitsOf_putBits_below h hd hg

end Sys2Proof
end

