-- ==== Sys2Proof/Laws/Store.lean ====
section
/-!
SUPPORT. Sparse stores: a read after a write, and every store operation keeps the canonical form.
-/
namespace Sys2Proof

@[simp] theorem aboveKey_none (k : Nat) : aboveKey none k = true := rfl
@[simp] theorem aboveKey_some (j k : Nat) : aboveKey (some j) k = decide (j < k) := rfl

theorem aboveKey_of {b : Option Nat} {k : Nat} (hb : ∀ j, b = some j → j < k) : aboveKey b k = true := by
  cases b with
  | none => rfl
  | some j => simpa using hb j rfl

theorem aboveKey_weaken {b : Option Nat} {j k : Nat} (h : j < k) (hb : ∀ i, b = some i → i < j) : aboveKey b k = true :=
  aboveKey_of fun i e => by have := hb i e; omega

theorem storeGet_put_same {α : Type} (d : Nat → α) (m : Store α) (k : Nat) (v : α) :
    storeGet d (storePut k v m) k = v := by
  induction m with
  | nil => simp [storePut, storeGet]
  | cons p m ih =>
    obtain ⟨j, w⟩ := p
    unfold storePut
    split
    · simp [storeGet]
    · split
      · simp [storeGet]
      · simp only [storeGet]; rw [if_neg (by omega)]; exact ih

theorem storeGet_put_other {α : Type} (d : Nat → α) (m : Store α) (k i : Nat) (v : α) (h : i ≠ k) :
    storeGet d (storePut k v m) i = storeGet d m i := by
  induction m with
  | nil => simp [storePut, storeGet, Ne.symm h]
  | cons p m ih =>
    obtain ⟨j, w⟩ := p
    unfold storePut
    split
    · simp [storeGet, Ne.symm h]
    · split
      · subst_vars; simp [storeGet, Ne.symm h]
      · simp only [storeGet]; rw [ih]

theorem storeGet_drop_other {α : Type} (d : Nat → α) (m : Store α) (k i : Nat) (h : i ≠ k) :
    storeGet d (storeDrop k m) i = storeGet d m i := by
  induction m with
  | nil => rfl
  | cons p m ih =>
    obtain ⟨j, w⟩ := p
    unfold storeDrop
    split
    · subst_vars; simp [storeGet, Ne.symm h]
    · simp only [storeGet]; rw [ih]

/-- A key the store lists nowhere reads as its default. -/
theorem storeGet_above {α : Type} (d : Nat → α) (m : Store α) (b k : Nat) (h : storeSorted (some b) m) (hk : k ≤ b) :
    storeGet d m k = d k := by
  induction m generalizing b with
  | nil => rfl
  | cons p m ih =>
    obtain ⟨j, w⟩ := p
    simp only [storeSorted, Bool.and_eq_true, aboveKey_some, decide_eq_true_eq] at h
    simp only [storeGet]; rw [if_neg (by omega)]; exact ih j h.2 (by omega)

theorem storeGet_drop_same {α : Type} (d : Nat → α) (m : Store α) (b : Option Nat) (k : Nat) (h : storeSorted b m) :
    storeGet d (storeDrop k m) k = d k := by
  induction m generalizing b with
  | nil => rfl
  | cons p m ih =>
    obtain ⟨j, w⟩ := p
    simp only [storeSorted, Bool.and_eq_true] at h
    unfold storeDrop
    split
    · subst_vars; exact storeGet_above d m _ _ h.2 le_rfl
    · rename_i hj; simp only [storeGet]; rw [if_neg hj]; exact ih _ h.2

theorem storeWfFrom_sorted {α : Type} [DecidableEq α] {d : Nat → α} {m : Store α} {b : Option Nat}
    (h : storeWfFrom d b m) : storeSorted b m := by
  induction m generalizing b with
  | nil => rfl
  | cons p m ih =>
    obtain ⟨k, v⟩ := p
    simp only [storeWfFrom, Bool.and_eq_true] at h
    simp only [storeSorted, Bool.and_eq_true]
    exact ⟨h.1.1, ih h.2⟩

/-- Reading what was just written, in a store whose keys rise. -/
theorem storeGet_set_same {α : Type} [DecidableEq α] (d : Nat → α) (m : Store α) (k : Nat) (v : α)
    (h : storeSorted none m) : storeGet d (storeSet d m k v) k = v := by
  unfold storeSet
  split
  · rename_i e; rw [storeGet_drop_same d m none k h, e]
  · exact storeGet_put_same d m k v

/-- A write leaves every other key alone. -/
theorem storeGet_set_other {α : Type} [DecidableEq α] (d : Nat → α) (m : Store α) (k i : Nat) (v : α) (h : i ≠ k) :
    storeGet d (storeSet d m k v) i = storeGet d m i := by
  unfold storeSet
  split
  · exact storeGet_drop_other d m k i h
  · exact storeGet_put_other d m k i v h

theorem storeWfFrom_put {α : Type} [DecidableEq α] {d : Nat → α} {m : Store α} {b : Option Nat} {k : Nat} {v : α}
    (h : storeWfFrom d b m) (hb : ∀ j, b = some j → j < k) (hv : v ≠ d k) : storeWfFrom d b (storePut k v m) := by
  induction m generalizing b with
  | nil =>
    simp only [storePut, storeWfFrom, Bool.and_true, Bool.and_eq_true]
    exact ⟨aboveKey_of hb, by simpa using hv⟩
  | cons p m ih =>
    obtain ⟨j, w⟩ := p
    simp only [storeWfFrom, Bool.and_eq_true] at h
    have hb' : aboveKey b k = true := aboveKey_of hb
    unfold storePut
    split
    · simp only [storeWfFrom, Bool.and_eq_true]
      exact ⟨⟨hb', by simpa using hv⟩, ⟨by simpa using ‹k < j›, h.1.2⟩, h.2⟩
    · split
      · subst_vars; simp only [storeWfFrom, Bool.and_eq_true]
        exact ⟨⟨hb', by simpa using hv⟩, h.2⟩
      · simp only [storeWfFrom, Bool.and_eq_true]
        exact ⟨h.1, ih h.2 (by intro i e; cases e; omega)⟩

theorem storeWfFrom_weaken {α : Type} [DecidableEq α] {d : Nat → α} {m : Store α} {b : Option Nat} {j : Nat}
    (h : storeWfFrom d (some j) m) (hb : ∀ i, b = some i → i < j) : storeWfFrom d b m := by
  cases m with
  | nil => rfl
  | cons p m =>
    obtain ⟨k, v⟩ := p
    simp only [storeWfFrom, Bool.and_eq_true, aboveKey_some, decide_eq_true_eq] at h ⊢
    exact ⟨⟨aboveKey_weaken h.1.1 hb, h.1.2⟩, h.2⟩

theorem storeWfFrom_drop {α : Type} [DecidableEq α] {d : Nat → α} {m : Store α} {b : Option Nat} {k : Nat}
    (h : storeWfFrom d b m) : storeWfFrom d b (storeDrop k m) := by
  induction m generalizing b with
  | nil => rfl
  | cons p m ih =>
    obtain ⟨j, w⟩ := p
    have h' := h
    simp only [storeWfFrom, Bool.and_eq_true] at h
    unfold storeDrop
    split
    · refine storeWfFrom_weaken h.2 ?_
      intro i e; subst e; simpa using h.1.1
    · simp only [storeWfFrom, Bool.and_eq_true]; exact ⟨h.1, ih h.2⟩

/-- A write keeps the canonical form. -/
theorem storeWf_set {α : Type} [DecidableEq α] {d : Nat → α} {m : Store α} {k : Nat} {v : α} (h : storeWf d m) :
    storeWf d (storeSet d m k v) := by
  unfold storeSet
  split
  · exact storeWfFrom_drop h
  · exact storeWfFrom_put h (by intro j e; cases e) ‹_›

/-- A run of writes keeps the canonical form. -/
theorem storeWf_setList {α : Type} [DecidableEq α] {d : Nat → α} {m : Store α} {k : Nat} {vs : List α} (h : storeWf d m) :
    storeWf d (storeSetList d m k vs) := by
  induction vs generalizing m k with
  | nil => exact h
  | cons v vs ih => exact ih (storeWf_set h)

/-- Taking entries out keeps the canonical form. -/
theorem storeGet_setList_other {α : Type} [DecidableEq α] {d : Nat → α} {bs : List α} {m : Store α} {a k : Nat}
    (h : k < a ∨ a + bs.length ≤ k) : storeGet d (storeSetList d m a bs) k = storeGet d m k := by
  induction bs generalizing m a with
  | nil => rfl
  | cons b bs ih =>
    simp only [List.length_cons] at h
    unfold storeSetList
    rw [ih (by omega), storeGet_set_other _ _ _ _ _ (by omega)]

theorem storeGet_setList {α : Type} [DecidableEq α] {d : Nat → α} {bs : List α} {m : Store α} {a k : Nat} {b : α}
    (h : storeWf d m) (hb : bs[k]? = some b) : storeGet d (storeSetList d m a bs) (a + k) = b := by
  induction bs generalizing m a k with
  | nil => simp at hb
  | cons c bs ih =>
    unfold storeSetList
    cases k with
    | zero =>
      rw [storeGet_setList_other (by omega), Nat.add_zero, storeGet_set_same _ _ _ _ (storeWfFrom_sorted h)]
      simpa using hb
    | succ k =>
      rw [show a + (k + 1) = a + 1 + k by omega]
      exact ih (storeWf_set h) (by simpa using hb)

theorem storeWfFrom_filter {α : Type} [DecidableEq α] {d : Nat → α} {m : Store α} {b : Option Nat} (p : Nat × α → Bool)
    (h : storeWfFrom d b m) : storeWfFrom d b (m.filter p) := by
  induction m generalizing b with
  | nil => rfl
  | cons q m ih =>
    obtain ⟨k, v⟩ := q
    simp only [storeWfFrom, Bool.and_eq_true] at h
    rw [List.filter_cons]
    split
    · simp only [storeWfFrom, Bool.and_eq_true]; exact ⟨h.1, ih h.2⟩
    · refine ih (storeWfFrom_weaken h.2 ?_)
      intro i e; subst e; simpa using h.1.1

theorem storeWf_filter {α : Type} [DecidableEq α] {d : Nat → α} {m : Store α} (p : Nat × α → Bool) (h : storeWf d m) :
    storeWf d (m.filter p) := storeWfFrom_filter p h

/-- Changing every value keeps the canonical form. -/
theorem storeWfFrom_map {α : Type} [DecidableEq α] {d : Nat → α} {f : α → α} {m : Store α} {b : Option Nat}
    (h : storeSorted b m) : storeWfFrom d b (storeMap d f m) := by
  induction m generalizing b with
  | nil => rfl
  | cons q m ih =>
    obtain ⟨k, v⟩ := q
    simp only [storeSorted, Bool.and_eq_true] at h
    simp only [storeMap, List.map_cons, List.filter_cons]
    split
    · rename_i e
      simp only [storeWfFrom, Bool.and_eq_true]
      exact ⟨⟨h.1, by simpa using e⟩, ih h.2⟩
    · refine storeWfFrom_weaken (ih h.2) ?_
      intro i e; subst e; simpa using h.1

theorem storeWf_map {α : Type} [DecidableEq α] {d : Nat → α} {f : α → α} {m : Store α} (h : storeWf d m) :
    storeWf d (storeMap d f m) := storeWfFrom_map (storeWfFrom_sorted h)

theorem storeSorted_put {α : Type} {m : Store α} {b : Option Nat} {k : Nat} {v : α}
    (h : storeSorted b m) (hb : ∀ j, b = some j → j < k) : storeSorted b (storePut k v m) := by
  induction m generalizing b with
  | nil =>
    simp only [storePut, storeSorted, Bool.and_true]
    exact aboveKey_of hb
  | cons p m ih =>
    obtain ⟨j, w⟩ := p
    simp only [storeSorted, Bool.and_eq_true] at h
    have hb' : aboveKey b k = true := aboveKey_of hb
    unfold storePut
    split
    · simp only [storeSorted, Bool.and_eq_true]; exact ⟨hb', by simpa using ‹k < j›, h.2⟩
    · split
      · subst_vars; simp only [storeSorted, Bool.and_eq_true]; exact ⟨hb', h.2⟩
      · simp only [storeSorted, Bool.and_eq_true]
        exact ⟨h.1, ih h.2 (by intro i e; cases e; omega)⟩

theorem storeSorted_weaken {α : Type} {m : Store α} {b : Option Nat} {j : Nat}
    (h : storeSorted (some j) m) (hb : ∀ i, b = some i → i < j) : storeSorted b m := by
  cases m with
  | nil => rfl
  | cons p m =>
    obtain ⟨k, v⟩ := p
    simp only [storeSorted, Bool.and_eq_true, aboveKey_some, decide_eq_true_eq] at h ⊢
    exact ⟨aboveKey_weaken h.1 hb, h.2⟩

theorem storeSorted_drop {α : Type} {m : Store α} {b : Option Nat} {k : Nat} (h : storeSorted b m) :
    storeSorted b (storeDrop k m) := by
  induction m generalizing b with
  | nil => rfl
  | cons p m ih =>
    obtain ⟨j, w⟩ := p
    simp only [storeSorted, Bool.and_eq_true] at h
    unfold storeDrop
    split
    · refine storeSorted_weaken h.2 ?_
      intro i e; subst e; simpa using h.1
    · simp only [storeSorted, Bool.and_eq_true]; exact ⟨h.1, ih h.2⟩

/-- A write keeps the keys rising, whatever the default. -/
theorem storeSorted_set {α : Type} [DecidableEq α] {d : Nat → α} {m : Store α} {k : Nat} {v : α} (h : storeSorted none m) :
    storeSorted none (storeSet d m k v) := by
  unfold storeSet
  split
  · exact storeSorted_drop h
  · exact storeSorted_put h (by intro j e; cases e)

theorem storeSorted_filter {α : Type} {m : Store α} {b : Option Nat} (p : Nat × α → Bool) (h : storeSorted b m) :
    storeSorted b (m.filter p) := by
  induction m generalizing b with
  | nil => rfl
  | cons q m ih =>
    obtain ⟨k, v⟩ := q
    simp only [storeSorted, Bool.and_eq_true] at h
    rw [List.filter_cons]
    split
    · simp only [storeSorted, Bool.and_eq_true]; exact ⟨h.1, ih h.2⟩
    · refine ih (storeSorted_weaken h.2 ?_)
      intro i e; subst e; simpa using h.1

end Sys2Proof
end

