-- ==== Sys2Proof/Laws/InvBase.lean ====
section
/-!
SUPPORT. Kept, what a step keeps, through record updates, folds and the named operations that write memories, cores and the time.
-/
namespace Sys2Proof.Machine

/-- A well-kept state whose queue is `κ.1` and whose fuses are `κ.2` or blown beyond it: what every operation keeps. -/
structure Kept (κ : List Instr × Fuses) (s : State) : Prop where
  inv : StateInv s
  pending : s.pending = κ.1
  fuses : κ.2.upTo s.fuses

variable {κ : List Instr × Fuses}

/-- The invariant says nothing of the queue. -/
theorem StateInv.setPending {s : State} {p : List Instr} (h : StateInv s) : StateInv { s with pending := p } := by
  obtain ⟨h1, h2, h3, h4, h5⟩ := h
  constructor <;> assumption

theorem Kept.self {s : State} (h : StateInv s) : Kept (s.pending, s.fuses) s := ⟨h, rfl, le_rfl, id, rfl⟩

/-- A change of fields Kept does not speak of keeps it. -/
theorem Kept.upd {s : State} {free tick out hif fab tabPending trig det beam egr hbm time bell lanes stw
    dep mon jtag led sys therm} (h : Kept κ s) (hc : stw.cores = s.stw.cores) (ht : time.sub = s.time.sub)
    (hm : (sys.recovery, sys.sram, sys.working) = (s.sys.recovery, s.sys.sram, s.sys.working)) :
    Kept κ ⟨s.pending, free, tick, s.regs, out, s.hostMem, hif, fab, s.parts, s.quads, s.chans, s.granary, s.tables, tabPending,
      trig, det, beam, egr, s.rings, s.scratch, hbm, time, bell, lanes, stw, s.dma, dep, mon, jtag, led, s.fuses, sys, therm⟩ := by
  obtain ⟨e1, e2⟩ := Prod.mk.inj hm
  obtain ⟨e2, e3⟩ := Prod.mk.inj e2
  have m := h.inv.memories
  refine ⟨⟨h.inv.canonical, ⟨e1 ▸ m.1, e2 ▸ m.2.1, e3 ▸ m.2.2⟩, ?_, ?_, h.inv.svn⟩, h.pending, h.fuses⟩
  · unfold Stw.shaped
    rw [hc]
    exact h.inv.cores
  · show time.sub < secUnits
    rw [ht]
    exact h.inv.time

/-- What Kept asks of each part, gathered. -/
theorem Kept.of {s t : State} (h : Kept κ s)
    (h1 : storeSorted none s.regs → storeSorted none t.regs)
    (h2 : storeWf (fun _ => (0 : Byte)) s.hostMem → storeWf (fun _ => (0 : Byte)) t.hostMem)
    (h3 : storeWf (fun _ => Part.idle) s.parts → storeWf (fun _ => Part.idle) t.parts)
    (h4 : storeWf (fun _ => Quadrant.full) s.quads → storeWf (fun _ => Quadrant.full) t.quads)
    (h5 : storeWf (fun _ => (none : Option ChanState)) s.chans → storeWf (fun _ => (none : Option ChanState)) t.chans)
    (h6 : storeWf (fun _ => (⟨0, 0, 0, false⟩ : GranRec)) s.granary → storeWf (fun _ => (⟨0, 0, 0, false⟩ : GranRec)) t.granary)
    (h7 : storeWf (fun _ => (0 : Nat)) s.tables → storeWf (fun _ => (0 : Nat)) t.tables)
    (h8 : storeWf (fun _ => (⟨[], 0, []⟩ : SysRing)) s.rings → storeWf (fun _ => (⟨[], 0, []⟩ : SysRing)) t.rings)
    (h9 : storeWf (fun _ => (0 : Byte)) s.scratch → storeWf (fun _ => (0 : Byte)) t.scratch)
    (h10 : storeWf (fun _ => (none : Option DmaChan)) s.dma → storeWf (fun _ => (none : Option DmaChan)) t.dma)
    (h11 : s.stw.shaped → t.stw.shaped) (h12 : s.time.sub < secUnits → t.time.sub < secUnits)
    (h13 : t.fuses = s.fuses) (h14 : t.pending = s.pending)
    (h15 : s.sys.canonical → t.sys.canonical) : Kept κ t := by
  obtain ⟨⟨⟨a1, a2, a3, a4, a5, a6, a7, a8, a9, a10⟩, a0, a11, a12, a13⟩, a14, a15⟩ := h
  exact ⟨⟨⟨h1 a1, h2 a2, h3 a3, h4 a4, h5 a5, h6 a6, h7 a7, h8 a8, h9 a9, h10 a10⟩, h15 a0, h11 a11, h12 a12, h13 ▸ a13⟩,
    h14.trans a14, h13 ▸ a15⟩

/-- The control complex's state exchanged for one whose memories are canonical. -/
theorem Kept.sys {s : State} {x : Sys} (h : Kept κ s) (hx : s.sys.canonical → x.canonical) : Kept κ { s with sys := x } :=
  ⟨⟨h.inv.canonical, hx h.inv.memories, h.inv.cores, h.inv.time, h.inv.svn⟩, h.pending, h.fuses⟩

/-- The fuses of a Kept state exchanged for the same or further blown ones. -/
theorem Kept.blow {s : State} {v : Fuses} (h : Kept κ s) (hv : s.fuses.upTo v) (hn : v.svnMin ≤ 64) : Kept κ { s with fuses := v } :=
  ⟨⟨h.inv.canonical, h.inv.memories, h.inv.cores, h.inv.time, hn⟩, h.pending,
    le_trans h.fuses.1 hv.1, fun e => hv.2.1 (h.fuses.2.1 e), hv.2.2.trans h.fuses.2.2⟩

/-- A fold of steps that keep Kept κ keeps it. -/
theorem Kept.foldl {α : Type} {f : State → α → State} {l : List α} {s : State}
    (hf : ∀ s a, Kept κ s → Kept κ (f s a)) (h : Kept κ s) : Kept κ (l.foldl f s) := by
  induction l generalizing s with
  | nil => exact h
  | cons a l ih => exact ih (hf s a h)

/-- A fold over a pair that carries the state. -/
theorem Kept.foldl_snd {α β : Type} {f : β × State → α → β × State} {l : List α} {b : β × State}
    (hf : ∀ b a, Kept κ b.2 → Kept κ (f b a).2) (h : Kept κ b.2) : Kept κ (l.foldl f b).2 := by
  induction l generalizing b with
  | nil => exact h
  | cons a l ih => exact ih (hf b a h)

/-- Kept κ by cases of a condition. -/
theorem Kept.ite {c : Prop} [Decidable c] {a b : State} (ha : c → Kept κ a) (hb : ¬c → Kept κ b) :
    Kept κ (if c then a else b) := by
  split
  · exact ha ‹_›
  · exact hb ‹_›

/-- A state that an operation gives, or else another. -/
theorem Kept.getD {o : Option State} {s : State} (ho : ∀ t, o = some t → Kept κ t) (h : Kept κ s) : Kept κ (o.getD s) := by
  cases o with
  | none => exact h
  | some t => exact ho t rfl

/-- The state of a pair that is known. -/
theorem Kept.pair {α : Type} {p : α × State} {a : α} {t : State} (e : p = (a, t)) (h : Kept κ p.2) : Kept κ t := by
  subst e; exact h

theorem setReg_inv {r v s} (h : Kept κ s) : Kept κ (setReg r v s) := by
  unfold setReg
  refine h.of (fun x => storeSorted_set (d := fun _ => r.reset) (k := r.offset) (v := v) x) ?_ ?_ ?_ ?_ ?_ ?_ ?_ ?_ ?_ ?_ ?_ ?_ ?_ ?_ <;> first | exact id | rfl

theorem hostWrite_inv {a bs s} (h : Kept κ s) : Kept κ (hostWrite a bs s) := by
  unfold hostWrite
  split
  · refine h.of ?_ (fun x => storeWf_setList x) ?_ ?_ ?_ ?_ ?_ ?_ ?_ ?_ ?_ ?_ ?_ ?_ ?_ <;> first | exact id | rfl
  · exact h

theorem setPart_inv {p x s} (h : Kept κ s) : Kept κ (setPart p x s) := by
  refine h.of ?_ ?_ (fun x => storeWf_set x) ?_ ?_ ?_ ?_ ?_ ?_ ?_ ?_ ?_ ?_ ?_ ?_ <;> first | exact id | rfl

theorem setQuad_inv {q x s} (h : Kept κ s) : Kept κ (setQuad q x s) := by
  refine h.of ?_ ?_ ?_ (fun x => storeWf_set x) ?_ ?_ ?_ ?_ ?_ ?_ ?_ ?_ ?_ ?_ ?_ <;> first | exact id | rfl

theorem setChan_inv {p c x s} (h : Kept κ s) : Kept κ (setChan p c x s) := by
  refine h.of ?_ ?_ ?_ ?_ (fun x => storeWf_set x) ?_ ?_ ?_ ?_ ?_ ?_ ?_ ?_ ?_ ?_ <;> first | exact id | rfl

theorem tabSet_inv {t b i v s} (h : Kept κ s) : Kept κ (tabSet t b i v s) := by
  refine h.of ?_ ?_ ?_ ?_ ?_ ?_ (fun x => storeWf_set x) ?_ ?_ ?_ ?_ ?_ ?_ ?_ ?_ <;> first | exact id | rfl

theorem setSysRing_inv {k r s} (h : Kept κ s) : Kept κ (setSysRing k r s) := by
  refine h.of ?_ ?_ ?_ ?_ ?_ ?_ ?_ (fun x => storeWf_set x) ?_ ?_ ?_ ?_ ?_ ?_ ?_ <;> first | exact id | rfl

theorem setDma_inv {c x s} (h : Kept κ s) : Kept κ (setDma c x s) := by
  refine h.of ?_ ?_ ?_ ?_ ?_ ?_ ?_ ?_ ?_ (fun x => storeWf_set x) ?_ ?_ ?_ ?_ ?_ <;> first | exact id | rfl

theorem granarySet_inv {p c v r s} (h : Kept κ s) : Kept κ (granarySet p c v r s) := by
  refine h.of ?_ ?_ ?_ ?_ ?_ (fun x => storeWf_set x) ?_ ?_ ?_ ?_ ?_ ?_ ?_ ?_ ?_ <;> first | exact id | rfl

theorem setLocalQ_inv {q s} (h : Kept κ s) : Kept κ (setLocalQ q s) := by
  refine h.of ?_ ?_ ?_ ?_ ?_ ?_ ?_ ?_ ?_ ?_ ?_ (fun _ => Nat.mod_lt _ (by decide)) ?_ ?_ ?_ <;> first | exact id | rfl

/-- Storing a core that is as built keeps the eight cores as built. -/
theorem setCore_inv {c x s} (hx : x.shaped) (h : Kept κ s) : Kept κ (setCore c x s) := by
  refine h.of ?_ ?_ ?_ ?_ ?_ ?_ ?_ ?_ ?_ ?_ (fun w => ?_) ?_ ?_ ?_ ?_ <;> try first | exact id | rfl
  refine ⟨by simpa [setCore] using w.1, fun y hy => ?_⟩
  rcases List.mem_or_eq_of_mem_set hy with e | e
  · exact w.2 y e
  · exact e ▸ hx

theorem Core.idle_shaped : Core.idle.shaped := by
  simp [Core.shaped, Core.idle, storeWf, storeWfFrom]

theorem coreOf_shaped {c s} (h : Kept κ s) : (coreOf c s).shaped := by
  unfold coreOf
  rw [List.getD_eq_getElem?_getD]
  cases e : s.stw.cores[c]? with
  | none => exact Core.idle_shaped
  | some x => exact h.inv.cores.2 x (List.mem_of_getElem? e)

theorem onCore_inv {c f s} (hf : ∀ x : Core, x.shaped → (f x).shaped) (h : Kept κ s) : Kept κ (onCore c f s) :=
  setCore_inv (hf _ (coreOf_shaped h)) h

/-- The cores mapped through what keeps each as built. -/
theorem Kept.mapCores {s : State} {f : Core → Core} (hf : ∀ x : Core, x.shaped → (f x).shaped) (h : Kept κ s) :
    Kept κ { s with stw := { s.stw with cores := s.stw.cores.map f } } := by
  refine h.of ?_ ?_ ?_ ?_ ?_ ?_ ?_ ?_ ?_ ?_ (fun w => ?_) ?_ ?_ ?_ ?_ <;> try first | exact id | rfl
  refine ⟨by simpa using w.1, fun y hy => ?_⟩
  obtain ⟨z, hz, rfl⟩ := List.mem_map.1 hy
  exact hf z (w.2 z hz)

theorem Core.filtered_shaped {x : Core} {st ca : Nat} {rp : Option Nat} {sd : Bool} (h : x.shaped) :
    ({ x with state := st, cause := ca, rep := rp, stopDue := sd, xfers := (x.xfers.take 1).filter (·.result.isSome) } : Core).shaped :=
  ⟨h.1, h.2.1, le_trans (List.length_filter_le _ _) (le_trans (List.length_take_le' _ _) h.2.2.1), h.2.2.2⟩

theorem Core.pend_shaped {k : Nat} {x : Core} (h : x.shaped) : (x.pend k).shaped := by
  unfold Core.pend
  split
  · exact h
  · exact h

theorem Core.putContainer_shaped {a v : Nat} {x : Core} (h : x.shaped) : (x.putContainer a v).shaped :=
  ⟨h.1, h.2.1, h.2.2.1, h.2.2.2.1, h.2.2.2.2.1, h.2.2.2.2.2.1, h.2.2.2.2.2.2.1, storeWf_set h.2.2.2.2.2.2.2⟩

theorem Core.putHalfwords_shaped {a n v : Nat} {x : Core} (h : x.shaped) : (putHalfwords a n v x).shaped := by
  unfold putHalfwords
  induction List.range n generalizing x with
  | nil => exact h
  | cons i l ih => exact ih (Core.putContainer_shaped h)

theorem Core.loadWord_shaped {b : Bool} {a v : Nat} {x : Core} (h : x.shaped) : (loadWord b a v x).shaped := by
  unfold loadWord
  split
  · exact Core.putContainer_shaped h
  · exact ⟨h.1, h.2.1, h.2.2.1, h.2.2.2.1, h.2.2.2.2.1, h.2.2.2.2.2.1, storeWf_set h.2.2.2.2.2.2.1, h.2.2.2.2.2.2.2⟩

theorem Core.started_shaped {p : Fin 8} {pc : Nat} {x : Core} (h : x.shaped) (hp : pc < 16384) : (Core.started p pc x).shaped :=
  ⟨Core.idle_shaped.1, Core.idle_shaped.2.1, h.2.2.1, hp, Core.idle_shaped.2.2.2.2.1, h.2.2.2.2.2⟩

theorem bitsOf_lt {w hi lo n : Nat} (h : 2 ^ (hi + 1 - lo) ≤ n) : bitsOf w hi lo < n := by
  unfold bitsOf
  exact lt_of_lt_of_le (Nat.mod_lt _ (by positivity)) h

/-- The cores of the reset state are as built. -/
theorem State.reset_cores : State.reset.stw.shaped :=
  ⟨rfl, fun _ hx => List.eq_of_mem_replicate hx ▸ Core.idle_shaped⟩

end Sys2Proof.Machine
end

