-- ==== Sys2Proof/Laws/InvCore.lean ====
section
/-!
SUPPORT. Every operand and flag operation of the Steward instructions leaves a core as built; the wrappers of commands keep Kept.
-/
namespace Sys2Proof.Machine

variable {κ : List Instr × Fuses}

theorem Core.setReg_shaped {i : Nat} {v : W24} {x : Core} (h : x.shaped) : (x.setReg i v).shaped :=
  ⟨⟨by simpa [Core.setReg] using h.1.1, h.1.2⟩, h.2⟩

theorem Core.setAcc_shaped {i : Nat} {v : Int} {x : Core} (h : x.shaped) : (x.setAcc i v).shaped :=
  ⟨⟨h.1.1, by simpa [Core.setAcc] using h.1.2.1, h.1.2.2⟩, h.2⟩

theorem Core.setPtr_shaped {i v : Nat} {x : Core} (h : x.shaped) : (x.setPtr i v).shaped :=
  ⟨⟨h.1.1, h.1.2.1, by simpa [Core.setPtr] using h.1.2.2.1, h.1.2.2.2⟩, h.2⟩

theorem Core.setAddrReg_shaped {k n : Nat} {v : BitVec 16} {x : Core} (h : x.shaped) : (x.setAddrReg k n v).shaped := by
  unfold Core.setAddrReg
  split
  · exact ⟨⟨h.1.1, h.1.2.1, by simpa using h.1.2.2.1, h.1.2.2.2⟩, h.2⟩
  · exact ⟨⟨h.1.1, h.1.2.1, h.1.2.2.1, by simpa using h.1.2.2.2.1, h.1.2.2.2.2⟩, h.2⟩
  · exact ⟨⟨h.1.1, h.1.2.1, h.1.2.2.1, h.1.2.2.2.1, by simpa using h.1.2.2.2.2⟩, h.2⟩

theorem Core.setSpecial_shaped {k : Nat} {v : W24} {x : Core} (h : x.shaped) : (x.setSpecial k v).shaped := by
  unfold Core.setSpecial
  dsimp only
  split <;> exact h

theorem Core.put_shaped {sat : Bool} {dd : Nat} {e : Int} {c : Option Bool} {x : Core} (h : x.shaped) : (x.put sat dd e c).shaped :=
  Core.setReg_shaped h

theorem Core.flagsOf_shaped {e : Int} {c : Bool} {x : Core} (h : x.shaped) : (x.flagsOf e c).shaped := h

theorem Core.putZn_shaped {dd : Nat} {v : W24} {x : Core} (h : x.shaped) : (x.putZn dd v).shaped := Core.setReg_shaped h

theorem Core.putLogic_shaped {dd : Nat} {v : W24} {x : Core} (h : x.shaped) : (x.putLogic dd v).shaped := Core.setReg_shaped h

theorem Core.putZ_shaped {dd : Nat} {v : W24} {x : Core} (h : x.shaped) : (x.putZ dd v).shaped := Core.setReg_shaped h

theorem Core.putAcc_shaped {sat : Bool} {i : Nat} {e : Int} {x : Core} (h : x.shaped) : (x.putAcc sat i e).shaped :=
  Core.setAcc_shaped h

theorem Core.store_shaped {a : Nat} {v : W24} {x : Core} (h : x.shaped) : (x.store a v).shaped := Core.putContainer_shaped h

theorem Core.postMod_shaped {i m : Nat} {x : Core} (h : x.shaped) : (x.postMod i m).shaped := by
  unfold Core.postMod
  dsimp only
  split
  · exact h
  · split
    · exact Core.setPtr_shaped h
    · exact Core.setPtr_shaped h

theorem Core.addOf_shaped {sat : Bool} {dd : Nat} {a b : W24} {c : Bool} {x : Core} (h : x.shaped) :
    (stwAddOf sat dd a b c x).shaped := Core.put_shaped h

theorem Core.subOf_shaped {sat : Bool} {dd : Nat} {a b : W24} {c : Bool} {x : Core} (h : x.shaped) :
    (stwSubOf sat dd a b c x).shaped := Core.put_shaped h

theorem Core.f3Loads_shaped {w : Nat} {x : Core} (h : x.shaped) : (f3Loads w x).shaped := by
  unfold f3Loads
  refine Core.postMod_shaped (Core.postMod_shaped ?_)
  split
  · refine Core.setReg_shaped ?_
    split
    · exact Core.setReg_shaped h
    · exact h
  · split
    · exact Core.setReg_shaped h
    · exact h

theorem Core.mvaOf_shaped {w : Nat} {x : Core} (h : x.shaped) : (mvaOf w x).shaped := by
  unfold mvaOf
  dsimp only
  split
  · exact Core.put_shaped h
  · exact Core.putLogic_shaped h
  · exact Core.putLogic_shaped h

theorem Core.ldaOf_shaped {w : Nat} {x : Core} (h : x.shaped) : (ldaOf w x).shaped := by
  unfold ldaOf
  dsimp only
  split
  · exact Core.setAcc_shaped h
  · exact Core.setAcc_shaped h

theorem takeable_lt {x : Core} {k : Nat} (e : takeable x = some k) : k < 4 := by
  unfold takeable at e
  split at e
  · exact List.mem_range.1 (List.mem_of_find?_eq_some e)
  · cases e

/-- An outcome that is no next state, or one Kept. -/
def KeptNext (κ : List Instr × Fuses) (o : Host.Outcome State Fault Refusal) : Prop := ∀ t, o = .next t → Kept κ t

theorem KeptNext.next {t : State} (h : Kept κ t) : KeptNext κ (.next t) := by
  intro u e; injection e with e; exact e ▸ h

theorem KeptNext.fault {r : Fault} : KeptNext κ (.fault r) := by
  intro u e; cases e

theorem act_inv {f : State → State} {s : State} (hf : ∀ s, Kept κ s → Kept κ (f s)) (h : Kept κ s) : KeptNext κ (act f s) :=
  KeptNext.next (Kept.ite (fun _ => h) (fun _ => hf s h))

end Sys2Proof.Machine
end

