-- ==== Sys2Proof/Laws/InvOps.lean ====
section
/-!
SUPPORT. Every operation of the model keeps Kept: one lemma per operation that gives a state.
-/
set_option linter.unusedVariables false
set_option linter.tactic.unusedName false
set_option linter.unusedTactic false
set_option linter.unreachableTactic false
namespace Sys2Proof.Machine


variable {κ : List Instr × Fuses}

theorem emit_inv {o : Out} {s : State} (h : Kept κ s) : Kept κ (emit o s) := by
  unfold emit
  repeat (any_goals (first
    | with_reducible assumption
    | fail_if_no_progress (with_reducible refine Kept.upd ?_ rfl rfl rfl)
    ))

theorem raiseVec_inv {v : ℕ} {s : State} (h : Kept κ s) : Kept κ (raiseVec v s) := by
  unfold raiseVec
  repeat (any_goals (first
    | with_reducible assumption
    | with_reducible refine Kept.ite (fun _ => ?_) (fun _ => ?_)
    | extract_lets +onlyGivenNames x
    | with_reducible refine emit_inv ?_
    | fail_if_no_progress (with_reducible refine Kept.upd ?_ rfl rfl rfl)
    ))

theorem noteAttn_inv {old : State} {new : State} (h : Kept κ new) : Kept κ (noteAttn old new) := by
  unfold noteAttn
  repeat (any_goals (first
    | with_reducible assumption
    | with_reducible refine Kept.ite (fun _ => ?_) (fun _ => ?_)
    | with_reducible refine raiseVec_inv ?_
    ))

theorem bump_inv {c : Counter} {n : ℕ} {s : State} (h : Kept κ s) : Kept κ (bump c n s) := by
  unfold bump
  repeat (any_goals (first
    | with_reducible assumption
    | with_reducible refine setReg_inv ?_
    ))

theorem ringIrq_inv {n : Fin 16384} {force : Bool} {s : State} (h : Kept κ s) : Kept κ (ringIrq n force s) := by
  unfold ringIrq
  repeat (any_goals (first
    | with_reducible assumption
    | with_reducible refine Kept.ite (fun _ => ?_) (fun _ => ?_)
    | with_reducible refine raiseVec_inv ?_
    ))

theorem setF_inv {f : Fld} {r : Reg} {v : ℕ} {s : State} (h : Kept κ s) : Kept κ (setF f r v s) := by
  unfold setF
  repeat (any_goals (first
    | with_reducible assumption
    | with_reducible refine setReg_inv ?_
    ))

theorem setRingCtx_inv {n : ℕ} {c : RingCtx} {s : State} (h : Kept κ s) : Kept κ (setRingCtx n c s) := by
  unfold setRingCtx
  repeat (any_goals (first
    | with_reducible assumption
    | extract_lets +onlyGivenNames x
    | fail_if_no_progress (with_reducible refine Kept.upd ?_ rfl rfl rfl)
    ))

theorem postEvent_inv {e : Event} {part : Option (Fin 8)} {a0 : ℕ} {a1 : ℕ} {s : State} (h : Kept κ s) : Kept κ (postEvent e part a0 a1 s) := by
  unfold postEvent
  repeat (any_goals (first
    | with_reducible assumption
    | with_reducible refine Kept.ite (fun _ => ?_) (fun _ => ?_)
    | extract_lets +onlyGivenNames x
    | with_reducible refine ringIrq_inv ?_
    | with_reducible refine bump_inv ?_
    | with_reducible refine hostWrite_inv ?_
    | with_reducible refine setRingCtx_inv ?_
    | with_reducible refine setF_inv ?_
    | split
    ))

theorem raise_inv {e : Event} {part : Option (Fin 8)} {a0 : ℕ} {a1 : ℕ} {s : State} (h : Kept κ s) : Kept κ (raise e part a0 a1 s) := by
  unfold raise
  repeat (any_goals (first
    | with_reducible assumption
    | with_reducible refine Kept.ite (fun _ => ?_) (fun _ => ?_)
    | extract_lets +onlyGivenNames x
    | with_reducible refine noteAttn_inv ?_
    | with_reducible refine postEvent_inv ?_
    | fail_if_no_progress (with_reducible refine Kept.upd ?_ rfl rfl rfl)
    ))

theorem setIssue_inv {m : ℕ} {pc : ℕ} {l : List FabRequest} {s : State} (h : Kept κ s) : Kept κ (setIssue m pc l s) := by
  unfold setIssue
  repeat (any_goals (first
    | with_reducible assumption
    | extract_lets +onlyGivenNames x
    | fail_if_no_progress (with_reducible refine Kept.upd ?_ rfl rfl rfl)
    ))

theorem issuePut_inv {m : ℕ} {pc : ℕ} {r : FabRequest} {s : State} (h : Kept κ s) : Kept κ (issuePut m pc r s) := by
  unfold issuePut
  repeat (any_goals (first
    | with_reducible assumption
    | with_reducible refine Kept.ite (fun _ => ?_) (fun _ => ?_)
    | (extract_lets +onlyGivenNames x; refine ((fun hx => ?_) : Kept κ x → _) ?_; on_goal 1 => clear_value x; on_goal 2 => first | with_reducible refine Kept.ite (fun _ => ?_) (fun _ => ?_) | (unfold x; split) | skip)
    | extract_lets +onlyGivenNames x
    | with_reducible refine setIssue_inv ?_
    | with_reducible refine raise_inv ?_
    ))

theorem setTarget_inv {k : ℕ} {p : TargetPort} {s : State} (h : Kept κ s) : Kept κ (setTarget k p s) := by
  unfold setTarget
  repeat (any_goals (first
    | with_reducible assumption
    | extract_lets +onlyGivenNames x
    | fail_if_no_progress (with_reducible refine Kept.upd ?_ rfl rfl rfl)
    ))

theorem issueReq_inv {k : ℕ} {r : FabRequest} {s : State} (h : Kept κ s) : Kept κ (issueReq k r s) := by
  unfold issueReq
  repeat (any_goals (first
    | with_reducible assumption
    | extract_lets +onlyGivenNames x
    | with_reducible refine setTarget_inv ?_
    | fail_if_no_progress (with_reducible refine Kept.upd ?_ rfl rfl rfl)
    ))

theorem raiseReq_inv {k : ℕ} {r : FabRequest} {s : State} (h : Kept κ s) : Kept κ (raiseReq k r s) := by
  unfold raiseReq
  repeat (any_goals (first
    | with_reducible assumption
    | with_reducible refine Kept.ite (fun _ => ?_) (fun _ => ?_)
    | extract_lets +onlyGivenNames x
    | with_reducible refine Kept.foldl (fun _ _ _ => ?_) ?_
    | with_reducible refine issueReq_inv ?_
    | with_reducible refine issuePut_inv ?_
    | split
    ))

theorem dmaRaise_inv {ch : ℕ} {write : Bool} {p : DmaPlace} {n : ℕ} {data : List Byte} {s : State} (h : Kept κ s) : Kept κ (dmaRaise ch write p n data s) := by
  unfold dmaRaise
  repeat (any_goals (first
    | with_reducible assumption
    | extract_lets +onlyGivenNames x
    | with_reducible refine raiseReq_inv ?_
    ))

theorem dmaFetch_inv {ch : ℕ} {c : DmaChan} {s : State} (h : Kept κ s) : Kept κ (dmaFetch ch c s) := by
  unfold dmaFetch
  repeat (any_goals (first
    | with_reducible assumption
    | with_reducible refine Kept.ite (fun _ => ?_) (fun _ => ?_)
    | extract_lets +onlyGivenNames x
    | with_reducible refine setDma_inv ?_
    | with_reducible refine dmaRaise_inv ?_
    | split
    ))

theorem dmaFinish_inv {ch : ℕ} {result : ℕ} {residue : ℕ} {s : State} (h : Kept κ s) : Kept κ (dmaFinish ch result residue s) := by
  unfold dmaFinish
  repeat (any_goals (first
    | with_reducible assumption
    | with_reducible refine Kept.ite (fun _ => ?_) (fun _ => ?_)
    | extract_lets +onlyGivenNames x
    | with_reducible refine raise_inv ?_
    | with_reducible refine setReg_inv ?_
    | with_reducible refine setDma_inv ?_
    | with_reducible refine setF_inv ?_
    ))

theorem portWrite_inv {bank : ℕ} {idx : ℕ} {v : ℕ} {s : State} (h : Kept κ s) : Kept κ (portWrite bank idx v s) := by
  unfold portWrite
  repeat (any_goals (first
    | with_reducible assumption
    | with_reducible refine Kept.ite (fun _ => ?_) (fun _ => ?_)
    | extract_lets +onlyGivenNames x
    | with_reducible refine Kept.foldl (fun _ _ _ => ?_) ?_
    | with_reducible refine tabSet_inv ?_
    | with_reducible refine bump_inv ?_
    | fail_if_no_progress (with_reducible refine Kept.upd ?_ rfl rfl rfl)
    ))

theorem dmaWrite_inv {p : DmaPlace} {bs : List Byte} {s : State} (h : Kept κ s) :
    ∀ t, dmaWrite p bs s = some t → Kept κ t := by
  intro t e
  unfold dmaWrite at e
  split at e
  · split at e
    · injection e with e; subst e; exact hostWrite_inv h
    · cases e
  · injection e with e; subst e
    exact Kept.foldl (fun _ _ h => onCore_inv (fun _ hx => Core.putContainer_shaped hx) h) h
  · injection e with e; subst e; exact Kept.foldl (fun _ _ h => portWrite_inv h) h
  · injection e with e; subst e
    refine h.of ?_ ?_ ?_ ?_ ?_ ?_ ?_ ?_ (fun x => storeWf_setList x) ?_ ?_ ?_ ?_ ?_ ?_ <;> first | exact id | rfl

theorem dmaRecord_inv {c : DmaChan} {result : ℕ} {residue : ℕ} {s : State} (h : Kept κ s) : ∀ t, dmaRecord c result residue s = some t → Kept κ t := by
  unfold dmaRecord
  repeat (any_goals (first
    | with_reducible assumption
    | with_reducible refine dmaWrite_inv ?_
    | split
    | (intro t e; cases e)
    ))

theorem freeNat_inv {s : State} (h : Kept κ s) : Kept κ (freeNat s).2 := by
  unfold freeNat
  repeat (any_goals (first
    | with_reducible assumption
    | fail_if_no_progress (with_reducible refine Kept.upd ?_ rfl rfl rfl)
    ))

theorem dmaEnd_inv {ch : ℕ} {c : DmaChan} {result : ℕ} {residue : ℕ} {s : State} (h : Kept κ s) : Kept κ (dmaEnd ch c result residue s) := by
  unfold dmaEnd
  repeat (any_goals (first
    | with_reducible assumption
    | with_reducible refine Kept.ite (fun _ => ?_) (fun _ => ?_)
    | (extract_lets +onlyGivenNames x; refine ((fun hx => ?_) : Kept κ x → _) ?_; on_goal 1 => clear_value x; on_goal 2 => first | with_reducible refine Kept.ite (fun _ => ?_) (fun _ => ?_) | (unfold x; split) | skip)
    | extract_lets +onlyGivenNames x
    | with_reducible refine setDma_inv ?_
    | with_reducible refine dmaFinish_inv ?_
    | with_reducible refine dmaRecord_inv ?_
    | with_reducible refine dmaRecord_inv ?_ _ (by with_reducible assumption)
    | with_reducible refine freeNat_inv ?_
    | with_reducible refine dmaFetch_inv ?_
    | with_reducible refine raise_inv ?_
    | split
    | with_reducible refine Kept.pair (by with_reducible assumption) ?_
    ))

theorem dmaTook_inv {ch : ℕ} {s : State} (h : Kept κ s) : Kept κ (dmaTook ch s) := by
  unfold dmaTook
  repeat (any_goals (first
    | with_reducible assumption
    | extract_lets +onlyGivenNames x
    | fail_if_no_progress (with_reducible refine Kept.upd ?_ rfl rfl rfl)
    ))

theorem dmaIssueReads_inv {ch n : ℕ} {s : State} (h : Kept κ s) : Kept κ (dmaIssueReads ch n s) := by
  induction n generalizing s with
  | zero => exact h
  | succ n ih =>
    unfold dmaIssueReads
    split
    · exact h
    · refine Kept.ite (fun _ => h) (fun _ => ?_)
      dsimp only
      split
      · exact setDma_inv h
      · exact Kept.ite (fun _ => setDma_inv h) (fun _ => ih (setDma_inv (dmaTook_inv (dmaRaise_inv h))))

theorem dmaIssueWrites_inv {ch n : Nat} {s : State} (h : Kept κ s) : Kept κ (dmaIssueWrites ch n s) := by
  induction n generalizing s
  · exact h
  rename_i ih
  unfold dmaIssueWrites
  repeat (any_goals (first
    | with_reducible assumption
    | with_reducible refine ih ?_
    | (with_reducible apply_assumption)
    | extract_lets +onlyGivenNames x
    | with_reducible refine setDma_inv ?_
    | with_reducible refine dmaRaise_inv ?_
    | split
    ))

theorem dmaIssue_inv {ch n : ℕ} {s : State} (h : Kept κ s) : Kept κ (dmaIssue ch n s) := by
  unfold dmaIssue
  split
  · exact h
  · refine Kept.ite (fun _ => h) (fun _ => Kept.ite (fun _ => Kept.ite (fun _ => dmaFetch_inv h) (fun _ => h)) (fun _ => ?_))
    exact dmaIssueReads_inv (dmaIssueWrites_inv h)

theorem dmaSettle_inv {ch : ℕ} {s : State} (h : Kept κ s) : Kept κ (dmaSettle ch s) := by
  unfold dmaSettle
  repeat (any_goals (first
    | with_reducible assumption
    | with_reducible refine Kept.ite (fun _ => ?_) (fun _ => ?_)
    | extract_lets +onlyGivenNames x
    | with_reducible refine dmaIssue_inv ?_
    | with_reducible refine dmaEnd_inv ?_
    | split
    ))

theorem takeReply_inv {n : ℕ} {s : State} (h : Kept κ s) : Kept κ (takeReply n s) := by
  unfold takeReply
  repeat (any_goals (first
    | with_reducible assumption
    | extract_lets +onlyGivenNames x
    | fail_if_no_progress (with_reducible refine Kept.upd ?_ rfl rfl rfl)
    ))

theorem dmaDescFetched_inv {ch : ℕ} {readOk : Bool} {s : State} (h : Kept κ s) : Kept κ (dmaDescFetched ch readOk s) := by
  unfold dmaDescFetched
  repeat (any_goals (first
    | with_reducible assumption
    | with_reducible refine Kept.ite (fun _ => ?_) (fun _ => ?_)
    | (extract_lets +onlyGivenNames x; refine ((fun hx => ?_) : Kept κ x → _) ?_; on_goal 1 => clear_value x; on_goal 2 => first | with_reducible refine Kept.ite (fun _ => ?_) (fun _ => ?_) | (unfold x; split) | skip)
    | extract_lets +onlyGivenNames x
    | with_reducible refine setDma_inv ?_
    | with_reducible refine takeReply_inv ?_
    | with_reducible refine dmaEnd_inv ?_
    | with_reducible refine freeNat_inv ?_
    | with_reducible refine dmaSettle_inv ?_
    | split
    ))

theorem ledgerQueue_inv {o : LedOp} {s : State} (h : Kept κ s) : Kept κ (ledgerQueue o s) := by
  unfold ledgerQueue
  repeat (any_goals (first
    | with_reducible assumption
    | with_reducible refine Kept.ite (fun _ => ?_) (fun _ => ?_)
    | extract_lets +onlyGivenNames x
    | with_reducible refine noteAttn_inv ?_
    | fail_if_no_progress (with_reducible refine Kept.upd ?_ rfl rfl rfl)
    ))

theorem monStateRecord_inv {s : State} (h : Kept κ s) : Kept κ (monStateRecord s) := by
  unfold monStateRecord
  repeat (any_goals (first
    | with_reducible assumption
    | with_reducible refine ledgerQueue_inv ?_
    ))

theorem setWithheld_inv {s : State} (h : Kept κ s) : Kept κ (setWithheld s) := by
  unfold setWithheld
  repeat (any_goals (first
    | with_reducible assumption
    | extract_lets +onlyGivenNames x
    | with_reducible refine noteAttn_inv ?_
    | fail_if_no_progress (with_reducible refine Kept.upd ?_ rfl rfl rfl)
    ))

theorem slotLost_inv {n : Fin 16384} {s : State} (h : Kept κ s) : Kept κ (slotLost n s) := by
  unfold slotLost
  repeat (any_goals (first
    | with_reducible assumption
    | extract_lets +onlyGivenNames x
    | with_reducible refine setRingCtx_inv ?_
    | with_reducible refine bump_inv ?_
    | with_reducible refine setWithheld_inv ?_
    ))

theorem dataDrop_inv {n : Fin 16384} {s : State} (h : Kept κ s) : Kept κ (dataDrop n s) := by
  unfold dataDrop
  repeat (any_goals (first
    | with_reducible assumption
    | with_reducible refine Kept.ite (fun _ => ?_) (fun _ => ?_)
    | (extract_lets +onlyGivenNames x; refine ((fun hx => ?_) : Kept κ x → _) ?_; on_goal 1 => clear_value x; on_goal 2 => first | with_reducible refine Kept.ite (fun _ => ?_) (fun _ => ?_) | (unfold x; split) | skip)
    | extract_lets +onlyGivenNames x
    | with_reducible refine slotLost_inv ?_
    | with_reducible refine setRingCtx_inv ?_
    | with_reducible refine raise_inv ?_
    ))

theorem dataSlot_inv {route : ℕ} {n : Fin 16384} {typ : ℕ} {payload : List Byte} {s : State} (h : Kept κ s) : Kept κ (dataSlot route n typ payload s) := by
  unfold dataSlot
  repeat (any_goals (first
    | with_reducible assumption
    | with_reducible refine Kept.ite (fun _ => ?_) (fun _ => ?_)
    | extract_lets +onlyGivenNames x
    | with_reducible refine ringIrq_inv ?_
    | with_reducible refine dataDrop_inv ?_
    | with_reducible refine hostWrite_inv ?_
    | with_reducible refine setRingCtx_inv ?_
    | with_reducible refine emit_inv ?_
    | with_reducible refine setF_inv ?_
    ))

theorem egressShort_inv {k : ℕ} {s : State} (h : Kept κ s) : Kept κ (egressShort k s) := by
  unfold egressShort
  repeat (any_goals (first
    | with_reducible assumption
    | with_reducible refine Kept.ite (fun _ => ?_) (fun _ => ?_)
    | (extract_lets +onlyGivenNames x; refine ((fun hx => ?_) : Kept κ x → _) ?_; on_goal 1 => clear_value x; on_goal 2 => first | with_reducible refine Kept.ite (fun _ => ?_) (fun _ => ?_) | (unfold x; split) | skip)
    | extract_lets +onlyGivenNames x
    | with_reducible refine bump_inv ?_
    | with_reducible refine setWithheld_inv ?_
    | with_reducible refine raise_inv ?_
    | fail_if_no_progress (with_reducible refine Kept.upd ?_ rfl rfl rfl)
    ))

theorem shareTake_inv {route : ℕ} {k : ℕ} {n : ℕ} {s : State} (h : Kept κ s) : Kept κ (shareTake route k n s).2 := by
  unfold shareTake
  repeat (any_goals (first
    | with_reducible assumption
    | with_reducible refine Kept.ite (fun _ => ?_) (fun _ => ?_)
    | extract_lets +onlyGivenNames x
    | split
    | fail_if_no_progress (with_reducible refine Kept.upd ?_ rfl rfl rfl)
    ))

theorem onPort_inv {g : ℕ} {f : PortSt → PortSt} {s : State} (h : Kept κ s) : Kept κ (onPort g f s) := by
  unfold onPort
  repeat (any_goals (first
    | with_reducible assumption
    | extract_lets +onlyGivenNames x
    | fail_if_no_progress (with_reducible refine Kept.upd ?_ rfl rfl rfl)
    ))

theorem lineSend_inv {n : ℕ} {bs : List Byte} {s : State} (h : Kept κ s) : Kept κ (lineSend n bs s).2 := by
  unfold lineSend
  repeat (any_goals (first
    | with_reducible assumption
    | with_reducible refine Kept.ite (fun _ => ?_) (fun _ => ?_)
    | extract_lets +onlyGivenNames x
    | with_reducible refine freeNat_inv ?_
    | with_reducible refine Kept.pair (by with_reducible assumption) ?_
    | fail_if_no_progress (with_reducible refine Kept.upd ?_ rfl rfl rfl)
    ))

theorem linkSend_inv {n : ℕ} {kind : ℕ} {bs : List Byte} {s : State} (h : Kept κ s) : Kept κ (linkSend n kind bs s) := by
  unfold linkSend
  repeat (any_goals (first
    | with_reducible assumption
    | extract_lets +onlyGivenNames x
    | with_reducible refine emit_inv ?_
    | with_reducible refine lineSend_inv ?_
    ))

theorem sendLink_inv {g : ℕ} {f : LinkFrame} {s : State} (h : Kept κ s) : Kept κ (sendLink g f s) := by
  unfold sendLink
  repeat (any_goals (first
    | with_reducible assumption
    | extract_lets +onlyGivenNames x
    | with_reducible refine linkSend_inv ?_
    | with_reducible refine onPort_inv ?_
    | with_reducible refine Kept.getD ?_ ?_
    | split
    ))

theorem drainWaiting_inv {g n : Nat} {s : State} (h : Kept κ s) : Kept κ (drainWaiting g n s) := by
  induction n generalizing s with
  | zero => exact h
  | succ n ih =>
    rw [drainWaiting]
    dsimp only
    split
    · exact h
    · split
      · exact h
      · exact ih (sendLink_inv (onPort_inv h))

theorem virosSend_inv {g : ℕ} {frame : List Byte} {s : State} (h : Kept κ s) : Kept κ (virosSend g frame s) := by
  unfold virosSend
  repeat (any_goals (first
    | with_reducible assumption
    | extract_lets +onlyGivenNames x
    | with_reducible refine drainWaiting_inv ?_
    | with_reducible refine onPort_inv ?_
    ))

theorem portSend_inv {route : ℕ} {typ : ℕ} {payload : List Byte} {s : State} (h : Kept κ s) : Kept κ (portSend route typ payload s) := by
  unfold portSend
  repeat (any_goals (first
    | with_reducible assumption
    | with_reducible refine Kept.ite (fun _ => ?_) (fun _ => ?_)
    | (extract_lets +onlyGivenNames x; refine ((fun hx => ?_) : Kept κ x → _) ?_; on_goal 1 => clear_value x; on_goal 2 => first | with_reducible refine Kept.ite (fun _ => ?_) (fun _ => ?_) | (unfold x; split) | skip)
    | extract_lets +onlyGivenNames x
    | with_reducible refine emit_inv ?_
    | with_reducible refine virosSend_inv ?_
    | with_reducible refine setWithheld_inv ?_
    | with_reducible refine shareTake_inv ?_
    | with_reducible refine egressShort_inv ?_
    | with_reducible refine Kept.getD ?_ ?_
    | split
    | with_reducible refine Kept.pair (by with_reducible assumption) ?_
    | fail_if_no_progress (with_reducible refine Kept.upd ?_ rfl rfl rfl)
    ))

theorem sendProductAs_inv {epoch : ℕ} {p : Fin 8} {typ : ℕ} {route : ℕ} {body : List Byte} {s : State} (h : Kept κ s) : Kept κ (sendProductAs epoch p typ route body s) := by
  unfold sendProductAs
  repeat (any_goals (first
    | with_reducible assumption
    | with_reducible refine Kept.ite (fun _ => ?_) (fun _ => ?_)
    | (extract_lets +onlyGivenNames x; refine ((fun hx => ?_) : Kept κ x → _) ?_; on_goal 1 => clear_value x; on_goal 2 => first | with_reducible refine Kept.ite (fun _ => ?_) (fun _ => ?_) | (unfold x; split) | skip)
    | extract_lets +onlyGivenNames x
    | with_reducible refine setPart_inv ?_
    | with_reducible refine dataDrop_inv ?_
    | with_reducible refine portSend_inv ?_
    | with_reducible refine bump_inv ?_
    | with_reducible refine slotLost_inv ?_
    | with_reducible refine setWithheld_inv ?_
    | with_reducible refine dataSlot_inv ?_
    | with_reducible refine shareTake_inv ?_
    | with_reducible refine egressShort_inv ?_
    ))

theorem sendProduct_inv {p : Fin 8} {typ : ℕ} {route : ℕ} {body : List Byte} {s : State} (h : Kept κ s) : Kept κ (sendProduct p typ route body s) := by
  unfold sendProduct
  repeat (any_goals (first
    | with_reducible assumption
    | with_reducible refine sendProductAs_inv ?_
    ))

theorem dumpColumn_inv {p : Fin 8} {chan : ℕ} {j : ℕ} {cfg : PartCfg} {c : ChanState} {swept : Bool} {s : State} (h : Kept κ s) : Kept κ (dumpColumn p chan j cfg c swept s) := by
  unfold dumpColumn
  repeat (any_goals (first
    | with_reducible assumption
    | with_reducible refine Kept.ite (fun _ => ?_) (fun _ => ?_)
    | extract_lets +onlyGivenNames x
    | with_reducible refine Kept.foldl (fun _ _ _ => ?_) ?_
    | with_reducible refine raise_inv ?_
    | with_reducible refine bump_inv ?_
    | with_reducible refine setWithheld_inv ?_
    | with_reducible refine sendProduct_inv ?_
    ))

theorem noteSat_inv {p : Fin 8} {chan sats : ℕ} {s : State} (h : Kept κ s) : Kept κ (noteSat p chan sats s) := by
  unfold noteSat
  repeat (any_goals (first
    | with_reducible assumption
    | with_reducible refine Kept.ite (fun _ => ?_) (fun _ => ?_)
    | extract_lets +onlyGivenNames x
    | with_reducible refine raise_inv ?_
    | with_reducible refine setChan_inv ?_
    | split
    ))

theorem dumpChannel_inv {p : Fin 8} {chan : ℕ} {swept : Bool} {s : State} (h : Kept κ s) : Kept κ (dumpChannel p chan swept s) := by
  unfold dumpChannel
  repeat (any_goals (first
    | with_reducible assumption
    | with_reducible refine Kept.ite (fun _ => ?_) (fun _ => ?_)
    | extract_lets +onlyGivenNames x
    | with_reducible refine Kept.foldl (fun _ _ _ => ?_) ?_
    | with_reducible refine bump_inv ?_
    | with_reducible refine dumpColumn_inv ?_
    | with_reducible refine noteSat_inv ?_
    | split
    | fail_if_no_progress (with_reducible refine Kept.upd ?_ rfl rfl rfl)
    ))

theorem setTokens_inv {m : ℕ} {n : ℕ} {s : State} (h : Kept κ s) : Kept κ (setTokens m n s) := by
  unfold setTokens
  repeat (any_goals (first
    | with_reducible assumption
    | extract_lets +onlyGivenNames x
    | fail_if_no_progress (with_reducible refine Kept.upd ?_ rfl rfl rfl)
    ))

theorem fillQueue_inv {k : ℕ} {a1 : ℕ} {a2 : State} (h : Kept κ a2) : Kept κ (fillQueue k a1 a2) := by
  revert h; fun_induction fillQueue k a1 a2 <;> intro h
  repeat (any_goals (first
    | with_reducible assumption
    | (with_reducible apply_assumption)
    | with_reducible refine Kept.ite (fun _ => ?_) (fun _ => ?_)
    | extract_lets +onlyGivenNames x
    | with_reducible refine setTokens_inv ?_
    | with_reducible refine setTarget_inv ?_
    | split
    ))

theorem ringNotify_inv {k : Nat} {s : State} (h : Kept κ s) : Kept κ (ringNotify k s) := by
  unfold ringNotify
  split
  · refine Kept.mapCores (fun x hx => ?_) h
    split
    · exact Core.pend_shaped hx
    · exact hx
  · exact h

theorem ringAppend_inv {k : ℕ} {bs : List Byte} {s : State} (h : Kept κ s) : Kept κ (ringAppend k bs s) := by
  unfold ringAppend
  repeat (any_goals (first
    | with_reducible assumption
    | extract_lets +onlyGivenNames x
    | with_reducible refine ringNotify_inv ?_
    | with_reducible refine setSysRing_inv ?_
    ))

theorem logFire_inv {f : Fire} {disp : ℕ} {crib : ℕ} {seq : ℕ} {s : State} (h : Kept κ s) : Kept κ (logFire f disp crib seq s) := by
  unfold logFire
  repeat (any_goals (first
    | with_reducible assumption
    | with_reducible refine ringAppend_inv ?_
    ))

theorem setCrib_inv {c : ℕ} {x : Crib} {s : State} (h : Kept κ s) : Kept κ (setCrib c x s) := by
  unfold setCrib
  repeat (any_goals (first
    | with_reducible assumption
    | extract_lets +onlyGivenNames x
    | fail_if_no_progress (with_reducible refine Kept.upd ?_ rfl rfl rfl)
    ))

theorem cribsHeld_inv {s : State} (h : Kept κ s) : Kept κ (cribsHeld s) := by
  unfold cribsHeld
  repeat (any_goals (first
    | with_reducible assumption
    | with_reducible refine Kept.ite (fun _ => ?_) (fun _ => ?_)
    | extract_lets +onlyGivenNames x
    | with_reducible refine Kept.foldl (fun _ _ _ => ?_) ?_
    | with_reducible refine setCrib_inv ?_
    | split
    ))

theorem pulse_inv {pin ns : ℕ} {s : State} (h : Kept κ s) : Kept κ (pulse pin ns s) := by
  unfold pulse
  split
  · exact emit_inv h
  · exact h

theorem startCrib_inv {c : CaptCfg} {s0 : Option ℕ} {slots : Option (List CaptSlot)} {s : State} (h : Kept κ s) : Kept κ (startCrib c s0 slots s) := by
  unfold startCrib
  repeat (any_goals (first
    | with_reducible assumption
    | extract_lets +onlyGivenNames x
    | with_reducible refine setCrib_inv ?_
    | split
    ))

theorem takeOver_inv {k : CaptCfg} {s0 : ℕ} {s : State} (h : Kept κ s) : Kept κ (takeOver k s0 s) := by
  unfold takeOver
  repeat (any_goals (first
    | with_reducible assumption
    | with_reducible refine Kept.ite (fun _ => ?_) (fun _ => ?_)
    | (extract_lets +onlyGivenNames x; refine ((fun hx => ?_) : Kept κ x → _) ?_; on_goal 1 => clear_value x; on_goal 2 => first | with_reducible refine Kept.ite (fun _ => ?_) (fun _ => ?_) | (unfold x; split) | skip)
    | extract_lets +onlyGivenNames x
    | with_reducible refine startCrib_inv ?_
    | with_reducible refine raise_inv ?_
    | split
    ))

theorem openEvent_inv {a : Arm} {k : CaptCfg} {crib : ℕ} {f : Fire} {s : State} (h : Kept κ s) : Kept κ (openEvent a k crib f s) := by
  unfold openEvent
  repeat (any_goals (first
    | with_reducible assumption
    | with_reducible refine Kept.ite (fun _ => ?_) (fun _ => ?_)
    | (extract_lets +onlyGivenNames x; refine ((fun hx => ?_) : Kept κ x → _) ?_; on_goal 1 => clear_value x; on_goal 2 => first | with_reducible refine Kept.ite (fun _ => ?_) (fun _ => ?_) | (unfold x; split) | skip)
    | extract_lets +onlyGivenNames x
    | with_reducible refine raise_inv ?_
    | with_reducible refine setCrib_inv ?_
    | with_reducible refine cribsHeld_inv ?_
    | with_reducible refine pulse_inv ?_
    | with_reducible refine takeOver_inv ?_
    | with_reducible refine logFire_inv ?_
    | fail_if_no_progress (with_reducible refine Kept.upd ?_ rfl rfl rfl)
    ))

theorem newEvent_inv {a : Arm} {f : Fire} {s : State} (h : Kept κ s) : Kept κ (newEvent a f s).2 := by
  unfold newEvent
  repeat (any_goals (first
    | with_reducible assumption
    | extract_lets +onlyGivenNames x
    | with_reducible refine raise_inv ?_
    | with_reducible refine bump_inv ?_
    | with_reducible refine openEvent_inv ?_
    | with_reducible refine logFire_inv ?_
    | split
    ))

theorem onRing_inv {k : ℕ} {f : BellRingSt → BellRingSt} {s : State} (h : Kept κ s) : Kept κ (onRing k f s) := by
  unfold onRing
  repeat (any_goals (first
    | with_reducible assumption
    | extract_lets +onlyGivenNames x
    | fail_if_no_progress (with_reducible refine Kept.upd ?_ rfl rfl rfl)
    ))

theorem backoffEnd_inv {k : ℕ} {s : State} (h : Kept κ s) : Kept κ (backoffEnd k s) := by
  unfold backoffEnd
  repeat (any_goals (first
    | with_reducible assumption
    | with_reducible refine Kept.ite (fun _ => ?_) (fun _ => ?_)
    | extract_lets +onlyGivenNames x
    | with_reducible refine onRing_inv ?_
    ))

theorem coreFault_inv {c cause : Nat} {s : State} (h : Kept κ s) : Kept κ (coreFault c cause s) := by
  unfold coreFault
  exact raise_inv (setCore_inv (Core.filtered_shaped (coreOf_shaped h)) h)

theorem masterReset_inv {c : MasterClass} {ch : Option ℕ} {s : State} (h : Kept κ s) : Kept κ (masterReset c ch s) := by
  unfold masterReset
  repeat (any_goals (first
    | with_reducible assumption
    | extract_lets +onlyGivenNames x
    | with_reducible refine setTarget_inv ?_
    | split
    | fail_if_no_progress (with_reducible refine Kept.upd ?_ rfl rfl rfl)
    ))

theorem stwFault_inv {c cause : Nat} {s : State} (h : Kept κ s) : Kept κ (stwFault c cause s) := by
  unfold stwFault
  exact coreFault_inv (masterReset_inv h)

theorem stwAdvance_inv {c : Nat} {s : State} (h : Kept κ s) : Kept κ (stwAdvance c s) := by
  have hx := coreOf_shaped (c := c) h
  unfold stwAdvance
  dsimp only
  split
  · exact setCore_inv hx h
  · split
    · exact stwFault_inv (setCore_inv hx h)
    · exact setCore_inv ⟨hx.1, hx.2.1, hx.2.2.1, show (coreOf c s).pc + 1 < 16384 by omega, hx.2.2.2.2⟩ h

theorem dropDesc_inv {d : Desc} {s : State} (h : Kept κ s) : Kept κ (dropDesc d s) := by
  unfold dropDesc
  repeat (any_goals (first
    | with_reducible assumption
    | extract_lets +onlyGivenNames x
    | fail_if_no_progress (with_reducible refine Kept.upd ?_ rfl rfl rfl)
    ))

theorem releaseCpl_inv {n : ℕ} {s : State} (h : Kept κ s) : Kept κ (releaseCpl n s) := by
  unfold releaseCpl
  repeat (any_goals (first
    | with_reducible assumption
    | extract_lets +onlyGivenNames x
    | with_reducible refine setRingCtx_inv ?_
    ))

theorem setTagRec_inv {t : ℕ} {r : TagRec} {s : State} (h : Kept κ s) : Kept κ (setTagRec t r s) := by
  unfold setTagRec
  repeat (any_goals (first
    | with_reducible assumption
    | extract_lets +onlyGivenNames x
    | fail_if_no_progress (with_reducible refine Kept.upd ?_ rfl rfl rfl)
    ))

theorem writeCompletion_inv {d : Desc} {status : ℕ} {r0 : ℕ} {r1 : ℕ} {s : State} (h : Kept κ s) : Kept κ (writeCompletion d status r0 r1 s) := by
  unfold writeCompletion
  repeat (any_goals (first
    | with_reducible assumption
    | with_reducible refine Kept.ite (fun _ => ?_) (fun _ => ?_)
    | extract_lets +onlyGivenNames x
    | with_reducible refine ringIrq_inv ?_
    | with_reducible refine hostWrite_inv ?_
    | with_reducible refine setTagRec_inv ?_
    | with_reducible refine setF_inv ?_
    ))

theorem complete_inv {d : Desc} {status : ℕ} {r0 : ℕ} {r1 : ℕ} {s : State} (h : Kept κ s) : Kept κ (complete d status r0 r1 s) := by
  unfold complete
  repeat (any_goals (first
    | with_reducible assumption
    | with_reducible refine Kept.ite (fun _ => ?_) (fun _ => ?_)
    | extract_lets +onlyGivenNames x
    | with_reducible refine writeCompletion_inv ?_
    | with_reducible refine setTagRec_inv ?_
    | with_reducible refine releaseCpl_inv ?_
    | with_reducible refine dropDesc_inv ?_
    | fail_if_no_progress (with_reducible refine Kept.upd ?_ rfl rfl rfl)
    ))

theorem stwStopNow_inv {c : Nat} {s : State} (h : Kept κ s) : Kept κ (stwStopNow c s) := by
  unfold stwStopNow
  refine Kept.foldl (fun _ _ h => complete_inv h) (raise_inv (masterReset_inv ?_))
  exact setCore_inv (Core.filtered_shaped (coreOf_shaped h)) h

theorem stwBoundary_inv {c : ℕ} {s : State} (h : Kept κ s) : Kept κ (stwBoundary c s) := by
  unfold stwBoundary
  repeat (any_goals (first
    | with_reducible assumption
    | with_reducible refine Kept.ite (fun _ => ?_) (fun _ => ?_)
    | extract_lets +onlyGivenNames x
    | with_reducible refine stwStopNow_inv ?_
    ))

theorem stwExec_inv {c op : Nat} {f : Nat → State → State} {s : State}
    (hf : ∀ w s, Kept κ s → Kept κ (f w s)) (h : Kept κ s) : Kept κ (stwExec c op f s) := by
  unfold stwExec
  dsimp only
  split
  · exact h
  · exact stwBoundary_inv (hf _ _ (setCore_inv (coreOf_shaped h) h))

theorem onLane_inv {n : ℕ} {f : LaneSt → LaneSt} {s : State} (h : Kept κ s) : Kept κ (onLane n f s) := by
  unfold onLane
  repeat (any_goals (first
    | with_reducible assumption
    | extract_lets +onlyGivenNames x
    | fail_if_no_progress (with_reducible refine Kept.upd ?_ rfl rfl rfl)
    ))

theorem sendLowPower_inv {n : ℕ} {k : ℕ} {s : State} (h : Kept κ s) : Kept κ (sendLowPower n k s) := by
  unfold sendLowPower
  repeat (any_goals (first
    | with_reducible assumption
    | with_reducible refine linkSend_inv ?_
    ))

theorem bellLaneStops_inv {l : ℕ} {s : State} (h : Kept κ s) : Kept κ (bellLaneStops l s) := by
  unfold bellLaneStops
  repeat (any_goals (first
    | with_reducible assumption
    | with_reducible refine Kept.ite (fun _ => ?_) (fun _ => ?_)
    | (extract_lets +onlyGivenNames x; refine ((fun hx => ?_) : Kept κ x → _) ?_; on_goal 1 => clear_value x; on_goal 2 => first | with_reducible refine Kept.ite (fun _ => ?_) (fun _ => ?_) | (unfold x; split) | skip)
    | extract_lets +onlyGivenNames x
    | with_reducible refine setF_inv ?_
    | fail_if_no_progress (with_reducible refine Kept.upd ?_ rfl rfl rfl)
    ))

theorem laneEnter_inv {n : ℕ} {st : ℕ} {s : State} (h : Kept κ s) : Kept κ (laneEnter n st s) := by
  unfold laneEnter
  repeat (any_goals (first
    | with_reducible assumption
    | with_reducible refine Kept.ite (fun _ => ?_) (fun _ => ?_)
    | (extract_lets +onlyGivenNames x; refine ((fun hx => ?_) : Kept κ x → _) ?_; on_goal 1 => clear_value x; on_goal 2 => first | with_reducible refine Kept.ite (fun _ => ?_) (fun _ => ?_) | (unfold x; split) | skip)
    | extract_lets +onlyGivenNames x
    | with_reducible refine bellLaneStops_inv ?_
    | with_reducible refine setF_inv ?_
    | with_reducible refine raise_inv ?_
    ))

theorem sleepLane_inv {n : ℕ} {f : LowPower → LowPower} {s : State} (h : Kept κ s) : Kept κ (sleepLane n f s) := by
  unfold sleepLane
  repeat (any_goals (first
    | with_reducible assumption
    | with_reducible refine Kept.ite (fun _ => ?_) (fun _ => ?_)
    | (extract_lets +onlyGivenNames x; refine ((fun hx => ?_) : Kept κ x → _) ?_; on_goal 1 => clear_value x; on_goal 2 => first | with_reducible refine Kept.ite (fun _ => ?_) (fun _ => ?_) | (unfold x; split) | skip)
    | extract_lets +onlyGivenNames x
    | with_reducible refine onLane_inv ?_
    | with_reducible refine laneEnter_inv ?_
    ))

theorem askLowPower_inv {n : ℕ} {s : State} (h : Kept κ s) : Kept κ (askLowPower n s) := by
  unfold askLowPower
  repeat (any_goals (first
    | with_reducible assumption
    | with_reducible refine Kept.ite (fun _ => ?_) (fun _ => ?_)
    | (extract_lets +onlyGivenNames x; refine ((fun hx => ?_) : Kept κ x → _) ?_; on_goal 1 => clear_value x; on_goal 2 => first | with_reducible refine Kept.ite (fun _ => ?_) (fun _ => ?_) | (unfold x; split) | skip)
    | extract_lets +onlyGivenNames x
    | with_reducible refine sendLowPower_inv ?_
    | with_reducible refine onLane_inv ?_
    | with_reducible refine sleepLane_inv ?_
    ))

theorem onQuad_inv {q : ℕ} {f : Quadrant → Quadrant} {s : State} (h : Kept κ s) : Kept κ (onQuad q f s) := by
  unfold onQuad
  repeat (any_goals (first
    | with_reducible assumption
    | with_reducible refine setQuad_inv ?_
    ))

theorem recoverLag_inv {p : Fin 8} {c : Copy} {q : ℕ} {s : State} (h : Kept κ s) : Kept κ (recoverLag p c q s) := by
  unfold recoverLag
  repeat (any_goals (first
    | with_reducible assumption
    | extract_lets +onlyGivenNames x
    | with_reducible refine onQuad_inv ?_
    ))

theorem endWindow_inv {q : ℕ} {s : State} (h : Kept κ s) : Kept κ (endWindow q s) := by
  unfold endWindow
  repeat (any_goals (first
    | with_reducible assumption
    | with_reducible refine onQuad_inv ?_
    ))

theorem tryEndWindow_inv {q : ℕ} {boundary : Bool} {s : State} (h : Kept κ s) : Kept κ (tryEndWindow q boundary s) := by
  unfold tryEndWindow
  repeat (any_goals (first
    | with_reducible assumption
    | with_reducible refine Kept.ite (fun _ => ?_) (fun _ => ?_)
    | extract_lets +onlyGivenNames x
    | with_reducible refine endWindow_inv ?_
    | with_reducible refine onQuad_inv ?_
    ))

theorem onLink_inv {l : ℕ} {f : BellLink → BellLink} {s : State} (h : Kept κ s) : Kept κ (onLink l f s) := by
  unfold onLink
  repeat (any_goals (first
    | with_reducible assumption
    | extract_lets +onlyGivenNames x
    | fail_if_no_progress (with_reducible refine Kept.upd ?_ rfl rfl rfl)
    ))

theorem noteDelay_inv {l : ℕ} {d : ℤ} {s : State} (h : Kept κ s) : Kept κ (noteDelay l d s) := by
  unfold noteDelay
  repeat (any_goals (first
    | with_reducible assumption
    | with_reducible refine Kept.ite (fun _ => ?_) (fun _ => ?_)
    | (extract_lets +onlyGivenNames x; refine ((fun hx => ?_) : Kept κ x → _) ?_; on_goal 1 => clear_value x; on_goal 2 => first | with_reducible refine Kept.ite (fun _ => ?_) (fun _ => ?_) | (unfold x; split) | skip)
    | extract_lets +onlyGivenNames x
    | with_reducible refine setF_inv ?_
    | with_reducible refine onLink_inv ?_
    | with_reducible refine raise_inv ?_
    | with_reducible refine laneEnter_inv ?_
    ))

theorem measureLink_inv {lane : ℕ} {bs : List Byte} {s : State} (h : Kept κ s) : Kept κ (measureLink lane bs s) := by
  unfold measureLink
  repeat (any_goals (first
    | with_reducible assumption
    | with_reducible refine Kept.ite (fun _ => ?_) (fun _ => ?_)
    | extract_lets +onlyGivenNames x
    | with_reducible refine noteDelay_inv ?_
    | split
    ))

theorem portFrame_inv {g : ℕ} {frame : List Byte} {s : State} (h : Kept κ s) : Kept κ (portFrame g frame s) := by
  unfold portFrame
  repeat (any_goals (first
    | with_reducible assumption
    | with_reducible refine Kept.ite (fun _ => ?_) (fun _ => ?_)
    | with_reducible refine virosSend_inv ?_
    | with_reducible refine emit_inv ?_
    ))

theorem dropLatch_inv {s : State} (h : Kept κ s) : Kept κ (dropLatch s) := by
  unfold dropLatch
  repeat (any_goals (first
    | with_reducible assumption
    | extract_lets +onlyGivenNames x
    | with_reducible refine raise_inv ?_
    | split
    | fail_if_no_progress (with_reducible refine Kept.upd ?_ rfl rfl rfl)
    ))

theorem dmaNoChain_inv {ch : ℕ} {c : DmaChan} {s : State} (h : Kept κ s) : Kept κ (dmaNoChain ch c s) := by
  unfold dmaNoChain
  repeat (any_goals (first
    | with_reducible assumption
    | extract_lets +onlyGivenNames x
    | with_reducible refine freeNat_inv ?_
    | with_reducible refine dmaRecord_inv ?_ _ (by with_reducible assumption)
    | with_reducible refine dmaFinish_inv ?_
    | with_reducible refine setDma_inv ?_
    | split
    ))

theorem dmaStartChain_inv {ch : ℕ} {src : ℕ} {dst : ℕ} {s : State} (h : Kept κ s) : Kept κ (dmaStartChain ch src dst s) := by
  unfold dmaStartChain
  repeat (any_goals (first
    | with_reducible assumption
    | with_reducible refine Kept.ite (fun _ => ?_) (fun _ => ?_)
    | extract_lets +onlyGivenNames x
    | with_reducible refine setDma_inv ?_
    | with_reducible refine dmaNoChain_inv ?_
    | with_reducible refine dmaIssue_inv ?_
    ))

theorem dmaStartCopy_inv {ch : ℕ} {src : ℕ} {dst : ℕ} {n : ℕ} {s : State} (h : Kept κ s) : Kept κ (dmaStartCopy ch src dst n s) := by
  unfold dmaStartCopy
  repeat (any_goals (first
    | with_reducible assumption
    | with_reducible refine dmaSettle_inv ?_
    | with_reducible refine setDma_inv ?_
    ))

theorem dmaStart_inv {ch : ℕ} {s : State} (h : Kept κ s) : Kept κ (dmaStart ch s) := by
  unfold dmaStart
  repeat (any_goals (first
    | with_reducible assumption
    | with_reducible refine Kept.ite (fun _ => ?_) (fun _ => ?_)
    | (extract_lets +onlyGivenNames x; refine ((fun hx => ?_) : Kept κ x → _) ?_; on_goal 1 => clear_value x; on_goal 2 => first | with_reducible refine Kept.ite (fun _ => ?_) (fun _ => ?_) | (unfold x; split) | skip)
    | extract_lets +onlyGivenNames x
    | with_reducible refine setF_inv ?_
    | with_reducible refine dmaStartChain_inv ?_
    | with_reducible refine dmaStartCopy_inv ?_
    ))

theorem dmaStop_inv {ch : ℕ} {result : ℕ} {s : State} (h : Kept κ s) : Kept κ (dmaStop ch result s) := by
  unfold dmaStop
  repeat (any_goals (first
    | with_reducible assumption
    | with_reducible refine Kept.ite (fun _ => ?_) (fun _ => ?_)
    | extract_lets +onlyGivenNames x
    | with_reducible refine dmaSettle_inv ?_
    | with_reducible refine dmaEnd_inv ?_
    | with_reducible refine freeNat_inv ?_
    | with_reducible refine masterReset_inv ?_
    | with_reducible refine setDma_inv ?_
    | split
    ))

theorem dmaCtlWrite_inv {m : Master} {ch : ℕ} {v : Payload} {s : State} (h : Kept κ s) : Kept κ (dmaCtlWrite m ch v s) := by
  unfold dmaCtlWrite
  repeat (any_goals (first
    | with_reducible assumption
    | with_reducible refine Kept.ite (fun _ => ?_) (fun _ => ?_)
    | extract_lets +onlyGivenNames x
    | with_reducible refine dmaStart_inv ?_
    | with_reducible refine dmaStop_inv ?_
    | with_reducible refine setF_inv ?_
    ))

theorem issueOne_inv {m : ℕ} {s : State} (h : Kept κ s) : Kept κ (issueOne m s) := by
  unfold issueOne
  repeat (any_goals (first
    | with_reducible assumption
    | extract_lets +onlyGivenNames x
    | with_reducible refine setIssue_inv ?_
    | with_reducible refine issueReq_inv ?_
    | split
    | fail_if_no_progress (with_reducible refine Kept.upd ?_ rfl rfl rfl)
    ))

theorem issueAll_inv {s : State} (h : Kept κ s) : Kept κ (issueAll s) := by
  unfold issueAll
  repeat (any_goals (first
    | with_reducible assumption
    | with_reducible refine Kept.foldl (fun _ _ _ => ?_) ?_
    | with_reducible refine issueOne_inv ?_
    ))

theorem showBell_inv {s : State} (h : Kept κ s) : Kept κ (showBell s) := by
  unfold showBell
  repeat (any_goals (first
    | with_reducible assumption
    | extract_lets +onlyGivenNames x
    | with_reducible refine setF_inv ?_
    ))

theorem bellCfgWrite_inv {v : Payload} {s : State} (h : Kept κ s) : Kept κ (bellCfgWrite v s) := by
  unfold bellCfgWrite
  repeat (any_goals (first
    | with_reducible assumption
    | with_reducible refine Kept.ite (fun _ => ?_) (fun _ => ?_)
    | (extract_lets +onlyGivenNames x; refine ((fun hx => ?_) : Kept κ x → _) ?_; on_goal 1 => clear_value x; on_goal 2 => first | with_reducible refine Kept.ite (fun _ => ?_) (fun _ => ?_) | (unfold x; split) | skip)
    | extract_lets +onlyGivenNames x
    | with_reducible refine showBell_inv ?_
    | with_reducible refine raise_inv ?_
    | with_reducible refine setReg_inv ?_
    | with_reducible refine ledgerQueue_inv ?_
    | fail_if_no_progress (with_reducible refine Kept.upd ?_ rfl rfl rfl)
    ))

theorem captureOpen_inv {p : Fin 8} {first : ℕ} {ends : ℕ} {slots : List SlotMap} {s : State} (h : Kept κ s) : Kept κ (captureOpen p first ends slots s) := by
  unfold captureOpen
  repeat (any_goals (first
    | with_reducible assumption
    | with_reducible refine Kept.ite (fun _ => ?_) (fun _ => ?_)
    | extract_lets +onlyGivenNames x
    | with_reducible refine Kept.foldl (fun _ _ _ => ?_) ?_
    | with_reducible refine raise_inv ?_
    | with_reducible refine setCrib_inv ?_
    | split
    ))

theorem onPtp_inv {f : PtpClock → PtpClock} {s : State} (h : Kept κ s) : Kept κ (onPtp f s) := by
  unfold onPtp
  repeat (any_goals (first
    | with_reducible assumption
    | extract_lets +onlyGivenNames x
    | fail_if_no_progress (with_reducible refine Kept.upd ?_ rfl rfl rfl)
    ))

theorem updateTimeq_inv {s : State} (h : Kept κ s) : Kept κ (updateTimeq s) := by
  unfold updateTimeq
  repeat (any_goals (first
    | with_reducible assumption
    | with_reducible refine Kept.ite (fun _ => ?_) (fun _ => ?_)
    | extract_lets +onlyGivenNames x
    | with_reducible refine raise_inv ?_
    | with_reducible refine noteAttn_inv ?_
    | fail_if_no_progress (with_reducible refine Kept.upd ?_ rfl rfl rfl)
    ))

theorem servoUpdate_inv {th : ℤ} {s : State} (h : Kept κ s) : Kept κ (servoUpdate th s) := by
  unfold servoUpdate
  repeat (any_goals (first
    | with_reducible assumption
    | with_reducible refine Kept.ite (fun _ => ?_) (fun _ => ?_)
    | extract_lets +onlyGivenNames x
    | with_reducible refine raise_inv ?_
    | with_reducible refine updateTimeq_inv ?_
    | with_reducible refine setLocalQ_inv ?_
    | with_reducible refine freeNat_inv ?_
    | with_reducible refine setF_inv ?_
    | fail_if_no_progress (with_reducible refine Kept.upd ?_ rfl rfl rfl)
    ))

theorem ptpDelayResp_inv {m : List Byte} {s : State} (h : Kept κ s) : Kept κ (ptpDelayResp m s) := by
  unfold ptpDelayResp
  repeat (any_goals (first
    | with_reducible assumption
    | with_reducible refine Kept.ite (fun _ => ?_) (fun _ => ?_)
    | extract_lets +onlyGivenNames x
    | with_reducible refine servoUpdate_inv ?_
    | with_reducible refine onPtp_inv ?_
    | split
    ))

theorem stopDescs_inv {s : State} (h : Kept κ s) : Kept κ (stopDescs s) := by
  unfold stopDescs
  repeat (any_goals (first
    | with_reducible assumption
    | with_reducible refine Kept.foldl (fun _ _ _ => ?_) ?_
    | with_reducible refine complete_inv ?_
    ))

theorem stopDevice_inv {s : State} (h : Kept κ s) : Kept κ (stopDevice s) := by
  unfold stopDevice
  repeat (any_goals (first
    | with_reducible assumption
    | with_reducible refine Kept.ite (fun _ => ?_) (fun _ => ?_)
    | extract_lets +onlyGivenNames x
    | with_reducible refine Kept.foldl (fun _ _ _ => ?_) ?_
    | with_reducible refine dmaStop_inv ?_
    | with_reducible refine masterReset_inv ?_
    | with_reducible refine stopDescs_inv ?_
    | with_reducible refine noteAttn_inv ?_
    | fail_if_no_progress (with_reducible refine Kept.upd ?_ rfl rfl rfl)
    ))

theorem pwrWarnNow_inv {s : State} (h : Kept κ s) : Kept κ (pwrWarnNow s) := by
  unfold pwrWarnNow
  repeat (any_goals (first
    | with_reducible assumption
    | with_reducible refine Kept.ite (fun _ => ?_) (fun _ => ?_)
    | extract_lets +onlyGivenNames x
    | with_reducible refine raise_inv ?_
    | with_reducible refine noteAttn_inv ?_
    | with_reducible refine stopDevice_inv ?_
    | fail_if_no_progress (with_reducible refine Kept.upd ?_ rfl rfl rfl)
    ))

theorem descFetch_inv {n : Fin 16384} {readOk : Bool} {s : State} (h : Kept κ s) : Kept κ (descFetch n readOk s) := by
  unfold descFetch
  repeat (any_goals (first
    | with_reducible assumption
    | with_reducible refine Kept.ite (fun _ => ?_) (fun _ => ?_)
    | extract_lets +onlyGivenNames x
    | with_reducible refine releaseCpl_inv ?_
    | with_reducible refine setTagRec_inv ?_
    | with_reducible refine setRingCtx_inv ?_
    | with_reducible refine writeCompletion_inv ?_
    | with_reducible refine complete_inv ?_
    | with_reducible refine freeNat_inv ?_
    | with_reducible refine setF_inv ?_
    | fail_if_no_progress (with_reducible refine Kept.upd ?_ rfl rfl rfl)
    ))

theorem onPart_inv {p : Fin 8} {f : Part → Part} {s : State} (h : Kept κ s) : Kept κ (onPart p f s) := by
  unfold onPart
  repeat (any_goals (first
    | with_reducible assumption
    | with_reducible refine setPart_inv ?_
    ))

theorem quadSegment_inv {p : Fin 8} {q : ℕ} {s : State} (h : Kept κ s) : Kept κ (quadSegment p q s) := by
  unfold quadSegment
  repeat (any_goals (first
    | with_reducible assumption
    | with_reducible refine Kept.ite (fun _ => ?_) (fun _ => ?_)
    | extract_lets +onlyGivenNames x
    | with_reducible refine Kept.foldl (fun _ _ _ => ?_) ?_
    | with_reducible refine onQuad_inv ?_
    | with_reducible refine onPart_inv ?_
    | split
    ))

theorem timeTsqCfgWrite_inv {v : Payload} {s : State} (h : Kept κ s) : Kept κ (timeTsqCfgWrite v s) := by
  unfold timeTsqCfgWrite
  repeat (any_goals (first
    | with_reducible assumption
    | with_reducible refine Kept.ite (fun _ => ?_) (fun _ => ?_)
    | extract_lets +onlyGivenNames x
    | with_reducible refine setF_inv ?_
    | fail_if_no_progress (with_reducible refine Kept.upd ?_ rfl rfl rfl)
    ))

theorem armEffect_inv {s : State} (h : Kept κ s) : Kept κ (armEffect s) := by
  unfold armEffect
  repeat (any_goals (first
    | with_reducible assumption
    | with_reducible refine Kept.ite (fun _ => ?_) (fun _ => ?_)
    | extract_lets +onlyGivenNames x
    | with_reducible refine raise_inv ?_
    | split
    | fail_if_no_progress (with_reducible refine Kept.upd ?_ rfl rfl rfl)
    ))

theorem claimReturn_inv {k : ℕ} {d : ℕ} {frame : ℕ} {s : State} (h : Kept κ s) : Kept κ (claimReturn k d frame s) := by
  unfold claimReturn
  repeat (any_goals (first
    | with_reducible assumption
    | with_reducible refine Kept.ite (fun _ => ?_) (fun _ => ?_)
    | (extract_lets +onlyGivenNames x; refine ((fun hx => ?_) : Kept κ x → _) ?_; on_goal 1 => clear_value x; on_goal 2 => first | with_reducible refine Kept.ite (fun _ => ?_) (fun _ => ?_) | (unfold x; split) | skip)
    | extract_lets +onlyGivenNames x
    | with_reducible refine raise_inv ?_
    | with_reducible refine onRing_inv ?_
    | fail_if_no_progress (with_reducible refine Kept.upd ?_ rfl rfl rfl)
    ))

theorem loseSource_inv {s : State} (h : Kept κ s) : Kept κ (loseSource s) := by
  unfold loseSource
  exact Kept.ite (fun _ => h) (fun _ => raise_inv (Kept.upd h rfl rfl rfl))

theorem idConflict_inv {s : State} (h : Kept κ s) : Kept κ (idConflict s) := by
  unfold idConflict
  repeat (any_goals (first
    | with_reducible assumption
    | with_reducible refine Kept.ite (fun _ => ?_) (fun _ => ?_)
    | (extract_lets +onlyGivenNames x; refine ((fun hx => ?_) : Kept κ x → _) ?_; on_goal 1 => clear_value x; on_goal 2 => first | with_reducible refine Kept.ite (fun _ => ?_) (fun _ => ?_) | (unfold x; split) | skip)
    | extract_lets +onlyGivenNames x
    | with_reducible refine loseSource_inv ?_
    | with_reducible refine raise_inv ?_
    | fail_if_no_progress (with_reducible refine Kept.upd ?_ rfl rfl rfl)
    ))

theorem bellSend_inv {l : ℕ} {slot : Option ℕ} {bs : List Byte} {s : State} (h : Kept κ s) : Kept κ (bellSend l slot bs s) := by
  unfold bellSend
  repeat (any_goals (first
    | with_reducible assumption
    | with_reducible refine Kept.ite (fun _ => ?_) (fun _ => ?_)
    | extract_lets +onlyGivenNames x
    | with_reducible refine emit_inv ?_
    | with_reducible refine lineSend_inv ?_
    ))

theorem noteSend_inv {l : ℕ} {frame : ℕ} {raw : ℤ} {s : State} (h : Kept κ s) : Kept κ (noteSend l frame raw s) := by
  unfold noteSend
  repeat (any_goals (first
    | with_reducible assumption
    | with_reducible refine onLink_inv ?_
    ))

theorem engineEdge_inv {ch : ℕ} {x : RawStamp} {s : State} (h : Kept κ s) : Kept κ (engineEdge ch x s) := by
  unfold engineEdge
  repeat (any_goals (first
    | with_reducible assumption
    | with_reducible refine Kept.ite (fun _ => ?_) (fun _ => ?_)
    | (extract_lets +onlyGivenNames x; refine ((fun hx => ?_) : Kept κ x → _) ?_; on_goal 1 => clear_value x; on_goal 2 => first | with_reducible refine Kept.ite (fun _ => ?_) (fun _ => ?_) | (unfold x; split) | skip)
    | extract_lets +onlyGivenNames x
    | split
    | fail_if_no_progress (with_reducible refine Kept.upd ?_ rfl rfl rfl)
    ))

theorem tsqOffer_inv {q : ℤ} {id : ℕ} {source : ℕ} {msg : ℕ} {s : State} (h : Kept κ s) : Kept κ (tsqOffer q id source msg s) := by
  unfold tsqOffer
  repeat (any_goals (first
    | with_reducible assumption
    | with_reducible refine Kept.ite (fun _ => ?_) (fun _ => ?_)
    | extract_lets +onlyGivenNames x
    | with_reducible refine raise_inv ?_
    | fail_if_no_progress (with_reducible refine Kept.upd ?_ rfl rfl rfl)
    ))

theorem tdcEdge_inv {ch : ℕ} {x : RawStamp} {s : State} (h : Kept κ s) : Kept κ (tdcEdge ch x s) := by
  unfold tdcEdge
  repeat (any_goals (first
    | with_reducible assumption
    | with_reducible refine Kept.ite (fun _ => ?_) (fun _ => ?_)
    | (extract_lets +onlyGivenNames x; refine ((fun hx => ?_) : Kept κ x → _) ?_; on_goal 1 => clear_value x; on_goal 2 => first | with_reducible refine Kept.ite (fun _ => ?_) (fun _ => ?_) | (unfold x; split) | skip)
    | extract_lets +onlyGivenNames x
    | with_reducible refine engineEdge_inv ?_
    | with_reducible refine tsqOffer_inv ?_
    | fail_if_no_progress (with_reducible refine Kept.upd ?_ rfl rfl rfl)
    ))

theorem passHeader_inv {lane : ℕ} {bs : List Byte} {arrival : RawStamp} {sent : RawStamp} {s : State} (h : Kept κ s) : Kept κ (passHeader lane bs arrival sent s) := by
  unfold passHeader
  repeat (any_goals (first
    | with_reducible assumption
    | with_reducible refine Kept.ite (fun _ => ?_) (fun _ => ?_)
    | (extract_lets +onlyGivenNames x; refine ((fun hx => ?_) : Kept κ x → _) ?_; on_goal 1 => clear_value x; on_goal 2 => first | with_reducible refine Kept.ite (fun _ => ?_) (fun _ => ?_) | (unfold x; split) | skip)
    | extract_lets +onlyGivenNames x
    | with_reducible refine noteSend_inv ?_
    | with_reducible refine tdcEdge_inv ?_
    | with_reducible refine bellSend_inv ?_
    | with_reducible refine onRing_inv ?_
    ))

theorem bellClaim_inv {lane : ℕ} {bs : List Byte} {arrival : RawStamp} {sent : RawStamp} {s : State} (h : Kept κ s) : Kept κ (bellClaim lane bs arrival sent s) := by
  unfold bellClaim
  repeat (any_goals (first
    | with_reducible assumption
    | with_reducible refine Kept.ite (fun _ => ?_) (fun _ => ?_)
    | extract_lets +onlyGivenNames x
    | with_reducible refine claimReturn_inv ?_
    | with_reducible refine passHeader_inv ?_
    | with_reducible refine idConflict_inv ?_
    | with_reducible refine onRing_inv ?_
    ))

theorem bellFrame_inv {l : ℕ} {s : State} (h : Kept κ s) : Kept κ (bellFrame l s) := by
  unfold bellFrame
  repeat (any_goals (first
    | with_reducible assumption
    | extract_lets +onlyGivenNames x
    | with_reducible refine onLane_inv ?_
    ))

theorem failLane_inv {n : ℕ} {s : State} (h : Kept κ s) : Kept κ (failLane n s) := by
  unfold failLane
  repeat (any_goals (first
    | with_reducible assumption
    | with_reducible refine Kept.ite (fun _ => ?_) (fun _ => ?_)
    | extract_lets +onlyGivenNames x
    | with_reducible refine laneEnter_inv ?_
    | with_reducible refine raise_inv ?_
    | with_reducible refine setF_inv ?_
    ))

theorem retrainLane_inv {n : ℕ} {s : State} (h : Kept κ s) : Kept κ (retrainLane n s) := by
  unfold retrainLane
  repeat (any_goals (first
    | with_reducible assumption
    | with_reducible refine Kept.ite (fun _ => ?_) (fun _ => ?_)
    | (extract_lets +onlyGivenNames x; refine ((fun hx => ?_) : Kept κ x → _) ?_; on_goal 1 => clear_value x; on_goal 2 => first | with_reducible refine Kept.ite (fun _ => ?_) (fun _ => ?_) | (unfold x; split) | skip)
    | extract_lets +onlyGivenNames x
    | with_reducible refine bump_inv ?_
    | with_reducible refine failLane_inv ?_
    | with_reducible refine raise_inv ?_
    | with_reducible refine onLane_inv ?_
    | with_reducible refine laneEnter_inv ?_
    ))

theorem bellLaneFail_inv {l : ℕ} {s : State} (h : Kept κ s) : Kept κ (bellLaneFail l s) := by
  unfold bellLaneFail
  repeat (any_goals (first
    | with_reducible assumption
    | with_reducible refine Kept.ite (fun _ => ?_) (fun _ => ?_)
    | extract_lets +onlyGivenNames x
    | with_reducible refine retrainLane_inv ?_
    | with_reducible refine onLane_inv ?_
    ))

theorem claimCollision_inv {k : ℕ} {s : State} (h : Kept κ s) : Kept κ (claimCollision k s) := by
  unfold claimCollision
  repeat (any_goals (first
    | with_reducible assumption
    | with_reducible refine Kept.ite (fun _ => ?_) (fun _ => ?_)
    | extract_lets +onlyGivenNames x
    | with_reducible refine freeNat_inv ?_
    | with_reducible refine raise_inv ?_
    | with_reducible refine onRing_inv ?_
    ))

theorem masterHeader_inv {lane : ℕ} {s : State} (h : Kept κ s) : Kept κ (masterHeader lane s) := by
  unfold masterHeader
  repeat (any_goals (first
    | with_reducible assumption
    | extract_lets +onlyGivenNames x
    | with_reducible refine onRing_inv ?_
    ))

theorem muteUnit_inv {k : ℕ} {lane : ℕ} {s : State} (h : Kept κ s) : Kept κ (muteUnit k lane s) := by
  unfold muteUnit
  repeat (any_goals (first
    | with_reducible assumption
    | with_reducible refine Kept.ite (fun _ => ?_) (fun _ => ?_)
    | (extract_lets +onlyGivenNames x; refine ((fun hx => ?_) : Kept κ x → _) ?_; on_goal 1 => clear_value x; on_goal 2 => first | with_reducible refine Kept.ite (fun _ => ?_) (fun _ => ?_) | (unfold x; split) | skip)
    | extract_lets +onlyGivenNames x
    | with_reducible refine raise_inv ?_
    | with_reducible refine onRing_inv ?_
    | with_reducible refine loseSource_inv ?_
    | fail_if_no_progress (with_reducible refine Kept.upd ?_ rfl rfl rfl)
    ))

theorem noteMargin_inv {l : ℕ} {rho : ℤ} {s : State} (h : Kept κ s) : Kept κ (noteMargin l rho s) := by
  unfold noteMargin
  extract_lets k m old good b s1 s2 s3
  have h1 : Kept κ s1 := Kept.upd h rfl rfl rfl
  have h2 : Kept κ s2 := Kept.ite (fun _ => raise_inv h1) (fun _ => h1)
  have h3 : Kept κ s3 := onRing_inv h2
  clear_value s2 s3
  exact Kept.ite (fun _ => muteUnit_inv h2) (fun _ => Kept.ite (fun _ => Kept.ite (fun _ => h3) (fun _ => raise_inv h3)) (fun _ => h2))

theorem bellServo_inv {th : ℤ} {tqMaster : ℕ} {s : State} (h : Kept κ s) : Kept κ (bellServo th tqMaster s) := by
  unfold bellServo
  repeat (any_goals (first
    | with_reducible assumption
    | extract_lets +onlyGivenNames x
    | with_reducible refine servoUpdate_inv ?_
    | with_reducible refine updateTimeq_inv ?_
    | fail_if_no_progress (with_reducible refine Kept.upd ?_ rfl rfl rfl)
    ))

theorem useHeader_inv {hd : HeaderUse} {s : State} (h : Kept κ s) : Kept κ (useHeader hd s) := by
  unfold useHeader
  repeat (any_goals (first
    | with_reducible assumption
    | with_reducible refine setF_inv ?_
    | with_reducible refine bellServo_inv ?_
    ))

theorem useHeld_inv {k : ℕ} {s : State} (h : Kept κ s) : Kept κ (useHeld k s) := by
  unfold useHeld
  repeat (any_goals (first
    | with_reducible assumption
    | extract_lets +onlyGivenNames x
    | with_reducible refine onRing_inv ?_
    | with_reducible refine useHeader_inv ?_
    | split
    ))

theorem offerHeader_inv {k : ℕ} {hd : HeaderUse} {s : State} (h : Kept κ s) : Kept κ (offerHeader k hd s) := by
  unfold offerHeader
  repeat (any_goals (first
    | with_reducible assumption
    | with_reducible refine Kept.ite (fun _ => ?_) (fun _ => ?_)
    | (extract_lets +onlyGivenNames x; refine ((fun hx => ?_) : Kept κ x → _) ?_; on_goal 1 => clear_value x; on_goal 2 => first | with_reducible refine Kept.ite (fun _ => ?_) (fun _ => ?_) | (unfold x; split) | skip)
    | extract_lets +onlyGivenNames x
    | with_reducible refine useHeld_inv ?_
    | with_reducible refine onRing_inv ?_
    | with_reducible refine useHeader_inv ?_
    | with_reducible refine Kept.getD ?_ ?_
    | split
    | with_reducible refine Kept.pair (by with_reducible assumption) ?_
    | fail_if_no_progress (with_reducible refine Kept.upd ?_ rfl rfl rfl)
    | dsimp +zetaDelta only
    ))

theorem memberHeader_inv {lane : ℕ} {bs : List Byte} {arrival : RawStamp} {sent : RawStamp} {s : State} (h : Kept κ s) :
    Kept κ (memberHeader lane bs arrival sent s) := by
  unfold memberHeader
  extract_lets k d master r s1 s2 start th rho s3 s4
  have h1 : Kept κ s1 := onRing_inv h
  have h2 : Kept κ s2 := Kept.ite (fun _ => raise_inv h1) (fun _ => h1)
  have h3 : Kept κ s3 := passHeader_inv h2
  exact noteMargin_inv (Kept.ite (fun _ => offerHeader_inv h3) (fun _ => h3))

theorem noteArrival_inv {lane : ℕ} {frame : ℕ} {sender : ℕ} {arrival : RawStamp} {s : State} (h : Kept κ s) : Kept κ (noteArrival lane frame sender arrival s) := by
  unfold noteArrival
  repeat (any_goals (first
    | with_reducible assumption
    | extract_lets +onlyGivenNames x
    | with_reducible refine onLink_inv ?_
    ))

theorem setFence_inv {fenced : ℕ} {pending : ℕ} {s : State} (h : Kept κ s) : Kept κ (setFence fenced pending s) := by
  unfold setFence
  repeat (any_goals (first
    | with_reducible assumption
    | with_reducible refine setF_inv ?_
    | with_reducible refine noteAttn_inv ?_
    ))

theorem rejoin_inv {s : State} (h : Kept κ s) : Kept κ (rejoin s) := by
  unfold rejoin
  repeat (any_goals (first
    | with_reducible assumption
    | with_reducible refine Kept.ite (fun _ => ?_) (fun _ => ?_)
    | extract_lets +onlyGivenNames x
    | with_reducible refine setFence_inv ?_
    ))

theorem bellHeader_inv {lane : ℕ} {bs : List Byte} {arrival : RawStamp} {sent : RawStamp} {s : State} (h : Kept κ s) : Kept κ (bellHeader lane bs arrival sent s) := by
  unfold bellHeader
  repeat (any_goals (first
    | with_reducible assumption
    | with_reducible refine Kept.ite (fun _ => ?_) (fun _ => ?_)
    | (extract_lets +onlyGivenNames x; refine ((fun hx => ?_) : Kept κ x → _) ?_; on_goal 1 => clear_value x; on_goal 2 => first | with_reducible refine Kept.ite (fun _ => ?_) (fun _ => ?_) | (unfold x; split) | skip)
    | extract_lets +onlyGivenNames x
    | with_reducible refine masterHeader_inv ?_
    | with_reducible refine rejoin_inv ?_
    | with_reducible refine bellLaneFail_inv ?_
    | with_reducible refine showBell_inv ?_
    | with_reducible refine claimCollision_inv ?_
    | with_reducible refine tdcEdge_inv ?_
    | with_reducible refine bellClaim_inv ?_
    | with_reducible refine memberHeader_inv ?_
    | with_reducible refine bellSend_inv ?_
    | with_reducible refine bump_inv ?_
    | with_reducible refine noteArrival_inv ?_
    | with_reducible refine bellFrame_inv ?_
    | fail_if_no_progress (with_reducible refine Kept.upd ?_ rfl rfl rfl)
    ))

theorem lineReceive_inv {n : ℕ} {xs : List ℕ} {s : State} (h : Kept κ s) : Kept κ (lineReceive n xs s).2 := by
  unfold lineReceive
  repeat (any_goals (first
    | with_reducible assumption
    | extract_lets +onlyGivenNames x
    | with_reducible refine Kept.pair (by with_reducible assumption) ?_
    | fail_if_no_progress (with_reducible refine Kept.upd ?_ rfl rfl rfl)
    ))

theorem bellHeaderLine_inv {lane : ℕ} {line : List ℕ} {arrival : RawStamp} {sent : RawStamp} {s : State} (h : Kept κ s) : Kept κ (bellHeaderLine lane line arrival sent s) := by
  unfold bellHeaderLine
  repeat (any_goals (first
    | with_reducible assumption
    | with_reducible refine Kept.ite (fun _ => ?_) (fun _ => ?_)
    | extract_lets +onlyGivenNames x
    | with_reducible refine bellHeader_inv ?_
    | with_reducible refine lineReceive_inv ?_
    | split
    | with_reducible refine Kept.pair (by with_reducible assumption) ?_
    ))

theorem stwPlain_inv {c : Fin 8} {op : Nat} {f : Nat → Core → Core} {s : State}
    (hf : ∀ w (x : Core), x.shaped → (f w x).shaped) (h : Kept κ s) : Kept κ (stwPlain c op f s) :=
  stwExec_inv (fun w _ hs => stwAdvance_inv (onCore_inv (hf w) hs)) h

theorem stwJump_inv {c pc : Nat} {s : State} (hp : pc < 16384) (h : Kept κ s) : Kept κ (stwJump c pc s) :=
  onCore_inv (fun _ hx => ⟨hx.1, hx.2.1, hx.2.2.1, hp, hx.2.2.2.2⟩) h

theorem applyEntries_inv {p : Fin 8} {int : ℕ} {s : State} (h : Kept κ s) : Kept κ (applyEntries p int s) := by
  unfold applyEntries
  repeat (any_goals (first
    | with_reducible assumption
    | with_reducible refine Kept.ite (fun _ => ?_) (fun _ => ?_)
    | extract_lets +onlyGivenNames x
    | with_reducible refine Kept.foldl (fun _ _ _ => ?_) ?_
    | with_reducible refine onPart_inv ?_
    | with_reducible refine tabSet_inv ?_
    | fail_if_no_progress (with_reducible refine Kept.upd ?_ rfl rfl rfl)
    ))

theorem captureGranule_inv {p : Fin 8} {chan : ℕ} {slot : ℕ} {t : ℕ} {g : Gran} {s : State} (h : Kept κ s) : Kept κ (captureGranule p chan slot t g s) := by
  unfold captureGranule
  repeat (any_goals (first
    | with_reducible assumption
    | with_reducible refine Kept.ite (fun _ => ?_) (fun _ => ?_)
    | extract_lets +onlyGivenNames x
    | with_reducible refine setCrib_inv ?_
    | split
    | fail_if_no_progress (with_reducible refine Kept.upd ?_ rfl rfl rfl)
    ))

theorem placeInBatch_inv {p : Fin 8} {c : Copy} {b : Batch} {m : SlotMap} {pk : Parked} {s : State} (h : Kept κ s) : Kept κ (placeInBatch p c b m pk s) := by
  unfold placeInBatch
  repeat (any_goals (first
    | with_reducible assumption
    | extract_lets +onlyGivenNames x
    | with_reducible refine setPart_inv ?_
    | with_reducible refine captureGranule_inv ?_
    ))

theorem copyIn_inv {p : Fin 8} {s : State} (h : Kept κ s) : Kept κ (copyIn p s) := by
  unfold copyIn
  repeat (any_goals (first
    | with_reducible assumption
    | extract_lets +onlyGivenNames x
    | with_reducible refine Kept.foldl (fun _ _ _ => ?_) ?_
    | with_reducible refine bump_inv ?_
    | with_reducible refine setPart_inv ?_
    | with_reducible refine placeInBatch_inv ?_
    | split
    ))

theorem subNotify_inv {p : Fin 8} {sub : Nat} {s : State} (h : Kept κ s) : Kept κ (subNotify p sub s) := by
  unfold subNotify
  refine Kept.mapCores (fun x hx => ?_) h
  split
  · exact Core.pend_shaped (k := 2) hx
  · exact hx

theorem openFill_inv {p : Fin 8} {first : ℕ} {s : State} (h : Kept κ s) : Kept κ (openFill p first s) := by
  unfold openFill
  repeat (any_goals (first
    | with_reducible assumption
    | extract_lets +onlyGivenNames x
    | with_reducible refine Kept.foldl (fun _ _ _ => ?_) ?_
    | with_reducible refine copyIn_inv ?_
    | with_reducible refine setPart_inv ?_
    | with_reducible refine subNotify_inv ?_
    | with_reducible refine captureOpen_inv ?_
    ))

theorem placeRegion_inv {p : Fin 8} {old : ℕ × ℕ} {s : State} (h : Kept κ s) : Kept κ (placeRegion p old s) := by
  unfold placeRegion
  repeat (any_goals (first
    | with_reducible assumption
    | extract_lets +onlyGivenNames x
    | with_reducible refine setPart_inv ?_
    | split
    ))

theorem cacheEvent_inv {p : Fin 8} {was : Store ℕ → ℕ → Option Event} {fault : Store ℕ → ℕ → Option Event} {old : Store ℕ} {new : Store ℕ} {i : ℕ} {s : State} (h : Kept κ s) : Kept κ (cacheEvent p was fault old new i s) := by
  unfold cacheEvent
  repeat (any_goals (first
    | with_reducible assumption
    | with_reducible refine Kept.ite (fun _ => ?_) (fun _ => ?_)
    | extract_lets +onlyGivenNames x
    | with_reducible refine raise_inv ?_
    | split
    ))

theorem cacheEvents_inv {p : Fin 8} {was : Store ℕ → ℕ → Option Event} {fault : Store ℕ → ℕ → Option Event} {old : Store ℕ} {new : Store ℕ} {s : State} (h : Kept κ s) : Kept κ (cacheEvents p was fault old new s) := by
  unfold cacheEvents
  repeat (any_goals (first
    | with_reducible assumption
    | with_reducible refine Kept.foldl (fun _ _ _ => ?_) ?_
    | with_reducible refine cacheEvent_inv ?_
    ))

theorem refreshCache_inv {p : Fin 8} {n : ℕ} {flush : Bool} {s : State} (h : Kept κ s) : Kept κ (refreshCache p n flush s) := by
  unfold refreshCache
  repeat (any_goals (first
    | with_reducible assumption
    | with_reducible refine Kept.ite (fun _ => ?_) (fun _ => ?_)
    | extract_lets +onlyGivenNames x
    | with_reducible refine Kept.foldl (fun _ _ _ => ?_) ?_
    | with_reducible refine cacheEvents_inv ?_
    | with_reducible refine setPart_inv ?_
    | fail_if_no_progress (with_reducible refine Kept.upd ?_ rfl rfl rfl)
    ))

theorem openWith_inv {p : Fin 8} {x : Part} {s : State} (h : Kept κ s) : Kept κ (openWith p x s) := by
  unfold openWith
  repeat (any_goals (first
    | with_reducible assumption
    | with_reducible refine Kept.ite (fun _ => ?_) (fun _ => ?_)
    | (extract_lets +onlyGivenNames x; refine ((fun hx => ?_) : Kept κ x → _) ?_; on_goal 1 => clear_value x; on_goal 2 => first | with_reducible refine Kept.ite (fun _ => ?_) (fun _ => ?_) | (unfold x; split) | skip)
    | extract_lets +onlyGivenNames x
    | with_reducible refine setPart_inv ?_
    | with_reducible refine openFill_inv ?_
    | with_reducible refine refreshCache_inv ?_
    | with_reducible refine applyEntries_inv ?_
    | with_reducible refine placeRegion_inv ?_
    ))

theorem openFirst_inv {p : Fin 8} {pk : Parked} {s : State} (h : Kept κ s) : Kept κ (openFirst p pk s) := by
  unfold openFirst
  repeat (any_goals (first
    | with_reducible assumption
    | extract_lets +onlyGivenNames x
    | with_reducible refine openWith_inv ?_
    ))

theorem parkWritten_inv {n : ℕ} {s : State} (h : Kept κ s) : Kept κ (parkWritten n s) := by
  unfold parkWritten
  repeat (any_goals (first
    | with_reducible assumption
    | extract_lets +onlyGivenNames x
    | fail_if_no_progress (with_reducible refine Kept.upd ?_ rfl rfl rfl)
    ))

theorem readyOldest_inv {p : Fin 8} {s : State} (h : Kept κ s) : Kept κ (readyOldest p s) := by
  unfold readyOldest
  repeat (any_goals (first
    | with_reducible assumption
    | extract_lets +onlyGivenNames x
    | with_reducible refine setPart_inv ?_
    | split
    ))

theorem placeGranule_inv {p : Fin 8} {raw : List (ℤ × ℤ)} {pk : Parked} {s : State} (h : Kept κ s) : Kept κ (placeGranule p raw pk s) := by
  unfold placeGranule
  repeat (any_goals (first
    | with_reducible assumption
    | with_reducible refine Kept.ite (fun _ => ?_) (fun _ => ?_)
    | (extract_lets +onlyGivenNames x; refine ((fun hx => ?_) : Kept κ x → _) ?_; on_goal 1 => clear_value x; on_goal 2 => first | with_reducible refine Kept.ite (fun _ => ?_) (fun _ => ?_) | (unfold x; split) | skip)
    | extract_lets +onlyGivenNames x
    | with_reducible refine placeInBatch_inv ?_
    | with_reducible refine readyOldest_inv ?_
    | with_reducible refine bump_inv ?_
    | with_reducible refine parkWritten_inv ?_
    | with_reducible refine setPart_inv ?_
    | with_reducible refine openFirst_inv ?_
    | split
    ))

theorem placeFrame_inv {hd : IngressHdr} {u : List Byte} {tqLow : Bool} {s : State} (h : Kept κ s) : Kept κ (placeFrame hd u tqLow s) := by
  unfold placeFrame
  repeat (any_goals (first
    | with_reducible assumption
    | extract_lets +onlyGivenNames x
    | with_reducible refine Kept.foldl (fun _ _ _ => ?_) ?_
    | with_reducible refine placeGranule_inv ?_
    ))

theorem jtagLoad_inv {ir : BitVec 8} {drive : ℕ} {s : State} (h : Kept κ s) : Kept κ (jtagLoad ir drive s) := by
  unfold jtagLoad
  repeat (any_goals (first
    | with_reducible assumption
    | extract_lets +onlyGivenNames x
    | fail_if_no_progress (with_reducible refine Kept.upd ?_ rfl rfl rfl)
    ))

theorem scanBypass_inv {s : State} (h : Kept κ s) : Kept κ (scanBypass s) := by
  unfold scanBypass
  repeat (any_goals (first
    | with_reducible assumption
    | with_reducible refine emit_inv ?_
    ))

theorem bootEvents_inv {s : State} (h : Kept κ s) : Kept κ (bootEvents s) := by
  unfold bootEvents
  repeat (any_goals (first
    | with_reducible assumption
    | with_reducible refine Kept.ite (fun _ => ?_) (fun _ => ?_)
    | extract_lets +onlyGivenNames x
    | with_reducible refine raise_inv ?_
    | split
    | fail_if_no_progress (with_reducible refine Kept.upd ?_ rfl rfl rfl)
    ))

theorem bootLayout_inv {s : State} (h : Kept κ s) : Kept κ (bootLayout s) := by
  have h1 : Kept κ ((List.range 4).foldl (fun s q => onQuad q (fun x => { x with testing := [] }) s) s) :=
    Kept.foldl (fun _ _ h => onQuad_inv h) h
  exact Kept.blow (Kept.upd h1 rfl rfl rfl) ⟨le_min h1.inv.svn (le_max_left _ _), id, rfl⟩ (min_le_left _ _)

theorem setStage_inv {n : ℕ} {s : State} (h : Kept κ s) : Kept κ (setStage n s) := by
  unfold setStage
  repeat (any_goals (first
    | with_reducible assumption
    | with_reducible refine setF_inv ?_
    ))

theorem bootDone_inv {s : State} (h : Kept κ s) : Kept κ (bootDone s) := by
  unfold bootDone
  repeat (any_goals (first
    | with_reducible assumption
    | with_reducible refine Kept.ite (fun _ => ?_) (fun _ => ?_)
    | with_reducible refine bootEvents_inv ?_
    | with_reducible refine bootLayout_inv ?_
    | with_reducible refine setStage_inv ?_
    ))

theorem completeWaiting_inv {s : State} (h : Kept κ s) : Kept κ (completeWaiting s) := by
  unfold completeWaiting
  repeat (any_goals (first
    | with_reducible assumption
    | with_reducible refine Kept.foldl (fun _ _ _ => ?_) ?_
    | with_reducible refine complete_inv ?_
    | fail_if_no_progress (with_reducible refine Kept.upd ?_ rfl rfl rfl)
    ))

theorem standbyExitDone_inv {s : State} (h : Kept κ s) : Kept κ (standbyExitDone s) := by
  unfold standbyExitDone
  repeat (any_goals (first
    | with_reducible assumption
    | with_reducible refine Kept.ite (fun _ => ?_) (fun _ => ?_)
    | with_reducible refine completeWaiting_inv ?_
    | extract_lets +onlyGivenNames x
    | fail_if_no_progress (with_reducible refine Kept.upd ?_ rfl rfl rfl)
    ))

theorem sysResetWrite_inv {v : Payload} {s : State} (h : Kept κ s) : Kept κ (sysResetWrite v s) := by
  unfold sysResetWrite
  repeat (any_goals (first
    | with_reducible assumption
    | with_reducible refine Kept.ite (fun _ => ?_) (fun _ => ?_)
    | extract_lets +onlyGivenNames x
    | fail_if_no_progress (with_reducible refine Kept.upd ?_ rfl rfl rfl)
    ))

theorem missingPower_inv {p : Fin 8} {epoch : ℕ} {b : Batch} {s : State} (h : Kept κ s) : Kept κ (missingPower p epoch b s) := by
  unfold missingPower
  repeat (any_goals (first
    | with_reducible assumption
    | extract_lets +onlyGivenNames x
    | fail_if_no_progress (with_reducible refine Kept.upd ?_ rfl rfl rfl)
    ))

theorem withholdBatch_inv {p : Fin 8} {epoch : ℕ} {ord : ℕ} {s : State} (h : Kept κ s) : Kept κ (withholdBatch p epoch ord s) := by
  unfold withholdBatch
  repeat (any_goals (first
    | with_reducible assumption
    | with_reducible refine Kept.ite (fun _ => ?_) (fun _ => ?_)
    | extract_lets +onlyGivenNames x
    | with_reducible refine raise_inv ?_
    | with_reducible refine setWithheld_inv ?_
    | with_reducible refine bump_inv ?_
    | with_reducible refine missingPower_inv ?_
    | with_reducible refine setPart_inv ?_
    | split
    | fail_if_no_progress (with_reducible refine Kept.upd ?_ rfl rfl rfl)
    ))

theorem quadOut_inv {q : ℕ} {s : State} (h : Kept κ s) : Kept κ (quadOut q s) := by
  unfold quadOut
  repeat (any_goals (first
    | with_reducible assumption
    | extract_lets +onlyGivenNames x
    | with_reducible refine Kept.foldl (fun _ _ _ => ?_) ?_
    | with_reducible refine raise_inv ?_
    | with_reducible refine withholdBatch_inv ?_
    | with_reducible refine onPart_inv ?_
    | with_reducible refine onQuad_inv ?_
    ))

theorem loseCapacity_inv {q t : ℕ} {s : State} (h : Kept κ s) : Kept κ (loseCapacity q t s) := by
  unfold loseCapacity
  repeat (any_goals (first
    | with_reducible assumption
    | with_reducible refine Kept.ite (fun _ => ?_) (fun _ => ?_)
    | extract_lets +onlyGivenNames x
    | with_reducible refine raise_inv ?_
    | with_reducible refine quadOut_inv ?_
    | with_reducible refine onQuad_inv ?_
    ))

theorem onComps_inv {f : Fin 8 → Copy → Copy} {s : State} (h : Kept κ s) : Kept κ (onComps f s) := by
  unfold onComps
  repeat (any_goals (first
    | with_reducible assumption
    | extract_lets +onlyGivenNames x
    | with_reducible refine Kept.foldl (fun _ _ _ => ?_) ?_
    | with_reducible refine onPart_inv ?_
    ))

theorem leaveService_inv {q : ℕ} {t : ℕ} {s : State} (h : Kept κ s) : Kept κ (leaveService q t s) := by
  unfold leaveService
  repeat (any_goals (first
    | with_reducible assumption
    | with_reducible refine Kept.ite (fun _ => ?_) (fun _ => ?_)
    | extract_lets +onlyGivenNames x
    | with_reducible refine raise_inv ?_
    | with_reducible refine ledgerQueue_inv ?_
    | with_reducible refine onComps_inv ?_
    | with_reducible refine loseCapacity_inv ?_
    | with_reducible refine onQuad_inv ?_
    | split
    ))

theorem markPc_inv {pc : ℕ} {s : State} (h : Kept κ s) : Kept κ (markPc pc s) := by
  unfold markPc
  repeat (any_goals (first
    | with_reducible assumption
    | extract_lets +onlyGivenNames x
    | with_reducible refine setF_inv ?_
    ))

theorem replayRecord_inv {r : LedRec} {s : State} (h : Kept κ s) : Kept κ (replayRecord r s) := by
  unfold replayRecord
  split
  · exact Kept.ite (fun _ => Kept.upd (setF_inv h) rfl rfl rfl) (fun _ => Kept.ite (fun _ => setF_inv (Kept.upd h rfl rfl rfl)) (fun _ => h))
  · rename_i t
    have h' : Kept κ (leaveService (t / 34) (t % 34) s) := leaveService_inv h
    have c := h.inv.canonical
    exact ⟨⟨⟨c.1, c.2.1, c.2.2.1, h'.inv.canonical.2.2.2.1, c.2.2.2.2⟩, h.inv.memories, h.inv.cores, h.inv.time, h.inv.svn⟩, h.pending, h.fuses⟩
  · exact markPc_inv h
  · exact Kept.upd h rfl rfl rfl
  · exact setF_inv h
  · exact setF_inv h
  · exact Kept.upd h rfl rfl rfl
  · exact Kept.upd h rfl rfl rfl
  all_goals exact h

theorem xferDone_inv {c : ℕ} {s : State} (h : Kept κ s) : Kept κ (xferDone c s) := by
  unfold xferDone
  split
  · rename_i t ts e
    split
    · exact h
    · have hc := coreOf_shaped (c := c) h
      have hl : ts.length ≤ 4 := by
        split at e
        · cases e
        · have := hc.2.2.1; rw [e] at this; simp at this; omega
      refine setCore_inv (Core.pend_shaped (Core.putContainer_shaped ?_)) h
      have hy : ({ coreOf c s with xfers := ts } : Core).shaped := ⟨hc.1, hc.2.1, hl, hc.2.2.2⟩
      split
      · exact Core.putContainer_shaped (Core.putContainer_shaped hy)
      · exact Core.putContainer_shaped hy
  · exact h

theorem markInputs_inv {r : PieceRec} {s : State} (h : Kept κ s) : Kept κ (markInputs r s) := by
  unfold markInputs
  repeat (any_goals (first
    | with_reducible assumption
    | with_reducible refine Kept.ite (fun _ => ?_) (fun _ => ?_)
    | extract_lets +onlyGivenNames x
    | split
    | fail_if_no_progress (with_reducible refine Kept.upd ?_ rfl rfl rfl)
    ))

theorem audit_inv {cmd : ℕ} {offset : ℕ} {value : ℕ} {outcome : ℕ} {s : State} (h : Kept κ s) : Kept κ (audit cmd offset value outcome s) := by
  unfold audit
  repeat (any_goals (first
    | with_reducible assumption
    | extract_lets +onlyGivenNames x
    | with_reducible refine ledgerQueue_inv ?_
    | fail_if_no_progress (with_reducible refine Kept.upd ?_ rfl rfl rfl)
    ))

theorem say_inv {line : String} {s : State} (h : Kept κ s) : Kept κ (say line s) := by
  unfold say
  repeat (any_goals (first
    | with_reducible assumption
    | with_reducible refine emit_inv ?_
    ))

theorem auditThen_inv {cmd : ℕ} {offset : ℕ} {value : ℕ} {c : MonCmd} {s : State} (h : Kept κ s) : Kept κ (auditThen cmd offset value c s) := by
  unfold auditThen
  repeat (any_goals (first
    | with_reducible assumption
    | with_reducible refine Kept.ite (fun _ => ?_) (fun _ => ?_)
    | extract_lets +onlyGivenNames x
    | with_reducible refine say_inv ?_
    | with_reducible refine audit_inv ?_
    | fail_if_no_progress (with_reducible refine Kept.upd ?_ rfl rfl rfl)
    ))

theorem fuseLockout_inv {code : BitVec 32} {s : State} (h : Kept κ s) : Kept κ (fuseLockout code s) := by
  unfold fuseLockout
  repeat (any_goals (first
    | with_reducible assumption
    | with_reducible refine Kept.ite (fun _ => ?_) (fun _ => ?_)
    | extract_lets +onlyGivenNames x
    | with_reducible refine auditThen_inv ?_
    | with_reducible refine say_inv ?_
    | with_reducible refine audit_inv ?_
    | fail_if_no_progress (with_reducible refine Kept.upd ?_ rfl rfl rfl)
    ))

theorem suspectAll_inv {p : Fin 8} {s : State} (h : Kept κ s) : Kept κ (suspectAll p s) := by
  unfold suspectAll
  repeat (any_goals (first
    | with_reducible assumption
    | extract_lets +onlyGivenNames x
    | with_reducible refine Kept.foldl (fun _ _ _ => ?_) ?_
    | with_reducible refine setChan_inv ?_
    | split
    ))

theorem scanMismatch_inv {b : ConfigBlock} {s : State} (h : Kept κ s) : Kept κ (scanMismatch b s) := by
  unfold scanMismatch
  repeat (any_goals (first
    | with_reducible assumption
    | with_reducible refine Kept.ite (fun _ => ?_) (fun _ => ?_)
    | extract_lets +onlyGivenNames x
    | with_reducible refine Kept.foldl (fun _ _ _ => ?_) ?_
    | with_reducible refine raise_inv ?_
    | with_reducible refine suspectAll_inv ?_
    ))

theorem configScan_inv {ms : List ConfigBlock} {s : State} (h : Kept κ s) : Kept κ (configScan ms s) := by
  unfold configScan
  repeat (any_goals (first
    | with_reducible assumption
    | with_reducible refine Kept.ite (fun _ => ?_) (fun _ => ?_)
    | extract_lets +onlyGivenNames x
    | with_reducible refine Kept.foldl (fun _ _ _ => ?_) ?_
    | with_reducible refine scanMismatch_inv ?_
    | fail_if_no_progress (with_reducible refine Kept.upd ?_ rfl rfl rfl)
    ))

theorem applyBellCfg_inv {s : State} (h : Kept κ s) : Kept κ (applyBellCfg s) := by
  unfold applyBellCfg
  repeat (any_goals (first
    | with_reducible assumption
    | extract_lets +onlyGivenNames x
    | fail_if_no_progress (with_reducible refine Kept.upd ?_ rfl rfl rfl)
    ))

theorem masterBreak_inv {k : ℕ} {s : State} (h : Kept κ s) : Kept κ (masterBreak k s) := by
  unfold masterBreak
  repeat (any_goals (first
    | with_reducible assumption
    | with_reducible refine Kept.ite (fun _ => ?_) (fun _ => ?_)
    | extract_lets +onlyGivenNames x
    | with_reducible refine raise_inv ?_
    | with_reducible refine onRing_inv ?_
    ))

theorem takeRecs_inv {i : ℕ} {n : ℕ} {s : State} (h : Kept κ s) : Kept κ (takeRecs i n s).2 := by
  unfold takeRecs
  repeat (any_goals (first
    | with_reducible assumption
    | extract_lets +onlyGivenNames x
    | fail_if_no_progress (with_reducible refine Kept.upd ?_ rfl rfl rfl)
    ))

theorem sendSlot_inv {k : ℕ} {s : State} (h : Kept κ s) : Kept κ (sendSlot k s) := by
  unfold sendSlot
  repeat (any_goals (first
    | with_reducible assumption
    | with_reducible refine Kept.ite (fun _ => ?_) (fun _ => ?_)
    | extract_lets +onlyGivenNames x
    | with_reducible refine bellSend_inv ?_
    | with_reducible refine takeRecs_inv ?_
    | fail_if_no_progress (with_reducible refine Kept.upd ?_ rfl rfl rfl)
    ))

theorem bellFrameLaunch_inv {k : ℕ} {sent : RawStamp} {s : State} (h : Kept κ s) : Kept κ (bellFrameLaunch k sent s) := by
  unfold bellFrameLaunch
  repeat (any_goals (first
    | with_reducible assumption
    | with_reducible refine Kept.ite (fun _ => ?_) (fun _ => ?_)
    | (extract_lets +onlyGivenNames x; refine ((fun hx => ?_) : Kept κ x → _) ?_; on_goal 1 => clear_value x; on_goal 2 => first | with_reducible refine Kept.ite (fun _ => ?_) (fun _ => ?_) | (unfold x; split) | skip)
    | extract_lets +onlyGivenNames x
    | with_reducible refine masterBreak_inv ?_
    | with_reducible refine tdcEdge_inv ?_
    | with_reducible refine noteSend_inv ?_
    | with_reducible refine takeRecs_inv ?_
    | with_reducible refine bellSend_inv ?_
    | with_reducible refine showBell_inv ?_
    | with_reducible refine sendSlot_inv ?_
    | with_reducible refine onRing_inv ?_
    | with_reducible refine applyBellCfg_inv ?_
    ))

theorem trainFrame_inv {n : ℕ} {f : TrainFrame} {s : State} (h : Kept κ s) : Kept κ (trainFrame n f s) := by
  unfold trainFrame
  repeat (any_goals (first
    | with_reducible assumption
    | with_reducible refine Kept.ite (fun _ => ?_) (fun _ => ?_)
    | (extract_lets +onlyGivenNames x; refine ((fun hx => ?_) : Kept κ x → _) ?_; on_goal 1 => clear_value x; on_goal 2 => first | with_reducible refine Kept.ite (fun _ => ?_) (fun _ => ?_) | (unfold x; split) | skip)
    | extract_lets +onlyGivenNames x
    | with_reducible refine linkSend_inv ?_
    | with_reducible refine onLane_inv ?_
    | with_reducible refine laneEnter_inv ?_
    ))

theorem tdcStart_inv {s : State} (h : Kept κ s) : Kept κ (tdcStart s) := by
  unfold tdcStart
  repeat (any_goals (first
    | with_reducible assumption
    | with_reducible refine Kept.ite (fun _ => ?_) (fun _ => ?_)
    | extract_lets +onlyGivenNames x
    | with_reducible refine raise_inv ?_
    | fail_if_no_progress (with_reducible refine Kept.upd ?_ rfl rfl rfl)
    ))

theorem markSeen_inv {r : List Byte} {s : State} (h : Kept κ s) : Kept κ (markSeen r s) := by
  unfold markSeen
  repeat (any_goals (first
    | with_reducible assumption
    | extract_lets +onlyGivenNames x
    | fail_if_no_progress (with_reducible refine Kept.upd ?_ rfl rfl rfl)
    ))

theorem queueRec_inv {i : ℕ} {r : List Byte} {s : State} (h : Kept κ s) : Kept κ (queueRec i r s) := by
  unfold queueRec
  repeat (any_goals (first
    | with_reducible assumption
    | with_reducible refine Kept.ite (fun _ => ?_) (fun _ => ?_)
    | extract_lets +onlyGivenNames x
    | with_reducible refine raise_inv ?_
    | with_reducible refine bump_inv ?_
    | split
    | fail_if_no_progress (with_reducible refine Kept.upd ?_ rfl rfl rfl)
    ))

theorem originate_inv {typ : ℕ} {body : List Byte} {s : State} (h : Kept κ s) : Kept κ (originate typ body s) := by
  unfold originate
  repeat (any_goals (first
    | with_reducible assumption
    | with_reducible refine Kept.ite (fun _ => ?_) (fun _ => ?_)
    | extract_lets +onlyGivenNames x
    | with_reducible refine queueRec_inv ?_
    | with_reducible refine markSeen_inv ?_
    | fail_if_no_progress (with_reducible refine Kept.upd ?_ rfl rfl rfl)
    ))

theorem takeArm_inv {a : Arm} {s : State} (h : Kept κ s) : Kept κ (takeArm a s) := by
  unfold takeArm
  repeat (any_goals (first
    | with_reducible assumption
    | extract_lets +onlyGivenNames x
    | with_reducible refine armEffect_inv ?_
    | fail_if_no_progress (with_reducible refine Kept.upd ?_ rfl rfl rfl)
    ))

theorem triggerArm_inv {d : Desc} {s : State} (h : Kept κ s) : Kept κ (triggerArm d s) := by
  unfold triggerArm
  repeat (any_goals (first
    | with_reducible assumption
    | with_reducible refine Kept.ite (fun _ => ?_) (fun _ => ?_)
    | extract_lets +onlyGivenNames x
    | with_reducible refine takeArm_inv ?_
    | with_reducible refine originate_inv ?_
    | with_reducible refine complete_inv ?_
    ))

theorem voltageRecovered_inv {s : State} (h : Kept κ s) : Kept κ (voltageRecovered s) := by
  unfold voltageRecovered
  repeat (any_goals (first
    | with_reducible assumption
    | with_reducible refine Kept.ite (fun _ => ?_) (fun _ => ?_)
    | extract_lets +onlyGivenNames x
    | fail_if_no_progress (with_reducible refine Kept.upd ?_ rfl rfl rfl)
    ))

theorem deadTimeout_inv {k : ℕ} {u : ℕ} {s : State} (h : Kept κ s) : Kept κ (deadTimeout k u s) := by
  unfold deadTimeout
  repeat (any_goals (first
    | with_reducible assumption
    | with_reducible refine Kept.ite (fun _ => ?_) (fun _ => ?_)
    | extract_lets +onlyGivenNames x
    | with_reducible refine originate_inv ?_
    | split
    | fail_if_no_progress (with_reducible refine Kept.upd ?_ rfl rfl rfl)
    ))

theorem tdcCalBegin_inv {s : State} (h : Kept κ s) : Kept κ (tdcCalBegin s) := by
  unfold tdcCalBegin
  repeat (any_goals (first
    | with_reducible assumption
    | with_reducible refine Kept.ite (fun _ => ?_) (fun _ => ?_)
    | extract_lets +onlyGivenNames x
    | fail_if_no_progress (with_reducible refine Kept.upd ?_ rfl rfl rfl)
    ))

theorem timeTdcCtlWrite_inv {v : Payload} {s : State} (h : Kept κ s) : Kept κ (timeTdcCtlWrite v s) := by
  unfold timeTdcCtlWrite
  repeat (any_goals (first
    | with_reducible assumption
    | with_reducible refine Kept.ite (fun _ => ?_) (fun _ => ?_)
    | extract_lets +onlyGivenNames x
    | with_reducible refine setReg_inv ?_
    | with_reducible refine tdcCalBegin_inv ?_
    | with_reducible refine tdcStart_inv ?_
    ))

theorem refSwitch_inv {s : State} (h : Kept κ s) : Kept κ (refSwitch s) := by
  unfold refSwitch
  repeat (any_goals (first
    | with_reducible assumption
    | with_reducible refine Kept.ite (fun _ => ?_) (fun _ => ?_)
    | extract_lets +onlyGivenNames x
    | with_reducible refine raise_inv ?_
    | with_reducible refine updateTimeq_inv ?_
    | fail_if_no_progress (with_reducible refine Kept.upd ?_ rfl rfl rfl)
    ))

theorem timeRefLost_inv {r : RefInput} {s : State} (h : Kept κ s) : Kept κ (timeRefLost r s) := by
  unfold timeRefLost
  repeat (any_goals (first
    | with_reducible assumption
    | with_reducible refine Kept.ite (fun _ => ?_) (fun _ => ?_)
    | extract_lets +onlyGivenNames x
    | with_reducible refine raise_inv ?_
    | with_reducible refine refSwitch_inv ?_
    | split
    | fail_if_no_progress (with_reducible refine Kept.upd ?_ rfl rfl rfl)
    ))

theorem scanBoundary_inv {captured : List Bool} {scan : List Bool} {s : State} (h : Kept κ s) : Kept κ (scanBoundary captured scan s) := by
  unfold scanBoundary
  repeat (any_goals (first
    | with_reducible assumption
    | extract_lets +onlyGivenNames x
    | with_reducible refine emit_inv ?_
    | fail_if_no_progress (with_reducible refine Kept.upd ?_ rfl rfl rfl)
    ))

theorem extest_inv {scan : List Bool} {s : State} (h : Kept κ s) : Kept κ (extest scan s) := by
  unfold extest
  repeat (any_goals (first
    | with_reducible assumption
    | with_reducible refine Kept.ite (fun _ => ?_) (fun _ => ?_)
    | extract_lets +onlyGivenNames x
    | with_reducible refine freeNat_inv ?_
    | with_reducible refine jtagLoad_inv ?_
    | with_reducible refine scanBypass_inv ?_
    | with_reducible refine scanBoundary_inv ?_
    ))

theorem markPiece_inv {r : PieceRec} {s : State} (h : Kept κ s) : Kept κ (markPiece r s).2 := by
  unfold markPiece
  repeat (any_goals (first
    | with_reducible assumption
    | with_reducible refine Kept.ite (fun _ => ?_) (fun _ => ?_)
    | (extract_lets +onlyGivenNames x; refine ((fun hx => ?_) : Kept κ x → _) ?_; on_goal 1 => clear_value x; on_goal 2 => first | with_reducible refine Kept.ite (fun _ => ?_) (fun _ => ?_) | (unfold x; split) | skip)
    | extract_lets +onlyGivenNames x
    | with_reducible refine setPart_inv ?_
    | with_reducible refine markInputs_inv ?_
    | with_reducible refine setChan_inv ?_
    | split
    ))

theorem suspectRange_inv {q : ℕ} {t : ℕ} {p : Fin 8} {rs : List PieceRec} {s : State} (h : Kept κ s) : Kept κ (suspectRange q t p rs s) := by
  unfold suspectRange
  repeat (any_goals (first
    | with_reducible assumption
    | extract_lets +onlyGivenNames x
    | with_reducible refine raise_inv ?_
    ))

theorem markSuspect_inv {q : ℕ} {t : ℕ} {except : Option PieceRec} {s : State} (h : Kept κ s) : Kept κ (markSuspect q t except s) := by
  unfold markSuspect
  repeat (any_goals (first
    | with_reducible assumption
    | with_reducible refine Kept.ite (fun _ => ?_) (fun _ => ?_)
    | extract_lets +onlyGivenNames x
    | with_reducible refine Kept.foldl (fun _ _ _ => ?_) ?_
    | with_reducible refine markPiece_inv ?_
    | with_reducible refine suspectRange_inv ?_
    | with_reducible refine onQuad_inv ?_
    | with_reducible refine Kept.foldl_snd (fun _ _ _ => ?_) ?_
    ))

theorem enterStandby_inv {s : State} (h : Kept κ s) : Kept κ (enterStandby s) := by
  unfold enterStandby
  repeat (any_goals (first
    | with_reducible assumption
    | with_reducible refine Kept.ite (fun _ => ?_) (fun _ => ?_)
    | (extract_lets +onlyGivenNames x; refine ((fun hx => ?_) : Kept κ x → _) ?_; on_goal 1 => clear_value x; on_goal 2 => first | with_reducible refine Kept.ite (fun _ => ?_) (fun _ => ?_) | (unfold x; split) | skip)
    | extract_lets +onlyGivenNames x
    | with_reducible refine Kept.foldl (fun _ _ _ => ?_) ?_
    | with_reducible refine raise_inv ?_
    | with_reducible refine setReg_inv ?_
    | with_reducible refine laneEnter_inv ?_
    | with_reducible refine Kept.foldl_snd (fun _ _ _ => ?_) ?_
    | fail_if_no_progress (with_reducible refine Kept.upd ?_ rfl rfl rfl)
    ))

theorem refEvent_inv {e : Option Event} {n : ℕ} {s : State} (h : Kept κ s) : Kept κ (refEvent e n s) := by
  unfold refEvent
  repeat (any_goals (first
    | with_reducible assumption
    | with_reducible refine raise_inv ?_
    | split
    ))

theorem logSuperseded_inv {n : ℕ} {s : State} (h : Kept κ s) : Kept κ (logSuperseded n s) := by
  unfold logSuperseded
  repeat (any_goals (first
    | with_reducible assumption
    | with_reducible refine Kept.ite (fun _ => ?_) (fun _ => ?_)
    | extract_lets +onlyGivenNames x
    | with_reducible refine setSysRing_inv ?_
    ))

theorem disposeFire_inv {a : Arm} {f : Fire} {s : State} (h : Kept κ s) : Kept κ (disposeFire a f s).2 := by
  unfold disposeFire
  repeat (any_goals (first
    | with_reducible assumption
    | extract_lets +onlyGivenNames x
    | with_reducible refine logFire_inv ?_
    | with_reducible refine bump_inv ?_
    | with_reducible refine setCrib_inv ?_
    | with_reducible refine logSuperseded_inv ?_
    | with_reducible refine newEvent_inv ?_
    | split
    | fail_if_no_progress (with_reducible refine Kept.upd ?_ rfl rfl rfl)
    ))

theorem localFire_inv {a : Arm} {p : Fin 8} {source : ℕ} {time : ℕ} {beam : ℕ} {chan : ℕ} {s : State} (h : Kept κ s) : Kept κ (localFire a p source time beam chan s).2 := by
  unfold localFire
  repeat (any_goals (first
    | with_reducible assumption
    | with_reducible refine Kept.ite (fun _ => ?_) (fun _ => ?_)
    | extract_lets +onlyGivenNames x
    | with_reducible refine disposeFire_inv ?_
    | with_reducible refine originate_inv ?_
    ))

theorem runChain_inv {p : Fin 8} {entry : ℕ} {chan : ℕ} {stokes : ℕ} {int : ℕ} {c : ℕ} {xs : List (Option ℤ × ℕ)} {s : State} (h : Kept κ s) : Kept κ (runChain p entry chan stokes int c xs s).2 := by
  unfold runChain
  repeat (any_goals (first
    | with_reducible assumption
    | with_reducible refine Kept.ite (fun _ => ?_) (fun _ => ?_)
    | extract_lets +onlyGivenNames x
    | with_reducible refine Kept.foldl (fun _ _ _ => ?_) ?_
    | with_reducible refine bump_inv ?_
    | with_reducible refine localFire_inv ?_
    | with_reducible refine ringAppend_inv ?_
    | split
    | fail_if_no_progress (with_reducible refine Kept.upd ?_ rfl rfl rfl)
    ))

theorem clearSummary_inv {s : State} (h : Kept κ s) : Kept κ (clearSummary s) := by
  refine h.of ?_ (fun x => storeWf_filter _ x) ?_ ?_ ?_ ?_ ?_ ?_ ?_ ?_ ?_ ?_ ?_ ?_ ?_ <;> first | exact id | rfl

theorem takeDoorbell_inv {n : Fin 16384} {s : State} (h : Kept κ s) : Kept κ (takeDoorbell n s) := by
  unfold takeDoorbell
  repeat (any_goals (first
    | with_reducible assumption
    | with_reducible refine Kept.ite (fun _ => ?_) (fun _ => ?_)
    | extract_lets +onlyGivenNames x
    | with_reducible refine raise_inv ?_
    | with_reducible refine setRingCtx_inv ?_
    | with_reducible refine setF_inv ?_
    ))

theorem pollTick_inv {s : State} (h : Kept κ s) : Kept κ (pollTick s) := by
  unfold pollTick
  repeat (any_goals (first
    | with_reducible assumption
    | with_reducible refine Kept.ite (fun _ => ?_) (fun _ => ?_)
    | extract_lets +onlyGivenNames x
    | with_reducible refine Kept.foldl (fun _ _ _ => ?_) ?_
    | with_reducible refine takeDoorbell_inv ?_
    | with_reducible refine clearSummary_inv ?_
    | fail_if_no_progress (with_reducible refine Kept.upd ?_ rfl rfl rfl)
    ))

theorem fifoFault_inv {g : ℕ} {s : State} (h : Kept κ s) : Kept κ (fifoFault g s) := by
  unfold fifoFault
  repeat (any_goals (first
    | with_reducible assumption
    | with_reducible refine raise_inv ?_
    ))

theorem freeCrib_inv {k : ℕ} {s : State} (h : Kept κ s) : Kept κ (freeCrib k s) := by
  unfold freeCrib
  repeat (any_goals (first
    | with_reducible assumption
    | with_reducible refine Kept.ite (fun _ => ?_) (fun _ => ?_)
    | extract_lets +onlyGivenNames x
    | with_reducible refine startCrib_inv ?_
    | with_reducible refine setCrib_inv ?_
    | split
    ))

theorem readDone_inv {crib : ℕ} {p : Fin 8} {s : State} (h : Kept κ s) : Kept κ (readDone crib p s) := by
  unfold readDone
  repeat (any_goals (first
    | with_reducible assumption
    | with_reducible refine freeCrib_inv ?_
    | with_reducible refine raise_inv ?_
    | with_reducible refine setCrib_inv ?_
    ))

theorem capturePacketSend_inv {crib : ℕ} {s : State} (h : Kept κ s) : Kept κ (capturePacketSend crib s) := by
  unfold capturePacketSend
  repeat (any_goals (first
    | with_reducible assumption
    | with_reducible refine Kept.ite (fun _ => ?_) (fun _ => ?_)
    | extract_lets +onlyGivenNames x
    | with_reducible refine sendProductAs_inv ?_
    | with_reducible refine readDone_inv ?_
    | with_reducible refine setCrib_inv ?_
    | split
    ))

theorem xferResult_inv {c status count : Nat} {lost : Option Nat} {s : State} (h : Kept κ s) :
    Kept κ (xferResult c status count lost s) := by
  refine onCore_inv (fun x hx => ⟨hx.1, hx.2.1, ?_, hx.2.2.2⟩) h
  have := hx.2.2.1
  dsimp only
  split
  · simp_all
  · simp

theorem monLedgerFailed_inv {s : State} (h : Kept κ s) : Kept κ (monLedgerFailed s) := by
  unfold monLedgerFailed
  repeat (any_goals (first
    | with_reducible assumption
    | extract_lets +onlyGivenNames x
    | with_reducible refine Kept.foldl (fun _ _ _ => ?_) ?_
    | with_reducible refine say_inv ?_
    | fail_if_no_progress (with_reducible refine Kept.upd ?_ rfl rfl rfl)
    ))

theorem leaveStandby_inv {s : State} (h : Kept κ s) : Kept κ (leaveStandby s) := by
  unfold leaveStandby
  repeat (any_goals (first
    | with_reducible assumption
    | with_reducible refine Kept.ite (fun _ => ?_) (fun _ => ?_)
    | extract_lets +onlyGivenNames x
    | with_reducible refine setF_inv ?_
    | fail_if_no_progress (with_reducible refine Kept.upd ?_ rfl rfl rfl)
    ))

theorem poisonEntry_inv {t : ℕ} {i : ℕ} {s : State} (h : Kept κ s) : Kept κ (poisonEntry t i s) := by
  unfold poisonEntry
  repeat (any_goals (first
    | with_reducible assumption
    | with_reducible refine tabSet_inv ?_
    ))

theorem fencePart_inv {p : Fin 8} {r : ℕ} {epoch : ℕ} {s : State} (h : Kept κ s) : Kept κ (fencePart p r epoch s) := by
  unfold fencePart
  repeat (any_goals (first
    | with_reducible assumption
    | with_reducible refine Kept.ite (fun _ => ?_) (fun _ => ?_)
    | (extract_lets +onlyGivenNames x; refine ((fun hx => ?_) : Kept κ x → _) ?_; on_goal 1 => clear_value x; on_goal 2 => first | with_reducible refine Kept.ite (fun _ => ?_) (fun _ => ?_) | (unfold x; split) | skip)
    | extract_lets +onlyGivenNames x
    | with_reducible refine raise_inv ?_
    | with_reducible refine setFence_inv ?_
    | fail_if_no_progress (with_reducible refine Kept.upd ?_ rfl rfl rfl)
    ))

theorem loseMaster_inv {epoch : ℕ} {s : State} (h : Kept κ s) : Kept κ (loseMaster epoch s) := by
  unfold loseMaster
  repeat (any_goals (first
    | with_reducible assumption
    | with_reducible refine Kept.ite (fun _ => ?_) (fun _ => ?_)
    | extract_lets +onlyGivenNames x
    | with_reducible refine noteAttn_inv ?_
    | with_reducible refine raise_inv ?_
    | fail_if_no_progress (with_reducible refine Kept.upd ?_ rfl rfl rfl)
    ))

theorem roleConflict_inv {r : ℕ} {epoch : ℕ} {s : State} (h : Kept κ s) : Kept κ (roleConflict r epoch s) := by
  unfold roleConflict
  repeat (any_goals (first
    | with_reducible assumption
    | with_reducible refine Kept.ite (fun _ => ?_) (fun _ => ?_)
    | (extract_lets +onlyGivenNames x; refine ((fun hx => ?_) : Kept κ x → _) ?_; on_goal 1 => clear_value x; on_goal 2 => first | with_reducible refine Kept.ite (fun _ => ?_) (fun _ => ?_) | (unfold x; split) | skip)
    | extract_lets +onlyGivenNames x
    | with_reducible refine Kept.foldl (fun _ _ _ => ?_) ?_
    | with_reducible refine fencePart_inv ?_
    | with_reducible refine loseMaster_inv ?_
    | with_reducible refine raise_inv ?_
    ))

theorem timeNowLatch_inv {m : Master} {s : State} (h : Kept κ s) : Kept κ (timeNowLatch m s) := by
  unfold timeNowLatch
  repeat (any_goals (first
    | with_reducible assumption
    | extract_lets +onlyGivenNames x
    | fail_if_no_progress (with_reducible refine Kept.upd ?_ rfl rfl rfl)
    ))

theorem afterRead_inv {m : Master} {o : ℕ} {s : State} (h : Kept κ s) : Kept κ (afterRead m o s) := by
  unfold afterRead
  repeat (any_goals (first
    | with_reducible assumption
    | extract_lets +onlyGivenNames x
    | with_reducible refine timeNowLatch_inv ?_
    | split
    ))

theorem barRead_inv {m : Master} {bar4 : Bool} {o : ℕ} {n : ℕ} {s : State} (h : Kept κ s) : Kept κ (barRead m bar4 o n s) := by
  unfold barRead
  repeat (any_goals (first
    | with_reducible assumption
    | with_reducible refine Kept.ite (fun _ => ?_) (fun _ => ?_)
    | with_reducible refine afterRead_inv ?_
    | with_reducible refine emit_inv ?_
    ))

theorem mmioAccess_inv {a : BarAccess} {s : State} (h : Kept κ s) : Kept κ (mmioAccess a s) := by
  unfold mmioAccess
  repeat (any_goals (first
    | with_reducible assumption
    | with_reducible refine Kept.ite (fun _ => ?_) (fun _ => ?_)
    | extract_lets +onlyGivenNames x
    | with_reducible refine dropLatch_inv ?_
    | with_reducible refine emit_inv ?_
    | with_reducible refine barRead_inv ?_
    ))

theorem fwComplete_inv {status : ℕ} {s : State} (h : Kept κ s) : Kept κ (fwComplete status s) := by
  unfold fwComplete
  repeat (any_goals (first
    | with_reducible assumption
    | with_reducible refine complete_inv ?_
    | split
    ))

theorem onBank_inv {b : ℕ} {f : LedBank → LedBank} {s : State} (h : Kept κ s) : Kept κ (onBank b f s) := by
  unfold onBank
  repeat (any_goals (first
    | with_reducible assumption
    | extract_lets +onlyGivenNames x
    | fail_if_no_progress (with_reducible refine Kept.upd ?_ rfl rfl rfl)
    ))

theorem ledgerFails_inv {s : State} (h : Kept κ s) : Kept κ (ledgerFails s) := by
  unfold ledgerFails
  repeat (any_goals (first
    | with_reducible assumption
    | extract_lets +onlyGivenNames x
    | with_reducible refine Kept.foldl (fun _ _ _ => ?_) ?_
    | with_reducible refine raise_inv ?_
    | with_reducible refine monLedgerFailed_inv ?_
    | with_reducible refine noteAttn_inv ?_
    | with_reducible refine onBank_inv ?_
    | with_reducible refine fwComplete_inv ?_
    | split
    | fail_if_no_progress (with_reducible refine Kept.upd ?_ rfl rfl rfl)
    | dsimp +zetaDelta only
    ))

theorem suspectChan_inv {p : Fin 8} {chan : ℕ} {s : State} (h : Kept κ s) : Kept κ (suspectChan p chan s) := by
  unfold suspectChan
  repeat (any_goals (first
    | with_reducible assumption
    | with_reducible refine setChan_inv ?_
    | split
    ))

theorem reopenPart_inv {p : Fin 8} {s : State} (h : Kept κ s) : Kept κ (reopenPart p s) := by
  unfold reopenPart
  repeat (any_goals (first
    | with_reducible assumption
    | with_reducible refine setFence_inv ?_
    ))

theorem roleAt_inv {r : ℕ} {x : RoleRec} {mine : Bool} {p : Fin 8} {s : State} (h : Kept κ s) : Kept κ (roleAt r x mine p s) := by
  unfold roleAt
  repeat (any_goals (first
    | with_reducible assumption
    | with_reducible refine Kept.ite (fun _ => ?_) (fun _ => ?_)
    | with_reducible refine fencePart_inv ?_
    | with_reducible refine reopenPart_inv ?_
    ))

theorem staleDrop_inv {r : ℕ} {s : State} (h : Kept κ s) : Kept κ (staleDrop r s) := by
  unfold staleDrop
  repeat (any_goals (first
    | with_reducible assumption
    | with_reducible refine raise_inv ?_
    | with_reducible refine bump_inv ?_
    ))

theorem takeRole_inv {r : ℕ} {epoch : ℕ} {p : Fin 8} {s : State} (h : Kept κ s) : Kept κ (takeRole r epoch p s) := by
  unfold takeRole
  repeat (any_goals (first
    | with_reducible assumption
    | with_reducible refine Kept.ite (fun _ => ?_) (fun _ => ?_)
    | (extract_lets +onlyGivenNames x; refine ((fun hx => ?_) : Kept κ x → _) ?_; on_goal 1 => clear_value x; on_goal 2 => first | with_reducible refine Kept.ite (fun _ => ?_) (fun _ => ?_) | (unfold x; split) | skip)
    | extract_lets +onlyGivenNames x
    | with_reducible refine Kept.foldl (fun _ _ _ => ?_) ?_
    | with_reducible refine noteAttn_inv ?_
    | with_reducible refine reopenPart_inv ?_
    | with_reducible refine setReg_inv ?_
    | with_reducible refine Kept.foldl_snd (fun _ _ _ => ?_) ?_
    | split
    | fail_if_no_progress (with_reducible refine Kept.upd ?_ rfl rfl rfl)
    ))

theorem applyRole_inv {r : ℕ} {x : RoleRec} {s : State} (h : Kept κ s) : Kept κ (applyRole r x s) := by
  unfold applyRole
  repeat (any_goals (first
    | with_reducible assumption
    | with_reducible refine Kept.ite (fun _ => ?_) (fun _ => ?_)
    | (extract_lets +onlyGivenNames x; refine ((fun hx => ?_) : Kept κ x → _) ?_; on_goal 1 => clear_value x; on_goal 2 => first | with_reducible refine Kept.ite (fun _ => ?_) (fun _ => ?_) | (unfold x; split) | skip)
    | extract_lets +onlyGivenNames x
    | with_reducible refine Kept.foldl (fun _ _ _ => ?_) ?_
    | with_reducible refine roleConflict_inv ?_
    | with_reducible refine roleAt_inv ?_
    | with_reducible refine takeRole_inv ?_
    | with_reducible refine loseMaster_inv ?_
    | with_reducible refine staleDrop_inv ?_
    | split
    | fail_if_no_progress (with_reducible refine Kept.upd ?_ rfl rfl rfl)
    ))

theorem assignRole_inv {r : ℕ} {x : RoleRec} {s : State} (h : Kept κ s) : Kept κ (assignRole r x s) := by
  unfold assignRole
  repeat (any_goals (first
    | with_reducible assumption
    | extract_lets +onlyGivenNames x
    | with_reducible refine applyRole_inv ?_
    | with_reducible refine originate_inv ?_
    | fail_if_no_progress (with_reducible refine Kept.upd ?_ rfl rfl rfl)
    ))

theorem markBegun_inv {d : Desc} {s : State} (h : Kept κ s) : Kept κ (markBegun d s) := by
  unfold markBegun
  repeat (any_goals (first
    | with_reducible assumption
    | extract_lets +onlyGivenNames x
    | fail_if_no_progress (with_reducible refine Kept.upd ?_ rfl rfl rfl)
    ))

theorem runDesc_inv {op : ℕ → Bool} {tag : ℕ} {checks : Desc → State → List Check} {effect : Desc → State → State} {s : State} (heffect : ∀ y0 s, Kept κ s → Kept κ (effect y0 s)) (h : Kept κ s) : Kept κ (runDesc op tag checks effect s) := by
  unfold runDesc
  repeat (any_goals (first
    | with_reducible assumption
    | with_reducible refine Kept.ite (fun _ => ?_) (fun _ => ?_)
    | extract_lets +onlyGivenNames x
    | with_reducible apply heffect
    | with_reducible refine complete_inv ?_
    | with_reducible refine markBegun_inv ?_
    | split
    ))

theorem fireRecord_inv {rec : List Byte} {s : State} (h : Kept κ s) : Kept κ (fireRecord rec s) := by
  unfold fireRecord
  repeat (any_goals (first
    | with_reducible assumption
    | with_reducible refine Kept.ite (fun _ => ?_) (fun _ => ?_)
    | extract_lets +onlyGivenNames x
    | with_reducible refine raise_inv ?_
    | with_reducible refine disposeFire_inv ?_
    | split
    ))

theorem resetDevice_inv {cause : Nat} {s : State} (h : Kept κ s) : Kept κ (resetDevice cause s) := by
  exact setReg_inv ⟨⟨⟨rfl, h.inv.canonical.2.1, rfl, rfl, rfl, rfl, rfl, rfl, rfl, rfl⟩, ⟨rfl, rfl, rfl⟩, State.reset_cores, (by decide : State.reset.time.sub < secUnits),
    h.inv.svn⟩, h.pending, h.fuses⟩

theorem deviceReset_inv {cause : ℕ} {s : State} (h : Kept κ s) : Kept κ (deviceReset cause s) :=
  Kept.sys (resetDevice_inv h) (fun m => ⟨h.inv.memories.1, m.2⟩)

theorem sysRst_inv {low : Bool} {s : State} (h : Kept κ s) : Kept κ (sysRst low s) := by
  unfold sysRst
  repeat (any_goals (first
    | with_reducible assumption
    | with_reducible refine Kept.ite (fun _ => ?_) (fun _ => ?_)
    | extract_lets +onlyGivenNames x
    | with_reducible refine deviceReset_inv ?_
    | fail_if_no_progress (with_reducible refine Kept.upd ?_ rfl rfl rfl)
    ))

theorem beamSaturated_inv {p : Fin 8} {int : ℕ} {beam : ℕ} {s : State} (h : Kept κ s) : Kept κ (beamSaturated p int beam s) := by
  unfold beamSaturated
  repeat (any_goals (first
    | with_reducible assumption
    | with_reducible refine Kept.ite (fun _ => ?_) (fun _ => ?_)
    | extract_lets +onlyGivenNames x
    | with_reducible refine raise_inv ?_
    | fail_if_no_progress (with_reducible refine Kept.upd ?_ rfl rfl rfl)
    ))

theorem voltagePacket_inv {p : Fin 8} {c : Copy} {b : Batch} {cfg : PartCfg} {beam : ℕ × BeamCtl} {mark : BeamMark} {int : ℕ} {t0 : ℕ} {s : State} (h : Kept κ s) : Kept κ (voltagePacket p c b cfg beam mark int t0 s) := by
  unfold voltagePacket
  repeat (any_goals (first
    | with_reducible assumption
    | with_reducible refine Kept.ite (fun _ => ?_) (fun _ => ?_)
    | extract_lets +onlyGivenNames x
    | with_reducible refine bump_inv ?_
    | with_reducible refine sendProduct_inv ?_
    | with_reducible refine beamSaturated_inv ?_
    ))

theorem beamOutputs_inv {p : Fin 8} {c : Copy} {b : Batch} {cfg : PartCfg} {beams : List (ℕ × BeamCtl)} {n : ℕ} {beam : ℕ × BeamCtl} {s : State} (h : Kept κ s) : Kept κ (beamOutputs p c b cfg beams n beam s) := by
  unfold beamOutputs
  repeat (any_goals (first
    | with_reducible assumption
    | with_reducible refine Kept.ite (fun _ => ?_) (fun _ => ?_)
    | extract_lets +onlyGivenNames x
    | with_reducible refine Kept.foldl (fun _ _ _ => ?_) ?_
    | with_reducible refine bump_inv ?_
    | with_reducible refine voltagePacket_inv ?_
    | with_reducible refine setPart_inv ?_
    | fail_if_no_progress (with_reducible refine Kept.upd ?_ rfl rfl rfl)
    ))

theorem sendBeams_inv {p : Fin 8} {epoch : ℕ} {ord : ℕ} {s : State} (h : Kept κ s) : Kept κ (sendBeams p epoch ord s) := by
  unfold sendBeams
  repeat (any_goals (first
    | with_reducible assumption
    | with_reducible refine Kept.ite (fun _ => ?_) (fun _ => ?_)
    | extract_lets +onlyGivenNames x
    | with_reducible refine Kept.foldl (fun _ _ _ => ?_) ?_
    | with_reducible refine beamOutputs_inv ?_
    | split
    ))

theorem passPiece_inv {p : Fin 8} {epoch : ℕ} {b : Batch} {task : ℕ} {first : ℕ} {n : ℕ} {s : State} (h : Kept κ s) : Kept κ (passPiece p epoch b task first n s) := by
  unfold passPiece
  repeat (any_goals (first
    | with_reducible assumption
    | with_reducible refine Kept.ite (fun _ => ?_) (fun _ => ?_)
    | (extract_lets +onlyGivenNames x; refine ((fun hx => ?_) : Kept κ x → _) ?_; on_goal 1 => clear_value x; on_goal 2 => first | with_reducible refine Kept.ite (fun _ => ?_) (fun _ => ?_) | (unfold x; split) | skip)
    | extract_lets +onlyGivenNames x
    | with_reducible refine sendBeams_inv ?_
    | with_reducible refine onPart_inv ?_
    | split
    | fail_if_no_progress (with_reducible refine Kept.upd ?_ rfl rfl rfl)
    ))

theorem failPc_inv {pc : ℕ} {s : State} (h : Kept κ s) : Kept κ (failPc pc s) := by
  unfold failPc
  repeat (any_goals (first
    | with_reducible assumption
    | with_reducible refine Kept.ite (fun _ => ?_) (fun _ => ?_)
    | extract_lets +onlyGivenNames x
    | with_reducible refine raise_inv ?_
    | with_reducible refine markPc_inv ?_
    | with_reducible refine ledgerQueue_inv ?_
    | fail_if_no_progress (with_reducible refine Kept.upd ?_ rfl rfl rfl)
    ))

theorem correctedError_inv {pc : ℕ} {addr : ℕ} {s : State} (h : Kept κ s) : Kept κ (correctedError pc addr s) := by
  unfold correctedError
  repeat (any_goals (first
    | with_reducible assumption
    | with_reducible refine Kept.ite (fun _ => ?_) (fun _ => ?_)
    | extract_lets +onlyGivenNames x
    | with_reducible refine raise_inv ?_
    | with_reducible refine bump_inv ?_
    | with_reducible refine failPc_inv ?_
    | with_reducible refine ledgerQueue_inv ?_
    | fail_if_no_progress (with_reducible refine Kept.upd ?_ rfl rfl rfl)
    ))

theorem reach_inv {p : Fin 8} {cp : Copy} {b : Batch} {s : State} (h : Kept κ s) : Kept κ (reach p cp b s) := by
  unfold reach
  repeat (any_goals (first
    | with_reducible assumption
    | with_reducible refine onPart_inv ?_
    ))

theorem outageTick_inv {s : State} (h : Kept κ s) : Kept κ (outageTick s) := by
  unfold outageTick
  repeat (any_goals (first
    | with_reducible assumption
    | extract_lets +onlyGivenNames x
    | with_reducible refine setF_inv ?_
    | fail_if_no_progress (with_reducible refine Kept.upd ?_ rfl rfl rfl)
    ))

theorem bellSlot_inv {lane : ℕ} {slot : ℕ} {bs : List Byte} {s : State} (h : Kept κ s) : Kept κ (bellSlot lane slot bs s) := by
  unfold bellSlot
  repeat (any_goals (first
    | with_reducible assumption
    | with_reducible refine Kept.ite (fun _ => ?_) (fun _ => ?_)
    | (extract_lets +onlyGivenNames x; refine ((fun hx => ?_) : Kept κ x → _) ?_; on_goal 1 => clear_value x; on_goal 2 => first | with_reducible refine Kept.ite (fun _ => ?_) (fun _ => ?_) | (unfold x; split) | skip)
    | extract_lets +onlyGivenNames x
    | with_reducible refine bellLaneFail_inv ?_
    | with_reducible refine showBell_inv ?_
    | with_reducible refine bellSend_inv ?_
    | with_reducible refine bump_inv ?_
    | with_reducible refine idConflict_inv ?_
    | with_reducible refine measureLink_inv ?_
    | with_reducible refine Kept.pair (by with_reducible assumption) ?_
    | fail_if_no_progress (with_reducible refine Kept.upd ?_ rfl rfl rfl)
    ))

theorem bellSlotLine_inv {lane : ℕ} {slot : ℕ} {line : List ℕ} {s : State} (h : Kept κ s) : Kept κ (bellSlotLine lane slot line s) := by
  unfold bellSlotLine
  repeat (any_goals (first
    | with_reducible assumption
    | with_reducible refine Kept.ite (fun _ => ?_) (fun _ => ?_)
    | extract_lets +onlyGivenNames x
    | with_reducible refine bellSlot_inv ?_
    | with_reducible refine lineReceive_inv ?_
    | split
    | with_reducible refine Kept.pair (by with_reducible assumption) ?_
    ))

theorem armRecord_inv {rec : List Byte} {s : State} (h : Kept κ s) : Kept κ (armRecord rec s) := by
  unfold armRecord
  repeat (any_goals (first
    | with_reducible assumption
    | with_reducible refine Kept.ite (fun _ => ?_) (fun _ => ?_)
    | extract_lets +onlyGivenNames x
    | with_reducible refine raise_inv ?_
    | with_reducible refine takeArm_inv ?_
    | with_reducible refine loseRole_inv ?_
    | with_reducible refine staleDrop_inv ?_
    | split
    | fail_if_no_progress (with_reducible refine Kept.upd ?_ rfl rfl rfl)
    ))

theorem bridgeCopy_inv {level : ℕ} {r : List Byte} {s : State} (h : Kept κ s) : Kept κ (bridgeCopy level r s) := by
  unfold bridgeCopy
  repeat (any_goals (first
    | with_reducible assumption
    | with_reducible refine Kept.ite (fun _ => ?_) (fun _ => ?_)
    | extract_lets +onlyGivenNames x
    | with_reducible refine queueRec_inv ?_
    | fail_if_no_progress (with_reducible refine Kept.upd ?_ rfl rfl rfl)
    ))

theorem receiveRec_inv {lane : ℕ} {typ : ℕ} {r : List Byte} {use : State → State} {s : State} (huse : ∀ s, Kept κ s → Kept κ (use s)) (h : Kept κ s) : Kept κ (receiveRec lane typ r use s) := by
  unfold receiveRec
  repeat (any_goals (first
    | with_reducible assumption
    | with_reducible refine Kept.ite (fun _ => ?_) (fun _ => ?_)
    | extract_lets +onlyGivenNames x
    | with_reducible apply huse
    | with_reducible refine bridgeCopy_inv ?_
    | with_reducible refine queueRec_inv ?_
    | with_reducible refine markSeen_inv ?_
    | with_reducible refine bump_inv ?_
    ))

theorem tdcArrive_inv {a : TdcArrival} {s : State} (h : Kept κ s) : Kept κ (tdcArrive a s) := by
  unfold tdcArrive
  repeat (any_goals (first
    | with_reducible assumption
    | (extract_lets +onlyGivenNames x; refine ((fun hx => ?_) : Kept κ x → _) ?_; on_goal 1 => clear_value x; on_goal 2 => first | with_reducible refine Kept.ite (fun _ => ?_) (fun _ => ?_) | (unfold x; split) | skip)
    | extract_lets +onlyGivenNames x
    | with_reducible refine tdcEdge_inv ?_
    | split
    | fail_if_no_progress (with_reducible refine Kept.upd ?_ rfl rfl rfl)
    ))

theorem trackCrystal_inv {g : RefGate} {s : State} (h : Kept κ s) : Kept κ (trackCrystal g s) := by
  unfold trackCrystal
  repeat (any_goals (first
    | with_reducible assumption
    | extract_lets +onlyGivenNames x
    | with_reducible refine setF_inv ?_
    | split
    | dsimp +zetaDelta only
    ))

theorem refGateEnd_inv {g : RefGate} {s : State} (h : Kept κ s) : Kept κ (refGateEnd g s) := by
  unfold refGateEnd
  repeat (any_goals (first
    | with_reducible assumption
    | (extract_lets +onlyGivenNames x; refine ((fun hx => ?_) : Kept κ x → _) ?_; on_goal 1 => clear_value x; on_goal 2 => first | with_reducible refine Kept.ite (fun _ => ?_) (fun _ => ?_) | (unfold x; split) | skip)
    | extract_lets +onlyGivenNames x
    | with_reducible refine Kept.foldl (fun _ _ _ => ?_) ?_
    | with_reducible refine tdcArrive_inv ?_
    | with_reducible refine trackCrystal_inv ?_
    | with_reducible refine refEvent_inv ?_
    | with_reducible refine refSwitch_inv ?_
    | with_reducible refine Kept.pair (by with_reducible assumption) ?_
    | fail_if_no_progress (with_reducible refine Kept.upd ?_ rfl rfl rfl)
    ))

theorem plainWrite_inv {r : Reg} {v : Payload} {s : State} (h : Kept κ s) : Kept κ (plainWrite r v s) := by
  unfold plainWrite
  repeat (any_goals (first
    | with_reducible assumption
    | with_reducible refine setReg_inv ?_
    ))

theorem ppsCfgWrite_inv {v : Payload} {s : State} (h : Kept κ s) : Kept κ (ppsCfgWrite v s) := by
  unfold ppsCfgWrite
  repeat (any_goals (first
    | with_reducible assumption
    | with_reducible refine plainWrite_inv ?_
    ))

theorem freeCancelled_inv {c : MasterClass} {s : State} (h : Kept κ s) : Kept κ (freeCancelled c s) := by
  unfold freeCancelled
  repeat (any_goals (first
    | with_reducible assumption
    | with_reducible refine Kept.ite (fun _ => ?_) (fun _ => ?_)
    | with_reducible refine Kept.foldl (fun _ _ _ => ?_) ?_
    | with_reducible refine setCrib_inv ?_
    ))

theorem accCfgWrite_inv {v : Payload} {s : State} (h : Kept κ s) : Kept κ (accCfgWrite v s) := by
  unfold accCfgWrite
  repeat (any_goals (first
    | with_reducible assumption
    | with_reducible refine plainWrite_inv ?_
    ))

theorem attnClr_inv {v : Payload} {s : State} (h : Kept κ s) : Kept κ (attnClr v s) := by
  unfold attnClr
  repeat (any_goals (first
    | with_reducible assumption
    | with_reducible refine Kept.ite (fun _ => ?_) (fun _ => ?_)
    | extract_lets +onlyGivenNames x
    | fail_if_no_progress (with_reducible refine Kept.upd ?_ rfl rfl rfl)
    ))

theorem detRange_inv {v : Payload} {s : State} (h : Kept κ s) : Kept κ (detRange v s).2 := by
  unfold detRange
  repeat (any_goals (first
    | with_reducible assumption
    | extract_lets +onlyGivenNames x
    | with_reducible refine raise_inv ?_
    | split
    | fail_if_no_progress (with_reducible refine Kept.upd ?_ rfl rfl rfl)
    ))

theorem dmaRegWrite_inv {m : Master} {f : Fin 32 → Reg} {ch : ℕ} {v : Payload} {s : State} (h : Kept κ s) : Kept κ (dmaRegWrite m f ch v s) := by
  unfold dmaRegWrite
  repeat (any_goals (first
    | with_reducible assumption
    | with_reducible refine Kept.ite (fun _ => ?_) (fun _ => ?_)
    | with_reducible refine setReg_inv ?_
    ))

theorem emergencyStop_inv {s : State} (h : Kept κ s) : Kept κ (emergencyStop s) := by
  unfold emergencyStop
  repeat (any_goals (first
    | with_reducible assumption
    | with_reducible refine raise_inv ?_
    | with_reducible refine stopDevice_inv ?_
    ))

theorem estopWrite_inv {v : Payload} {s : State} (h : Kept κ s) : Kept κ (estopWrite v s) := by
  unfold estopWrite
  repeat (any_goals (first
    | with_reducible assumption
    | with_reducible refine Kept.ite (fun _ => ?_) (fun _ => ?_)
    | with_reducible refine emergencyStop_inv ?_
    ))

theorem fabricQosWrite_inv {v : Payload} {s : State} (h : Kept κ s) : Kept κ (fabricQosWrite v s) := by
  unfold fabricQosWrite
  repeat (any_goals (first
    | with_reducible assumption
    | extract_lets +onlyGivenNames x
    | with_reducible refine setReg_inv ?_
    ))

theorem laneBellCfgWrite_inv {v : Payload} {s : State} (h : Kept κ s) : Kept κ (laneBellCfgWrite v s) := by
  unfold laneBellCfgWrite
  repeat (any_goals (first
    | with_reducible assumption
    | with_reducible refine Kept.ite (fun _ => ?_) (fun _ => ?_)
    | extract_lets +onlyGivenNames x
    | with_reducible refine Kept.foldl (fun _ _ _ => ?_) ?_
    | with_reducible refine laneEnter_inv ?_
    | with_reducible refine onLane_inv ?_
    | with_reducible refine setF_inv ?_
    ))

theorem leaveIdle_inv {n : ℕ} {s : State} (h : Kept κ s) : Kept κ (leaveIdle n s) := by
  unfold leaveIdle
  repeat (any_goals (first
    | with_reducible assumption
    | extract_lets +onlyGivenNames x
    | with_reducible refine emit_inv ?_
    | with_reducible refine onLane_inv ?_
    | with_reducible refine laneEnter_inv ?_
    ))

theorem wakeLane_inv {n : ℕ} {f : LowPower → LowPower} {s : State} (h : Kept κ s) : Kept κ (wakeLane n f s) := by
  unfold wakeLane
  repeat (any_goals (first
    | with_reducible assumption
    | extract_lets +onlyGivenNames x
    | with_reducible refine onLane_inv ?_
    | with_reducible refine laneEnter_inv ?_
    ))

theorem exitLowPower_inv {n : ℕ} {keep : LowPower} {s : State} (h : Kept κ s) : Kept κ (exitLowPower n keep s) := by
  unfold exitLowPower
  repeat (any_goals (first
    | with_reducible assumption
    | with_reducible refine Kept.ite (fun _ => ?_) (fun _ => ?_)
    | (extract_lets +onlyGivenNames x; refine ((fun hx => ?_) : Kept κ x → _) ?_; on_goal 1 => clear_value x; on_goal 2 => first | with_reducible refine Kept.ite (fun _ => ?_) (fun _ => ?_) | (unfold x; split) | skip)
    | extract_lets +onlyGivenNames x
    | with_reducible refine leaveIdle_inv ?_
    | with_reducible refine wakeLane_inv ?_
    | with_reducible refine sendLowPower_inv ?_
    | with_reducible refine onLane_inv ?_
    ))

theorem settleLowPower_inv {g : ℕ} {s : State} (h : Kept κ s) : Kept κ (settleLowPower g s) := by
  unfold settleLowPower
  repeat (any_goals (first
    | with_reducible assumption
    | with_reducible refine Kept.ite (fun _ => ?_) (fun _ => ?_)
    | with_reducible refine Kept.foldl (fun _ _ _ => ?_) ?_
    | with_reducible refine askLowPower_inv ?_
    ))

theorem laneCfgWrite_inv {n : ℕ} {v : Payload} {s : State} (h : Kept κ s) : Kept κ (laneCfgWrite n v s) := by
  unfold laneCfgWrite
  repeat (any_goals (first
    | with_reducible assumption
    | with_reducible refine Kept.ite (fun _ => ?_) (fun _ => ?_)
    | extract_lets +onlyGivenNames x
    | with_reducible refine raise_inv ?_
    | with_reducible refine setReg_inv ?_
    | with_reducible refine exitLowPower_inv ?_
    | with_reducible refine laneEnter_inv ?_
    | with_reducible refine onLane_inv ?_
    | with_reducible refine settleLowPower_inv ?_
    | with_reducible refine setF_inv ?_
    ))

theorem advertise_inv {g : ℕ} {s : State} (h : Kept κ s) : Kept κ (advertise g s) := by
  unfold advertise
  repeat (any_goals (first
    | with_reducible assumption
    | with_reducible refine Kept.ite (fun _ => ?_) (fun _ => ?_)
    | with_reducible refine emit_inv ?_
    ))

theorem laneGroupCfgWrite_inv {g : ℕ} {v : Payload} {s : State} (h : Kept κ s) : Kept κ (laneGroupCfgWrite g v s) := by
  unfold laneGroupCfgWrite
  repeat (any_goals (first
    | with_reducible assumption
    | with_reducible refine Kept.ite (fun _ => ?_) (fun _ => ?_)
    | (extract_lets +onlyGivenNames x; refine ((fun hx => ?_) : Kept κ x → _) ?_; on_goal 1 => clear_value x; on_goal 2 => first | with_reducible refine Kept.ite (fun _ => ?_) (fun _ => ?_) | (unfold x; split) | skip)
    | extract_lets +onlyGivenNames x
    | with_reducible refine Kept.foldl (fun _ _ _ => ?_) ?_
    | with_reducible refine onPort_inv ?_
    | with_reducible refine setReg_inv ?_
    | with_reducible refine advertise_inv ?_
    | with_reducible refine raise_inv ?_
    | with_reducible refine onLane_inv ?_
    | fail_if_no_progress (with_reducible refine Kept.upd ?_ rfl rfl rfl)
    ))

theorem memAllot_inv {m : Fin 3} {v : Payload} {s : State} (h : Kept κ s) : Kept κ (memAllot m v s) := by
  unfold memAllot
  repeat (any_goals (first
    | with_reducible assumption
    | with_reducible refine Kept.ite (fun _ => ?_) (fun _ => ?_)
    | extract_lets +onlyGivenNames x
    | with_reducible refine raise_inv ?_
    | with_reducible refine setReg_inv ?_
    ))

theorem discardRegions_inv {s : State} (h : Kept κ s) : Kept κ (discardRegions s) := by
  have h' : Kept κ ((List.range 4).foldl (fun s k => setCrib k (cribOf k s).cleared s) s) :=
    Kept.foldl (fun _ _ h => setCrib_inv h) h
  unfold discardRegions
  refine h'.of ?_ ?_ (fun x => ?_) ?_ (fun _ => rfl) (fun _ => rfl) (fun x => storeWf_filter _ x)
    (fun x => ?_) (fun _ => rfl) ?_ ?_ ?_ ?_ ?_ ?_
  · exact id
  · exact id
  · exact storeWf_map (d := fun _ => Part.idle) (f := fun x => { x with parked := [] }) x
  · exact id
  · exact storeWf_map (d := fun _ => (⟨[], 0, []⟩ : SysRing)) (f := fun r => { r with entries := [] }) x
  all_goals first | exact id | rfl

theorem applyLayout_inv {v : Payload} {s : State} (h : Kept κ s) : Kept κ (applyLayout v s) := by
  unfold applyLayout
  repeat (any_goals (first
    | with_reducible assumption
    | extract_lets +onlyGivenNames x
    | with_reducible refine raise_inv ?_
    | with_reducible refine setReg_inv ?_
    | with_reducible refine discardRegions_inv ?_
    | fail_if_no_progress (with_reducible refine Kept.upd ?_ rfl rfl rfl)
    ))

theorem memLayout_inv {v : Payload} {s : State} (h : Kept κ s) : Kept κ (memLayout v s) := by
  unfold memLayout
  repeat (any_goals (first
    | with_reducible assumption
    | with_reducible refine Kept.ite (fun _ => ?_) (fun _ => ?_)
    | with_reducible refine raise_inv ?_
    | with_reducible refine applyLayout_inv ?_
    ))

theorem endSession_inv {keep : Bool} {s : State} (h : Kept κ s) : Kept κ (endSession keep s) := by
  unfold endSession
  repeat (any_goals (first
    | with_reducible assumption
    | extract_lets +onlyGivenNames x
    | fail_if_no_progress (with_reducible refine Kept.upd ?_ rfl rfl rfl)
    ))

theorem monCtlWrite_inv {v : Payload} {s : State} (h : Kept κ s) : Kept κ (monCtlWrite v s) := by
  unfold monCtlWrite
  repeat (any_goals (first
    | with_reducible assumption
    | with_reducible refine Kept.ite (fun _ => ?_) (fun _ => ?_)
    | extract_lets +onlyGivenNames x
    | with_reducible refine endSession_inv ?_
    | with_reducible refine setF_inv ?_
    | fail_if_no_progress (with_reducible refine Kept.upd ?_ rfl rfl rfl)
    ))

theorem nudge_inv {s : State} (h : Kept κ s) : Kept κ (nudge s) := by
  unfold nudge
  repeat (any_goals (first
    | with_reducible assumption
    | with_reducible refine Kept.ite (fun _ => ?_) (fun _ => ?_)
    | extract_lets +onlyGivenNames x
    | fail_if_no_progress (with_reducible refine Kept.upd ?_ rfl rfl rfl)
    ))

theorem reeveCtlWrite_inv {m : Master} {v : Payload} {s : State} (h : Kept κ s) : Kept κ (reeveCtlWrite m v s) := by
  unfold reeveCtlWrite
  repeat (any_goals (first
    | with_reducible assumption
    | with_reducible refine Kept.ite (fun _ => ?_) (fun _ => ?_)
    | with_reducible refine setF_inv ?_
    ))

theorem ringRefused_inv {n : Fin 16384} {s : State} (h : Kept κ s) : Kept κ (ringRefused n s) := by
  unfold ringRefused
  repeat (any_goals (first
    | with_reducible assumption
    | with_reducible refine raise_inv ?_
    ))

theorem ringCfgWrite_inv {n : Fin 16384} {v : Payload} {s : State} (h : Kept κ s) : Kept κ (ringCfgWrite n v s) := by
  unfold ringCfgWrite
  repeat (any_goals (first
    | with_reducible assumption
    | with_reducible refine Kept.ite (fun _ => ?_) (fun _ => ?_)
    | extract_lets +onlyGivenNames x
    | with_reducible refine setReg_inv ?_
    | with_reducible refine setF_inv ?_
    | with_reducible refine ringRefused_inv ?_
    ))

theorem ringWrite_inv {n : Fin 16384} {which : RingRegister} {v : Payload} {s : State} (h : Kept κ s) : Kept κ (ringWrite n which v s) := by
  unfold ringWrite
  repeat (any_goals (first
    | with_reducible assumption
    | with_reducible refine Kept.ite (fun _ => ?_) (fun _ => ?_)
    | extract_lets +onlyGivenNames x
    | with_reducible refine setReg_inv ?_
    | with_reducible refine ringRefused_inv ?_
    | with_reducible refine setRingCtx_inv ?_
    | with_reducible refine ringCfgWrite_inv ?_
    | with_reducible refine setF_inv ?_
    | split
    ))

theorem sysPowerWrite_inv {v : Payload} {s : State} (h : Kept κ s) : Kept κ (sysPowerWrite v s) := by
  unfold sysPowerWrite
  repeat (any_goals (first
    | with_reducible assumption
    | with_reducible refine Kept.ite (fun _ => ?_) (fun _ => ?_)
    | with_reducible refine leaveStandby_inv ?_
    | with_reducible refine setF_inv ?_
    | with_reducible refine enterStandby_inv ?_
    ))

theorem tableInval_inv {v : Payload} {s : State} (h : Kept κ s) : Kept κ (tableInval v s) := by
  unfold tableInval
  repeat (any_goals (first
    | with_reducible assumption
    | with_reducible refine Kept.ite (fun _ => ?_) (fun _ => ?_)
    | extract_lets +onlyGivenNames x
    | with_reducible refine Kept.foldl (fun _ _ _ => ?_) ?_
    | with_reducible refine onPart_inv ?_
    ))

theorem timeCtlWrite_inv {m : Master} {v : Payload} {s : State} (h : Kept κ s) : Kept κ (timeCtlWrite m v s) := by
  unfold timeCtlWrite
  repeat (any_goals (first
    | with_reducible assumption
    | with_reducible refine Kept.ite (fun _ => ?_) (fun _ => ?_)
    | (extract_lets +onlyGivenNames x; refine ((fun hx => ?_) : Kept κ x → _) ?_; on_goal 1 => clear_value x; on_goal 2 => first | with_reducible refine Kept.ite (fun _ => ?_) (fun _ => ?_) | (unfold x; split) | skip)
    | extract_lets +onlyGivenNames x
    | with_reducible refine updateTimeq_inv ?_
    | with_reducible refine raise_inv ?_
    | with_reducible refine setF_inv ?_
    | fail_if_no_progress (with_reducible refine Kept.upd ?_ rfl rfl rfl)
    ))

theorem timePtpCfgWrite_inv {v : Payload} {s : State} (h : Kept κ s) : Kept κ (timePtpCfgWrite v s) := by
  unfold timePtpCfgWrite
  repeat (any_goals (first
    | with_reducible assumption
    | with_reducible refine Kept.ite (fun _ => ?_) (fun _ => ?_)
    | extract_lets +onlyGivenNames x
    | with_reducible refine setReg_inv ?_
    | with_reducible refine onPtp_inv ?_
    ))

theorem timeRateWrite_inv {m : Master} {v : Payload} {s : State} (h : Kept κ s) : Kept κ (timeRateWrite m v s) := by
  unfold timeRateWrite
  repeat (any_goals (first
    | with_reducible assumption
    | with_reducible refine Kept.ite (fun _ => ?_) (fun _ => ?_)
    | with_reducible refine raise_inv ?_
    | with_reducible refine setF_inv ?_
    ))

theorem timeRefCfgWrite_inv {v : Payload} {s : State} (h : Kept κ s) : Kept κ (timeRefCfgWrite v s) := by
  unfold timeRefCfgWrite
  repeat (any_goals (first
    | with_reducible assumption
    | extract_lets +onlyGivenNames x
    | with_reducible refine refSwitch_inv ?_
    | with_reducible refine setReg_inv ?_
    | fail_if_no_progress (with_reducible refine Kept.upd ?_ rfl rfl rfl)
    ))

theorem timeSlewWrite_inv {m : Master} {v : Payload} {s : State} (h : Kept κ s) : Kept κ (timeSlewWrite m v s) := by
  unfold timeSlewWrite
  repeat (any_goals (first
    | with_reducible assumption
    | with_reducible refine Kept.ite (fun _ => ?_) (fun _ => ?_)
    | extract_lets +onlyGivenNames x
    | with_reducible refine raise_inv ?_
    | fail_if_no_progress (with_reducible refine Kept.upd ?_ rfl rfl rfl)
    ))

theorem trgCfgWrite_inv {v : Payload} {s : State} (h : Kept κ s) : Kept κ (trgCfgWrite v s) := by
  unfold trgCfgWrite
  repeat (any_goals (first
    | with_reducible assumption
    | with_reducible refine plainWrite_inv ?_
    ))

theorem tsqPop_inv {v : Payload} {s : State} (h : Kept κ s) : Kept κ (tsqPop v s) := by
  unfold tsqPop
  repeat (any_goals (first
    | with_reducible assumption
    | with_reducible refine Kept.ite (fun _ => ?_) (fun _ => ?_)
    | extract_lets +onlyGivenNames x
    | fail_if_no_progress (with_reducible refine Kept.upd ?_ rfl rfl rfl)
    ))

theorem xoCfgWrite_inv {v : Payload} {s : State} (h : Kept κ s) : Kept κ (xoCfgWrite v s) := by
  unfold xoCfgWrite
  repeat (any_goals (first
    | with_reducible assumption
    | extract_lets +onlyGivenNames x
    | with_reducible refine plainWrite_inv ?_
    | with_reducible refine ledgerQueue_inv ?_
    | fail_if_no_progress (with_reducible refine Kept.upd ?_ rfl rfl rfl)
    ))

theorem regWrite_inv {m : Master} {r : Reg} {v : Payload} {s : State} (h : Kept κ s) : Kept κ (regWrite m r v s) := by
  cases r
  all_goals first
    | exact plainWrite_inv h
    | exact fabricQosWrite_inv h
    | exact sysResetWrite_inv h
    | exact sysPowerWrite_inv h
    | exact nudge_inv h
    | exact attnClr_inv h
    | exact estopWrite_inv h
    | exact ringWrite_inv (which := .base) h
    | exact ringWrite_inv (which := .cfg) h
    | exact ringWrite_inv (which := .idx) h
    | exact tableInval_inv h
    | exact detRange_inv h
    | exact memLayout_inv h
    | exact memAllot_inv h
    | exact timeRateWrite_inv h
    | exact timeSlewWrite_inv h
    | exact timeCtlWrite_inv h
    | exact timeRefCfgWrite_inv h
    | exact xoCfgWrite_inv h
    | exact timeTdcCtlWrite_inv h
    | exact timePtpCfgWrite_inv h
    | exact timeTsqCfgWrite_inv h
    | exact tsqPop_inv h
    | exact bellCfgWrite_inv h
    | exact laneBellCfgWrite_inv h
    | exact laneGroupCfgWrite_inv h
    | exact laneCfgWrite_inv h
    | exact reeveCtlWrite_inv h
    | exact dmaRegWrite_inv h
    | exact dmaCtlWrite_inv h
    | exact monCtlWrite_inv h

theorem offsetWrite_inv {m : Master} {o : ℕ} {v : Payload} {s : State} (h : Kept κ s) : Kept κ (offsetWrite m o v s) := by
  unfold offsetWrite
  repeat (any_goals (first
    | with_reducible assumption
    | with_reducible refine regWrite_inv ?_
    | split
    ))

theorem splitHigh_inv {o : ℕ} {v : BitVec 32} {s : State} (h : Kept κ s) : Kept κ (splitHigh o v s) := by
  unfold splitHigh
  repeat (any_goals (first
    | with_reducible assumption
    | with_reducible refine Kept.ite (fun _ => ?_) (fun _ => ?_)
    | extract_lets +onlyGivenNames x
    | with_reducible refine offsetWrite_inv ?_
    | with_reducible refine raise_inv ?_
    | with_reducible refine dropLatch_inv ?_
    | split
    | fail_if_no_progress (with_reducible refine Kept.upd ?_ rfl rfl rfl)
    ))

theorem clearChannel_inv {p : Fin 8} {chan : Nat} {s : State} (h : Kept κ s) : Kept κ (clearChannel p chan s) := by
  refine setChan_inv (h.of ?_ ?_ ?_ ?_ ?_ (fun x => storeWf_filter _ x) ?_ ?_ ?_ ?_ ?_ ?_ ?_ ?_ ?_) <;> first | exact id | rfl

theorem addBatch_inv {p : Fin 8} {cp : Copy} {b : Batch} {s : State} (h : Kept κ s) : Kept κ (addBatch p cp b s) := by
  unfold addBatch
  repeat (any_goals (first
    | with_reducible assumption
    | with_reducible refine Kept.ite (fun _ => ?_) (fun _ => ?_)
    | extract_lets +onlyGivenNames x
    | with_reducible refine Kept.foldl (fun _ _ _ => ?_) ?_
    | with_reducible refine dumpChannel_inv ?_
    | with_reducible refine setPart_inv ?_
    | with_reducible refine clearChannel_inv ?_
    | with_reducible refine granarySet_inv ?_
    | with_reducible refine setChan_inv ?_
    ))

theorem reopenStopped_inv {p : Fin 8} {s : State} (h : Kept κ s) : Kept κ (reopenStopped p s) := by
  unfold reopenStopped
  repeat (any_goals (first
    | with_reducible assumption
    | with_reducible refine Kept.ite (fun _ => ?_) (fun _ => ?_)
    | (extract_lets +onlyGivenNames x; refine ((fun hx => ?_) : Kept κ x → _) ?_; on_goal 1 => clear_value x; on_goal 2 => first | with_reducible refine Kept.ite (fun _ => ?_) (fun _ => ?_) | (unfold x; split) | skip)
    | extract_lets +onlyGivenNames x
    | with_reducible refine setReg_inv ?_
    | with_reducible refine setFence_inv ?_
    ))

theorem settleTables_inv {p : Fin 8} {s : State} (h : Kept κ s) : Kept κ (settleTables p s) := by
  unfold settleTables
  repeat (any_goals (first
    | with_reducible assumption
    | extract_lets +onlyGivenNames x
    | with_reducible refine Kept.foldl (fun _ _ _ => ?_) ?_
    | with_reducible refine tabSet_inv ?_
    | fail_if_no_progress (with_reducible refine Kept.upd ?_ rfl rfl rfl)
    ))

theorem sweepChannel_inv {p : Fin 8} {chan : ℕ} {s : State} (h : Kept κ s) : Kept κ (sweepChannel p chan s) := by
  unfold sweepChannel
  repeat (any_goals (first
    | with_reducible assumption
    | extract_lets +onlyGivenNames x
    | with_reducible refine clearChannel_inv ?_
    | with_reducible refine raise_inv ?_
    | with_reducible refine dumpChannel_inv ?_
    | with_reducible refine bump_inv ?_
    | split
    ))

theorem stopSweep_inv {p : Fin 8} {s : State} (h : Kept κ s) : Kept κ (stopSweep p s) := by
  unfold stopSweep
  repeat (any_goals (first
    | with_reducible assumption
    | with_reducible refine Kept.ite (fun _ => ?_) (fun _ => ?_)
    | (extract_lets +onlyGivenNames x; refine ((fun hx => ?_) : Kept κ x → _) ?_; on_goal 1 => clear_value x; on_goal 2 => first | with_reducible refine Kept.ite (fun _ => ?_) (fun _ => ?_) | (unfold x; split) | skip)
    | extract_lets +onlyGivenNames x
    | with_reducible refine Kept.foldl (fun _ _ _ => ?_) ?_
    | with_reducible refine setPart_inv ?_
    | with_reducible refine sweepChannel_inv ?_
    | with_reducible refine reopenStopped_inv ?_
    | with_reducible refine settleTables_inv ?_
    ))

theorem harvestBatch_inv {p : Fin 8} {ord : ℕ} {issueBuffer : ℕ} {s : State} (h : Kept κ s) : Kept κ (harvestBatch p ord issueBuffer s) := by
  unfold harvestBatch
  repeat (any_goals (first
    | with_reducible assumption
    | with_reducible refine Kept.ite (fun _ => ?_) (fun _ => ?_)
    | extract_lets +onlyGivenNames x
    | with_reducible refine addBatch_inv ?_
    | with_reducible refine raise_inv ?_
    | with_reducible refine reach_inv ?_
    | with_reducible refine setPart_inv ?_
    | with_reducible refine stopSweep_inv ?_
    | with_reducible refine withholdBatch_inv ?_
    | split
    ))

theorem pinFire_inv {p : Fin 8} {q : ℤ} {s : State} (h : Kept κ s) : Kept κ (pinFire p q s) := by
  unfold pinFire
  repeat (any_goals (first
    | with_reducible assumption
    | with_reducible refine Kept.ite (fun _ => ?_) (fun _ => ?_)
    | extract_lets +onlyGivenNames x
    | with_reducible refine localFire_inv ?_
    | with_reducible refine raise_inv ?_
    | split
    ))

theorem romDone_inv {hottest : ℤ} {monEn : Bool} {s : State} (h : Kept κ s) : Kept κ (romDone hottest monEn s) := by
  unfold romDone
  repeat (any_goals (first
    | with_reducible assumption
    | with_reducible refine Kept.ite (fun _ => ?_) (fun _ => ?_)
    | extract_lets +onlyGivenNames x
    | with_reducible refine raise_inv ?_
    | with_reducible refine setStage_inv ?_
    | fail_if_no_progress (with_reducible refine Kept.upd ?_ rfl rfl rfl)
    ))

theorem monPerform_inv {c : MonCmd} {s : State} (h : Kept κ s) : Kept κ (monPerform c s) := by
  unfold monPerform
  split
  · exact say_inv (offsetWrite_inv h)
  · exact Kept.upd (say_inv h) rfl rfl rfl
  · exact Kept.upd (endSession_inv (raise_inv (say_inv (h.blow ⟨le_rfl, fun _ => rfl, rfl⟩ h.inv.svn)))) rfl rfl rfl

theorem auditCommitted_inv {n : ℕ} {s : State} (h : Kept κ s) : Kept κ (auditCommitted n s) := by
  unfold auditCommitted
  repeat (any_goals (first
    | with_reducible assumption
    | extract_lets +onlyGivenNames x
    | with_reducible refine monPerform_inv ?_
    | split
    | fail_if_no_progress (with_reducible refine Kept.upd ?_ rfl rfl rfl)
    ))

theorem windowExpire_inv {p : Fin 8} {ord : ℕ} {s : State} (h : Kept κ s) : Kept κ (windowExpire p ord s) := by
  unfold windowExpire
  repeat (any_goals (first
    | with_reducible assumption
    | with_reducible refine Kept.ite (fun _ => ?_) (fun _ => ?_)
    | extract_lets +onlyGivenNames x
    | with_reducible refine setPart_inv ?_
    | split
    ))

theorem ppsOutPulse_inv {x : RawStamp} {s : State} (h : Kept κ s) : Kept κ (ppsOutPulse x s) := by
  unfold ppsOutPulse
  repeat (any_goals (first
    | with_reducible assumption
    | with_reducible refine Kept.ite (fun _ => ?_) (fun _ => ?_)
    | extract_lets +onlyGivenNames x
    | with_reducible refine tdcEdge_inv ?_
    | with_reducible refine emit_inv ?_
    | with_reducible refine freeNat_inv ?_
    | fail_if_no_progress (with_reducible refine Kept.upd ?_ rfl rfl rfl)
    ))

theorem runXfer_inv {c : ℕ} {kind : ℕ} {checks : Xfer → Fin 8 → State → List Check} {effect : Xfer → Fin 8 → State → State} {s : State} (heffect : ∀ y0 y1 s, Kept κ s → Kept κ (effect y0 y1 s)) (h : Kept κ s) : Kept κ (runXfer c kind checks effect s) := by
  unfold runXfer
  repeat (any_goals (first
    | with_reducible assumption
    | with_reducible refine Kept.ite (fun _ => ?_) (fun _ => ?_)
    | extract_lets +onlyGivenNames x
    | with_reducible apply heffect
    | with_reducible refine xferResult_inv ?_
    | split
    ))

theorem ringRead_inv {c : ℕ} {t : Xfer} {s : State} (h : Kept κ s) : Kept κ (ringRead c t s) := by
  unfold ringRead
  repeat (any_goals (first
    | with_reducible assumption
    | extract_lets +onlyGivenNames x
    | with_reducible refine Kept.foldl (fun _ _ _ => ?_) ?_
    | with_reducible refine onCore_inv (fun _ hx => ?_) ?_
    | with_reducible refine xferResult_inv ?_
    | with_reducible refine setSysRing_inv ?_
    | dsimp +zetaDelta only
    | exact Core.putHalfwords_shaped hx
    ))

theorem xferCopy_inv {c : ℕ} {t : Xfer} {p : Fin 8} {k : ℕ} {s : State} (h : Kept κ s) : Kept κ (xferCopy c t p k s) := by
  unfold xferCopy
  repeat (any_goals (first
    | with_reducible assumption
    | extract_lets +onlyGivenNames x
    | with_reducible refine Kept.foldl (fun _ _ _ => ?_) ?_
    | with_reducible refine onCore_inv (fun _ hx => ?_) ?_
    | fail_if_no_progress (with_reducible refine Kept.upd ?_ rfl rfl rfl)
    | dsimp +zetaDelta only
    | exact Core.putContainer_shaped hx
    | exact Core.putHalfwords_shaped hx
    ))

theorem xferRead_inv {c : ℕ} {t : Xfer} {p : Fin 8} {s : State} (h : Kept κ s) : Kept κ (xferRead c t p s) := by
  unfold xferRead
  repeat (any_goals (first
    | with_reducible assumption
    | with_reducible refine Kept.ite (fun _ => ?_) (fun _ => ?_)
    | with_reducible refine ringRead_inv ?_
    | with_reducible refine xferResult_inv ?_
    | with_reducible refine emit_inv ?_
    | with_reducible refine xferCopy_inv ?_
    | split
    ))

theorem writeEntry.tableThrStale_inv {i : ℕ} {s : State} (h : Kept κ s) : Kept κ (writeEntry.tableThrStale i s) := by
  unfold writeEntry.tableThrStale
  repeat (any_goals (first
    | with_reducible assumption
    | extract_lets +onlyGivenNames x
    | with_reducible refine Kept.foldl (fun _ _ _ => ?_) ?_
    | with_reducible refine onPart_inv ?_
    ))

theorem writeEntry_inv {t : ℕ} {bank : ℕ} {i : ℕ} {e : ℕ} {p : Fin 8} {eff : ℕ} {s : State} (h : Kept κ s) : Kept κ (writeEntry t bank i e p eff s) := by
  unfold writeEntry
  repeat (any_goals (first
    | with_reducible assumption
    | with_reducible refine Kept.ite (fun _ => ?_) (fun _ => ?_)
    | extract_lets +onlyGivenNames x
    | with_reducible refine writeEntry.tableThrStale_inv ?_
    | with_reducible refine tabSet_inv ?_
    | with_reducible refine portWrite_inv ?_
    | fail_if_no_progress (with_reducible refine Kept.upd ?_ rfl rfl rfl)
    ))

theorem writeEntries_inv {t : ℕ} {bank : ℕ} {p : Fin 8} {eff : ℕ} {a4 : ℕ} {a5 : List ℕ} {a6 : ℕ} {a7 : State} (h : Kept κ a7) : Kept κ (writeEntries t bank p eff a4 a5 a6 a7).2.2 := by
  revert h; fun_induction writeEntries t bank p eff a4 a5 a6 a7 <;> intro h
  repeat (any_goals (first
    | with_reducible assumption
    | (with_reducible apply_assumption)
    | with_reducible refine writeEntry_inv ?_
    ))

theorem tableWrite_inv {d : Desc} {s : State} (h : Kept κ s) : Kept κ (tableWrite d s) := by
  unfold tableWrite
  repeat (any_goals (first
    | with_reducible assumption
    | with_reducible refine Kept.ite (fun _ => ?_) (fun _ => ?_)
    | extract_lets +onlyGivenNames x
    | with_reducible refine writeEntries_inv ?_
    | with_reducible refine complete_inv ?_
    | split
    ))

theorem chal_inv {s : State} (h : Kept κ s) : Kept κ (chal s) := by
  unfold chal
  repeat (any_goals (first
    | with_reducible assumption
    | with_reducible refine Kept.ite (fun _ => ?_) (fun _ => ?_)
    | extract_lets +onlyGivenNames x
    | with_reducible refine say_inv ?_
    | with_reducible refine freeNat_inv ?_
    | fail_if_no_progress (with_reducible refine Kept.upd ?_ rfl rfl rfl)
    ))

theorem ethLanes_inv {g : ℕ} {st : ℕ} {s : State} (h : Kept κ s) : Kept κ (ethLanes g st s) := by
  unfold ethLanes
  repeat (any_goals (first
    | with_reducible assumption
    | with_reducible refine Kept.ite (fun _ => ?_) (fun _ => ?_)
    | with_reducible refine Kept.foldl (fun _ _ _ => ?_) ?_
    | with_reducible refine setF_inv ?_
    ))

theorem ethLinkLoss_inv {g : ℕ} {s : State} (h : Kept κ s) : Kept κ (ethLinkLoss g s) := by
  unfold ethLinkLoss
  repeat (any_goals (first
    | with_reducible assumption
    | with_reducible refine Kept.ite (fun _ => ?_) (fun _ => ?_)
    | (extract_lets +onlyGivenNames x; refine ((fun hx => ?_) : Kept κ x → _) ?_; on_goal 1 => clear_value x; on_goal 2 => first | with_reducible refine Kept.ite (fun _ => ?_) (fun _ => ?_) | (unfold x; split) | skip)
    | extract_lets +onlyGivenNames x
    | with_reducible refine Kept.foldl (fun _ _ _ => ?_) ?_
    | with_reducible refine ethLanes_inv ?_
    | with_reducible refine bump_inv ?_
    | with_reducible refine onPort_inv ?_
    | with_reducible refine advertise_inv ?_
    | with_reducible refine raise_inv ?_
    ))

theorem fecCount_inv {g : ℕ} {corr : ℕ} {uncorr : ℕ} {s : State} (h : Kept κ s) : Kept κ (fecCount g corr uncorr s) := by
  unfold fecCount
  repeat (any_goals (first
    | with_reducible assumption
    | with_reducible refine Kept.ite (fun _ => ?_) (fun _ => ?_)
    | extract_lets +onlyGivenNames x
    | with_reducible refine raise_inv ?_
    | with_reducible refine bump_inv ?_
    | with_reducible refine ethLinkLoss_inv ?_
    | with_reducible refine onPort_inv ?_
    ))

theorem dmaResume_inv {s : State} (h : Kept κ s) : Kept κ (dmaResume s) := by
  unfold dmaResume
  repeat (any_goals (first
    | with_reducible assumption
    | extract_lets +onlyGivenNames x
    | with_reducible refine Kept.foldl (fun _ _ _ => ?_) ?_
    | with_reducible refine dmaIssue_inv ?_
    | with_reducible refine dmaSettle_inv ?_
    ))

theorem masterDrained_inv {c : MasterClass} {s : State} (h : Kept κ s) : Kept κ (masterDrained c s) := by
  unfold masterDrained
  repeat (any_goals (first
    | with_reducible assumption
    | with_reducible refine Kept.ite (fun _ => ?_) (fun _ => ?_)
    | (extract_lets +onlyGivenNames x; refine ((fun hx => ?_) : Kept κ x → _) ?_; on_goal 1 => clear_value x; on_goal 2 => first | with_reducible refine Kept.ite (fun _ => ?_) (fun _ => ?_) | (unfold x; split) | skip)
    | extract_lets +onlyGivenNames x
    | with_reducible refine dmaResume_inv ?_
    | with_reducible refine raise_inv ?_
    | with_reducible refine freeCancelled_inv ?_
    | fail_if_no_progress (with_reducible refine Kept.upd ?_ rfl rfl rfl)
    ))

theorem loadStep_inv {s : State} (h : Kept κ s) : Kept κ (loadStep s) := by
  unfold loadStep
  repeat (any_goals (first
    | with_reducible assumption
    | with_reducible refine Kept.ite (fun _ => ?_) (fun _ => ?_)
    | extract_lets +onlyGivenNames x
    | with_reducible refine raise_inv ?_
    | with_reducible refine updateTimeq_inv ?_
    | with_reducible refine setLocalQ_inv ?_
    | with_reducible refine setF_inv ?_
    | fail_if_no_progress (with_reducible refine Kept.upd ?_ rfl rfl rfl)
    ))

theorem noteRun_inv {n : ℕ} {d : ℤ} {s : State} (h : Kept κ s) : Kept κ (noteRun n d s) := by
  unfold noteRun
  repeat (any_goals (first
    | with_reducible assumption
    | with_reducible refine Kept.ite (fun _ => ?_) (fun _ => ?_)
    | extract_lets +onlyGivenNames x
    | fail_if_no_progress (with_reducible refine Kept.upd ?_ rfl rfl rfl)
    ))

theorem timeTick_inv {s : State} (h : Kept κ s) : Kept κ (timeTick s) := by
  unfold timeTick
  repeat (any_goals (first
    | with_reducible assumption
    | with_reducible refine Kept.ite (fun _ => ?_) (fun _ => ?_)
    | (extract_lets +onlyGivenNames x; refine ((fun hx => ?_) : Kept κ x → _) ?_; on_goal 1 => clear_value x; on_goal 2 => first | with_reducible refine Kept.ite (fun _ => ?_) (fun _ => ?_) | (unfold x; split) | skip)
    | extract_lets +onlyGivenNames x
    | with_reducible refine updateTimeq_inv ?_
    | with_reducible refine setLocalQ_inv ?_
    | with_reducible refine noteRun_inv ?_
    | with_reducible refine loadStep_inv ?_
    | with_reducible refine Kept.pair (by with_reducible assumption) ?_
    | fail_if_no_progress (with_reducible refine Kept.upd ?_ rfl rfl rfl)
    ))

theorem idleStep_inv {s : State} (h : Kept κ s) : Kept κ (idleStep s) := by
  unfold idleStep
  repeat (any_goals (first
    | with_reducible assumption
    | with_reducible refine Kept.ite (fun _ => ?_) (fun _ => ?_)
    | extract_lets +onlyGivenNames x
    | with_reducible refine timeTick_inv ?_
    | fail_if_no_progress (with_reducible refine Kept.upd ?_ rfl rfl rfl)
    ))

theorem resetHif_inv {s : State} (h : Kept κ s) : Kept κ (resetHif s) := by
  refine h.of (fun x => storeSorted_filter _ x) ?_ ?_ ?_ ?_ ?_ ?_ ?_ ?_ ?_ ?_ ?_ ?_ ?_ ?_ <;> first | exact id | rfl

theorem applyCommit_inv {p : Fin 8} {s : State} (h : Kept κ s) : Kept κ (applyCommit p s) := by
  unfold applyCommit
  repeat (any_goals (first
    | with_reducible assumption
    | extract_lets +onlyGivenNames x
    | with_reducible refine raise_inv ?_
    | with_reducible refine setPart_inv ?_
    | with_reducible refine setF_inv ?_
    | split
    ))

theorem unlockDone_inv {s : State} (h : Kept κ s) : Kept κ (unlockDone s) := by
  unfold unlockDone
  repeat (any_goals (first
    | with_reducible assumption
    | extract_lets +onlyGivenNames x
    | with_reducible refine raise_inv ?_
    | with_reducible refine say_inv ?_
    | with_reducible refine monStateRecord_inv ?_
    | with_reducible refine audit_inv ?_
    | fail_if_no_progress (with_reducible refine Kept.upd ?_ rfl rfl rfl)
    ))

theorem unlockFail_inv {s : State} (h : Kept κ s) : Kept κ (unlockFail s) := by
  unfold unlockFail
  repeat (any_goals (first
    | with_reducible assumption
    | extract_lets +onlyGivenNames x
    | with_reducible refine raise_inv ?_
    | with_reducible refine say_inv ?_
    | with_reducible refine monStateRecord_inv ?_
    | with_reducible refine audit_inv ?_
    | fail_if_no_progress (with_reducible refine Kept.upd ?_ rfl rfl rfl)
    ))

theorem unlk_inv {r : BitVec 32} {s : State} (h : Kept κ s) : Kept κ (unlk r s) := by
  unfold unlk
  repeat (any_goals (first
    | with_reducible assumption
    | with_reducible refine Kept.ite (fun _ => ?_) (fun _ => ?_)
    | extract_lets +onlyGivenNames x
    | with_reducible refine unlockFail_inv ?_
    | with_reducible refine say_inv ?_
    | with_reducible refine unlockDone_inv ?_
    | fail_if_no_progress (with_reducible refine Kept.upd ?_ rfl rfl rfl)
    ))

theorem powerPacket_inv {i : ChainInput} {beam : BeamCtl} {ratio : ℕ} {g : List (List ChainOut)} {s : State} (h : Kept κ s) : Kept κ (powerPacket i beam ratio g s) := by
  unfold powerPacket
  repeat (any_goals (first
    | with_reducible assumption
    | with_reducible refine Kept.ite (fun _ => ?_) (fun _ => ?_)
    | (extract_lets +onlyGivenNames x; refine ((fun hx => ?_) : Kept κ x → _) ?_; on_goal 1 => clear_value x; on_goal 2 => first | with_reducible refine Kept.ite (fun _ => ?_) (fun _ => ?_) | (unfold x; split) | skip)
    | extract_lets +onlyGivenNames x
    | with_reducible refine Kept.foldl (fun _ _ _ => ?_) ?_
    | with_reducible refine beamSaturated_inv ?_
    | with_reducible refine sendProduct_inv ?_
    | fail_if_no_progress (with_reducible refine Kept.upd ?_ rfl rfl rfl)
    ))

theorem voltagePause_inv {s : State} (h : Kept κ s) : Kept κ (voltagePause s) := by
  unfold voltagePause
  repeat (any_goals (first
    | with_reducible assumption
    | extract_lets +onlyGivenNames x
    | with_reducible refine Kept.foldl (fun _ _ _ => ?_) ?_
    | with_reducible refine suspectChan_inv ?_
    | with_reducible refine withholdBatch_inv ?_
    | fail_if_no_progress (with_reducible refine Kept.upd ?_ rfl rfl rfl)
    ))

theorem retrained_inv {pc : ℕ} {ok : Option Bool} {s : State} (h : Kept κ s) : Kept κ (retrained pc ok s) := by
  unfold retrained
  repeat (any_goals (first
    | with_reducible assumption
    | with_reducible refine Kept.ite (fun _ => ?_) (fun _ => ?_)
    | with_reducible refine failPc_inv ?_
    ))

theorem answer_inv {t : Txn} {r : Option (List Byte)} {s : State} (h : Kept κ s) : Kept κ (answer t r s) := by
  unfold answer
  repeat (any_goals (first
    | with_reducible assumption
    | with_reducible refine Kept.ite (fun _ => ?_) (fun _ => ?_)
    | extract_lets +onlyGivenNames x
    | with_reducible refine emit_inv ?_
    | split
    | fail_if_no_progress (with_reducible refine Kept.upd ?_ rfl rfl rfl)
    ))

theorem delayWindow_inv {o : ℕ} {n : ℕ} {v : ℕ} {s : State} (h : Kept κ s) : Kept κ (delayWindow o n v s) := by
  unfold delayWindow
  repeat (any_goals (first
    | with_reducible assumption
    | extract_lets +onlyGivenNames x
    | with_reducible refine portWrite_inv ?_
    ))

theorem mapWindow_inv {o : ℕ} {n : ℕ} {v : ℕ} {s : State} (h : Kept κ s) : Kept κ (mapWindow o n v s) := by
  unfold mapWindow
  repeat (any_goals (first
    | with_reducible assumption
    | extract_lets +onlyGivenNames x
    | with_reducible refine tabSet_inv ?_
    | with_reducible refine onPart_inv ?_
    ))

theorem barWrite_inv {m : Master} {bar4 : Bool} {o : ℕ} {n : ℕ} {v : ℕ} {s : State} (h : Kept κ s) : Kept κ (barWrite m bar4 o n v s) := by
  unfold barWrite
  exact Kept.ite (fun _ => Kept.ite (fun _ => delayWindow_inv h) (fun _ => Kept.ite
      (fun _ => h.sys fun m => ⟨storeWf_setList m.1, m.2⟩) (fun _ => h)))
    (fun _ => Kept.ite (fun _ => mapWindow_inv h) (fun _ => Kept.ite (fun _ => offsetWrite_inv h) (fun _ => h)))

theorem setCtlQueue_inv {pc : ℕ} {l : List CtlReq} {s : State} (h : Kept κ s) : Kept κ (setCtlQueue pc l s) := by
  unfold setCtlQueue
  repeat (any_goals (first
    | with_reducible assumption
    | extract_lets +onlyGivenNames x
    | fail_if_no_progress (with_reducible refine Kept.upd ?_ rfl rfl rfl)
    ))

theorem ctlEnqueue_inv {pc : ℕ} {a : ℕ} {len : ℕ} {write : Bool} {qos : ℕ} {s : State} (h : Kept κ s) : Kept κ (ctlEnqueue pc a len write qos s) := by
  unfold ctlEnqueue
  repeat (any_goals (first
    | with_reducible assumption
    | with_reducible refine setCtlQueue_inv ?_
    ))

theorem sysWrite_inv {pc : ℕ} {o : ℕ} {bs : List Byte} {s : State} (h : Kept κ s) : Kept κ (sysWrite pc o bs s) := by
  unfold sysWrite
  repeat (any_goals (first
    | with_reducible assumption
    | with_reducible refine Kept.ite (fun _ => ?_) (fun _ => ?_)
    | with_reducible refine dmaWrite_inv ?_
    | with_reducible refine dmaWrite_inv ?_ _ (by with_reducible assumption)
    | with_reducible refine Kept.getD ?_ ?_
    ))

theorem performHbm_inv {k : ℕ} {t : Txn} {s : State} (h : Kept κ s) : Kept κ (performHbm k t s) := by
  unfold performHbm
  repeat (any_goals (first
    | with_reducible assumption
    | with_reducible refine Kept.ite (fun _ => ?_) (fun _ => ?_)
    | (extract_lets +onlyGivenNames x; refine ((fun hx => ?_) : Kept κ x → _) ?_; on_goal 1 => clear_value x; on_goal 2 => first | with_reducible refine Kept.ite (fun _ => ?_) (fun _ => ?_) | (unfold x; split) | skip)
    | extract_lets +onlyGivenNames x
    | with_reducible refine answer_inv ?_
    | with_reducible refine sysWrite_inv ?_
    | with_reducible refine ctlEnqueue_inv ?_
    | split
    ))

theorem perform_inv {target : FabTarget} {t : Txn} {s : State} (h : Kept κ s) : Kept κ (perform target t s) := by
  unfold perform
  repeat (any_goals (first
    | with_reducible assumption
    | with_reducible refine Kept.ite (fun _ => ?_) (fun _ => ?_)
    | extract_lets +onlyGivenNames x
    | with_reducible refine dmaWrite_inv ?_
    | with_reducible refine dmaWrite_inv ?_ _ (by with_reducible assumption)
    | with_reducible refine answer_inv ?_
    | with_reducible refine barWrite_inv ?_
    | with_reducible refine hostWrite_inv ?_
    | with_reducible refine performHbm_inv ?_
    | with_reducible refine barRead_inv ?_
    | with_reducible refine Kept.getD ?_ ?_
    | split
    | fail_if_no_progress (with_reducible refine Kept.upd ?_ rfl rfl rfl)
    | refine Kept.sys ?_ (fun m => ⟨m.1, storeWf_setList m.2.1, m.2.2⟩)
    ))

theorem ethLinkUp_inv {g : ℕ} {rsFec : Bool} {s : State} (h : Kept κ s) : Kept κ (ethLinkUp g rsFec s) := by
  unfold ethLinkUp
  repeat (any_goals (first
    | with_reducible assumption
    | with_reducible refine Kept.ite (fun _ => ?_) (fun _ => ?_)
    | (extract_lets +onlyGivenNames x; refine ((fun hx => ?_) : Kept κ x → _) ?_; on_goal 1 => clear_value x; on_goal 2 => first | with_reducible refine Kept.ite (fun _ => ?_) (fun _ => ?_) | (unfold x; split) | skip)
    | extract_lets +onlyGivenNames x
    | with_reducible refine ethLanes_inv ?_
    | with_reducible refine onPort_inv ?_
    | with_reducible refine raise_inv ?_
    | with_reducible refine Kept.pair (by with_reducible assumption) ?_
    | fail_if_no_progress (with_reducible refine Kept.upd ?_ rfl rfl rfl)
    ))

theorem commitBank_inv {p : Fin 8} {sc : ℕ} {ref : ℕ} {s : State} (h : Kept κ s) : Kept κ (commitBank p sc ref s).2 := by
  unfold commitBank
  repeat (any_goals (first
    | with_reducible assumption
    | extract_lets +onlyGivenNames x
    | with_reducible refine onPart_inv ?_
    | with_reducible refine setF_inv ?_
    ))

theorem porAssert_inv {s : State} (h : Kept κ s) : Kept κ (porAssert s) := by
  unfold porAssert
  repeat (any_goals (first
    | with_reducible assumption
    | extract_lets +onlyGivenNames x
    | with_reducible refine resetDevice_inv ?_
    | fail_if_no_progress (with_reducible refine Kept.upd ?_ rfl rfl rfl)
    ))

theorem caParityError_inv {pc : ℕ} {failed : Bool} {s : State} (h : Kept κ s) : Kept κ (caParityError pc failed s) := by
  unfold caParityError
  repeat (any_goals (first
    | with_reducible assumption
    | with_reducible refine Kept.ite (fun _ => ?_) (fun _ => ?_)
    | extract_lets +onlyGivenNames x
    | with_reducible refine raise_inv ?_
    | with_reducible refine failPc_inv ?_
    | fail_if_no_progress (with_reducible refine Kept.upd ?_ rfl rfl rfl)
    ))

theorem eccOf_inv {bad : List (Fin 36)} {s : State} (h : Kept κ s) : Kept κ (eccOf bad s).2 := by
  unfold eccOf
  repeat (any_goals (first
    | with_reducible assumption
    | extract_lets +onlyGivenNames x
    | with_reducible refine freeNat_inv ?_
    | split
    ))

theorem uncorrectableError_inv {pc : ℕ} {addr : ℕ} {t : HbmTarget} {s : State} (h : Kept κ s) : Kept κ (uncorrectableError pc addr t s) := by
  unfold uncorrectableError
  repeat (any_goals (first
    | with_reducible assumption
    | with_reducible refine Kept.ite (fun _ => ?_) (fun _ => ?_)
    | extract_lets +onlyGivenNames x
    | with_reducible refine raise_inv ?_
    | with_reducible refine bump_inv ?_
    | with_reducible refine failPc_inv ?_
    | fail_if_no_progress (with_reducible refine Kept.upd ?_ rfl rfl rfl)
    ))

theorem burstRead_inv {pc : ℕ} {addr : ℕ} {e : HbmError} {t : HbmTarget} {s : State} (h : Kept κ s) : Kept κ (burstRead pc addr e t s).2 := by
  unfold burstRead
  repeat (any_goals (first
    | with_reducible assumption
    | with_reducible refine Kept.ite (fun _ => ?_) (fun _ => ?_)
    | extract_lets +onlyGivenNames x
    | with_reducible refine uncorrectableError_inv ?_
    | with_reducible refine correctedError_inv ?_
    | with_reducible refine eccOf_inv ?_
    | with_reducible refine caParityError_inv ?_
    | split
    | with_reducible refine Kept.pair (by with_reducible assumption) ?_
    ))

theorem onCribGran_inv {c : ℕ} {g : ℕ} {f : Gran → Gran} {s : State} (h : Kept κ s) : Kept κ (onCribGran c g f s) := by
  unfold onCribGran
  repeat (any_goals (first
    | with_reducible assumption
    | extract_lets +onlyGivenNames x
    | with_reducible refine setCrib_inv ?_
    | split
    ))

theorem poisonRecord_inv {p : Fin 8} {chan : ℕ} {v : ℕ} {s : State} (h : Kept κ s) : Kept κ (poisonRecord p chan v s) := by
  unfold poisonRecord
  repeat (any_goals (first
    | with_reducible assumption
    | extract_lets +onlyGivenNames x
    | with_reducible refine granarySet_inv ?_
    | split
    ))

theorem setDelayPoison_inv {i : ℕ} {on : Bool} {s : State} (h : Kept κ s) : Kept κ (setDelayPoison i on s) := by
  unfold setDelayPoison
  repeat (any_goals (first
    | with_reducible assumption
    | with_reducible refine Kept.ite (fun _ => ?_) (fun _ => ?_)
    | with_reducible refine tabSet_inv ?_
    ))

theorem poisonReact_inv {pc : ℕ} {addr : ℕ} {t : HbmTarget} {s : State} (h : Kept κ s) : Kept κ (poisonReact pc addr t s) := by
  unfold poisonReact
  repeat (any_goals (first
    | with_reducible assumption
    | extract_lets +onlyGivenNames x
    | with_reducible refine Kept.foldl (fun _ _ _ => ?_) ?_
    | with_reducible refine emit_inv ?_
    | with_reducible refine setDelayPoison_inv ?_
    | with_reducible refine setWithheld_inv ?_
    | with_reducible refine onCribGran_inv ?_
    | with_reducible refine onPart_inv ?_
    | with_reducible refine poisonRecord_inv ?_
    | with_reducible refine setSysRing_inv ?_
    | split
    | fail_if_no_progress (with_reducible refine Kept.upd ?_ rfl rfl rfl)
    ))

theorem readError_inv {pc : ℕ} {addr : ℕ} {e : HbmError} {t : HbmTarget} {s : State} (h : Kept κ s) : Kept κ (readError pc addr e t s) := by
  unfold readError
  repeat (any_goals (first
    | with_reducible assumption
    | extract_lets +onlyGivenNames x
    | with_reducible refine poisonReact_inv ?_
    | with_reducible refine burstRead_inv ?_
    | split
    | with_reducible refine Kept.pair (by with_reducible assumption) ?_
    ))

theorem ptpDecide_inv {s : State} (h : Kept κ s) : Kept κ (ptpDecide s) := by
  unfold ptpDecide
  repeat (any_goals (first
    | with_reducible assumption
    | with_reducible refine Kept.ite (fun _ => ?_) (fun _ => ?_)
    | extract_lets +onlyGivenNames x
    | with_reducible refine onPtp_inv ?_
    | split
    ))

theorem ptpAnnounce_inv {m : List Byte} {s : State} (h : Kept κ s) : Kept κ (ptpAnnounce m s) := by
  unfold ptpAnnounce
  repeat (any_goals (first
    | with_reducible assumption
    | extract_lets +onlyGivenNames x
    | with_reducible refine onPtp_inv ?_
    | with_reducible refine ptpDecide_inv ?_
    ))

theorem stwLoad_inv {wordsRead : ℕ} {d : Desc} {s : State} (h : Kept κ s) : Kept κ (stwLoad wordsRead d s) := by
  unfold stwLoad
  repeat (any_goals (first
    | with_reducible assumption
    | extract_lets +onlyGivenNames x
    | with_reducible refine Kept.foldl (fun _ _ _ => ?_) ?_
    | with_reducible refine onCore_inv (fun _ hx => ?_) ?_
    | with_reducible refine complete_inv ?_
    | dsimp +zetaDelta only
    | exact Core.loadWord_shaped hx
    ))

theorem replayTimeout_inv {g : ℕ} {l : ℕ} {s : State} (h : Kept κ s) : Kept κ (replayTimeout g l s) := by
  unfold replayTimeout
  repeat (any_goals (first
    | with_reducible assumption
    | with_reducible refine Kept.ite (fun _ => ?_) (fun _ => ?_)
    | extract_lets +onlyGivenNames x
    | with_reducible refine Kept.foldl (fun _ _ _ => ?_) ?_
    | with_reducible refine retrainLane_inv ?_
    | with_reducible refine bump_inv ?_
    | with_reducible refine sendLink_inv ?_
    | with_reducible refine onLane_inv ?_
    ))

theorem burstWritten_inv {pc : ℕ} {addr : ℕ} {e : HbmError} {s : State} (h : Kept κ s) : Kept κ (burstWritten pc addr e s) := by
  unfold burstWritten
  repeat (any_goals (first
    | with_reducible assumption
    | with_reducible refine Kept.ite (fun _ => ?_) (fun _ => ?_)
    | (extract_lets +onlyGivenNames x; refine ((fun hx => ?_) : Kept κ x → _) ?_; on_goal 1 => clear_value x; on_goal 2 => first | with_reducible refine Kept.ite (fun _ => ?_) (fun _ => ?_) | (unfold x; split) | skip)
    | extract_lets +onlyGivenNames x
    | with_reducible refine Kept.foldl (fun _ _ _ => ?_) ?_
    | with_reducible refine caParityError_inv ?_
    | with_reducible refine setDelayPoison_inv ?_
    | split
    | fail_if_no_progress (with_reducible refine Kept.upd ?_ rfl rfl rfl)
    ))

theorem reeveRestarted_inv {s : State} (h : Kept κ s) : Kept κ (reeveRestarted s) := by
  unfold reeveRestarted
  repeat (any_goals (first
    | with_reducible assumption
    | with_reducible refine Kept.ite (fun _ => ?_) (fun _ => ?_)
    | extract_lets +onlyGivenNames x
    | with_reducible refine completeWaiting_inv ?_
    | with_reducible refine raise_inv ?_
    | with_reducible refine setReg_inv ?_
    | fail_if_no_progress (with_reducible refine Kept.upd ?_ rfl rfl rfl)
    ))

theorem abortDescs_inv {s : State} (h : Kept κ s) : Kept κ (abortDescs s) := by
  unfold abortDescs
  repeat (any_goals (first
    | with_reducible assumption
    | extract_lets +onlyGivenNames x
    | with_reducible refine Kept.foldl (fun _ _ _ => ?_) ?_
    | with_reducible refine setTagRec_inv ?_
    | with_reducible refine releaseCpl_inv ?_
    | with_reducible refine dropDesc_inv ?_
    | fail_if_no_progress (with_reducible refine Kept.upd ?_ rfl rfl rfl)
    ))

theorem disableRings_inv {s : State} (h : Kept κ s) : Kept κ (disableRings s) := by
  unfold disableRings
  repeat (any_goals (first
    | with_reducible assumption
    | extract_lets +onlyGivenNames x
    | with_reducible refine Kept.foldl (fun _ _ _ => ?_) ?_
    | with_reducible refine setRingCtx_inv ?_
    | with_reducible refine setF_inv ?_
    ))

theorem linkEvent_inv {stays : Bool} {s : State} (h : Kept κ s) : Kept κ (linkEvent stays s) := by
  unfold linkEvent
  repeat (any_goals (first
    | with_reducible assumption
    | extract_lets +onlyGivenNames x
    | with_reducible refine raise_inv ?_
    | with_reducible refine masterReset_inv ?_
    | with_reducible refine dropLatch_inv ?_
    | with_reducible refine disableRings_inv ?_
    | with_reducible refine abortDescs_inv ?_
    | fail_if_no_progress (with_reducible refine Kept.upd ?_ rfl rfl rfl)
    ))

theorem ppsInEdge_inv {x : RawStamp} {s : State} (h : Kept κ s) : Kept κ (ppsInEdge x s) := by
  unfold ppsInEdge
  repeat (any_goals (first
    | with_reducible assumption
    | with_reducible refine Kept.ite (fun _ => ?_) (fun _ => ?_)
    | extract_lets +onlyGivenNames x
    | with_reducible refine servoUpdate_inv ?_
    | with_reducible refine tdcEdge_inv ?_
    | with_reducible refine loadStep_inv ?_
    | fail_if_no_progress (with_reducible refine Kept.upd ?_ rfl rfl rfl)
    ))

theorem extendDeadline_inv {p : Fin 8} {epoch : ℕ} {ord : ℕ} {cycles : ℕ} {s : State} (h : Kept κ s) : Kept κ (extendDeadline p epoch ord cycles s) := by
  unfold extendDeadline
  repeat (any_goals (first
    | with_reducible assumption
    | extract_lets +onlyGivenNames x
    | with_reducible refine onPart_inv ?_
    ))

theorem maybeCompact_inv {s : State} (h : Kept κ s) : Kept κ (maybeCompact s) := by
  unfold maybeCompact
  repeat (any_goals (first
    | with_reducible assumption
    | with_reducible refine Kept.ite (fun _ => ?_) (fun _ => ?_)
    | extract_lets +onlyGivenNames x
    | fail_if_no_progress (with_reducible refine Kept.upd ?_ rfl rfl rfl)
    ))

theorem appendRecord_inv {r : LedRec} {s : State} (h : Kept κ s) : Kept κ (appendRecord r s) := by
  unfold appendRecord
  repeat (any_goals (first
    | with_reducible assumption
    | with_reducible refine Kept.ite (fun _ => ?_) (fun _ => ?_)
    | extract_lets +onlyGivenNames x
    | with_reducible refine maybeCompact_inv ?_
    | with_reducible refine onBank_inv ?_
    | fail_if_no_progress (with_reducible refine Kept.upd ?_ rfl rfl rfl)
    ))

theorem bankErased_inv {b : ℕ} {s : State} (h : Kept κ s) : Kept κ (bankErased b s) := by
  unfold bankErased
  repeat (any_goals (first
    | with_reducible assumption
    | with_reducible refine Kept.ite (fun _ => ?_) (fun _ => ?_)
    | extract_lets +onlyGivenNames x
    | with_reducible refine raise_inv ?_
    | with_reducible refine onBank_inv ?_
    | fail_if_no_progress (with_reducible refine Kept.upd ?_ rfl rfl rfl)
    ))

theorem setSlot_inv {n : ℕ} {x : ImgSlot} {s : State} (h : Kept κ s) : Kept κ (setSlot n x s) := by
  unfold setSlot
  repeat (any_goals (first
    | with_reducible assumption
    | extract_lets +onlyGivenNames x
    | fail_if_no_progress (with_reducible refine Kept.upd ?_ rfl rfl rfl)
    ))

theorem putPage_inv {n : ℕ} {index : ℕ} {bytes : List Byte} {s : State} (h : Kept κ s) : Kept κ (putPage n index bytes s) := by
  unfold putPage
  repeat (any_goals (first
    | with_reducible assumption
    | extract_lets +onlyGivenNames x
    | with_reducible refine setSlot_inv ?_
    ))

theorem slotCommit_inv {n : ℕ} {s : State} (h : Kept κ s) : Kept κ (slotCommit n s).2 := by
  unfold slotCommit
  repeat (any_goals (first
    | with_reducible assumption
    | extract_lets +onlyGivenNames x
    | with_reducible refine setSlot_inv ?_
    | with_reducible refine raise_inv ?_
    | with_reducible refine fwComplete_inv ?_
    | split
    ))

theorem opDone_inv {o : LedOp} {s : State} (h : Kept κ s) : Kept κ (opDone o s) := by
  unfold opDone
  repeat (any_goals (first
    | with_reducible assumption
    | extract_lets +onlyGivenNames x
    | with_reducible refine setSlot_inv ?_
    | with_reducible refine auditCommitted_inv ?_
    | with_reducible refine onBank_inv ?_
    | with_reducible refine bankErased_inv ?_
    | with_reducible refine putPage_inv ?_
    | with_reducible refine appendRecord_inv ?_
    | with_reducible refine slotCommit_inv ?_
    | split
    | fail_if_no_progress (with_reducible refine Kept.upd ?_ rfl rfl rfl)
    ))

theorem unresolved_inv {q : ℕ} {r : Rerun} {tiles : List ℕ} {s : State} (h : Kept κ s) : Kept κ (unresolved q r tiles s) := by
  unfold unresolved
  repeat (any_goals (first
    | with_reducible assumption
    | extract_lets +onlyGivenNames x
    | with_reducible refine raise_inv ?_
    | with_reducible refine withholdBatch_inv ?_
    | with_reducible refine onQuad_inv ?_
    ))

theorem regionDone_inv {p : Fin 8} {s : State} (h : Kept κ s) : Kept κ (regionDone p s) := by
  unfold regionDone
  repeat (any_goals (first
    | with_reducible assumption
    | with_reducible refine Kept.ite (fun _ => ?_) (fun _ => ?_)
    | extract_lets +onlyGivenNames x
    | with_reducible refine Kept.foldl (fun _ _ _ => ?_) ?_
    | with_reducible refine raise_inv ?_
    | with_reducible refine bump_inv ?_
    | with_reducible refine recoverLag_inv ?_
    | with_reducible refine onPart_inv ?_
    | split
    ))

theorem dmaWriteAck_inv {ch : ℕ} {writeOk : Bool} {s : State} (h : Kept κ s) : Kept κ (dmaWriteAck ch writeOk s) := by
  unfold dmaWriteAck
  repeat (any_goals (first
    | with_reducible assumption
    | split
    | extract_lets +onlyGivenNames x
    | with_reducible refine dmaSettle_inv ?_
    | with_reducible refine setDma_inv ?_
    | with_reducible refine takeReply_inv ?_))

theorem ledgerShutdown_inv {hot : Bool} {s : State} (h : Kept κ s) : Kept κ (ledgerShutdown hot s) := by
  unfold ledgerShutdown
  repeat (any_goals (first
    | with_reducible assumption
    | with_reducible refine Kept.ite (fun _ => ?_) (fun _ => ?_)
    | extract_lets +onlyGivenNames x
    | with_reducible refine opDone_inv ?_
    | split
    | fail_if_no_progress (with_reducible refine Kept.upd ?_ rfl rfl rfl)
    ))

theorem isolateFence_inv {s : State} (h : Kept κ s) : Kept κ (isolateFence s) := by
  unfold isolateFence
  repeat (any_goals (first
    | with_reducible assumption
    | with_reducible refine Kept.ite (fun _ => ?_) (fun _ => ?_)
    | with_reducible refine Kept.foldl (fun _ _ _ => ?_) ?_
    | with_reducible refine fencePart_inv ?_
    ))

theorem burstDone_inv {a : HbmBurst} {s : State} (h : Kept κ s) : Kept κ (burstDone a s) := by
  unfold burstDone
  repeat (any_goals (first
    | with_reducible assumption
    | with_reducible refine Kept.ite (fun _ => ?_) (fun _ => ?_)
    | (extract_lets +onlyGivenNames x; refine ((fun hx => ?_) : Kept κ x → _) ?_; on_goal 1 => clear_value x; on_goal 2 => first | with_reducible refine Kept.ite (fun _ => ?_) (fun _ => ?_) | (unfold x; split) | skip)
    | extract_lets +onlyGivenNames x
    | with_reducible refine burstWritten_inv ?_
    | with_reducible refine poisonReact_inv ?_
    | with_reducible refine readError_inv ?_
    | with_reducible refine raise_inv ?_
    | split
    | fail_if_no_progress (with_reducible refine Kept.upd ?_ rfl rfl rfl)
    | dsimp +zetaDelta only
    ))

theorem sramWord_inv {w : ℕ} {s : State} (h : Kept κ s) : Kept κ (sramWord w s) := by
  unfold sramWord
  repeat (any_goals (first
    | with_reducible assumption
    | with_reducible refine Kept.ite (fun _ => ?_) (fun _ => ?_)
    | extract_lets +onlyGivenNames x
    | with_reducible refine ledgerQueue_inv ?_
    | fail_if_no_progress (with_reducible refine Kept.upd ?_ rfl rfl rfl)
    ))

theorem sramError_inv {e : SramError} {s : State} (h : Kept κ s) : Kept κ (sramError e s) := by
  unfold sramError
  repeat (any_goals (first
    | with_reducible assumption
    | with_reducible refine Kept.ite (fun _ => ?_) (fun _ => ?_)
    | extract_lets +onlyGivenNames x
    | with_reducible refine raise_inv ?_
    | with_reducible refine sramWord_inv ?_
    | with_reducible refine bump_inv ?_
    | split
    | fail_if_no_progress (with_reducible refine Kept.upd ?_ rfl rfl rfl)
    ))

theorem noteRead_inv {p : Fin 8} {sub : ℕ} {t : ℕ} {s : State} (h : Kept κ s) : Kept κ (noteRead p sub t s) := by
  unfold noteRead
  repeat (any_goals (first
    | with_reducible assumption
    | with_reducible refine Kept.ite (fun _ => ?_) (fun _ => ?_)
    | extract_lets +onlyGivenNames x
    | fail_if_no_progress (with_reducible refine Kept.upd ?_ rfl rfl rfl)
    ))

theorem raiseOnce_inv {e : Event} {kind : ℕ} {p : Fin 8} {sub : ℕ} {beam : ℕ} {count : ℕ} {s : State} (h : Kept κ s) : Kept κ (raiseOnce e kind p sub beam count s) := by
  unfold raiseOnce
  repeat (any_goals (first
    | with_reducible assumption
    | with_reducible refine Kept.ite (fun _ => ?_) (fun _ => ?_)
    | extract_lets +onlyGivenNames x
    | with_reducible refine raise_inv ?_
    | fail_if_no_progress (with_reducible refine Kept.upd ?_ rfl rfl rfl)
    ))

theorem synthBeam_inv {p : Fin 8} {cfg : PartCfg} {beam : ℕ × BeamCtl} {b : Batch} {s : State} (h : Kept κ s) : Kept κ (synthBeam p cfg beam b s).2 := by
  unfold synthBeam
  repeat (any_goals (first
    | with_reducible assumption
    | with_reducible refine Kept.ite (fun _ => ?_) (fun _ => ?_)
    | extract_lets +onlyGivenNames x
    | with_reducible refine bump_inv ?_
    | with_reducible refine raiseOnce_inv ?_
    ))

theorem synthBeams_inv {p : Fin 8} {cfg : PartCfg} {b : Batch} {a3 : List (ℕ × BeamCtl)} {a4 : State} (h : Kept κ a4) : Kept κ (synthBeams p cfg b a3 a4).2 := by
  revert h; fun_induction synthBeams p cfg b a3 a4 <;> intro h
  repeat (any_goals (first
    | with_reducible assumption
    | (with_reducible apply_assumption)
    | with_reducible refine synthBeam_inv ?_
    ))

theorem weightSynthesis_inv {p : Fin 8} {ord : ℕ} {s : State} (h : Kept κ s) : Kept κ (weightSynthesis p ord s) := by
  unfold weightSynthesis
  repeat (any_goals (first
    | with_reducible assumption
    | with_reducible refine Kept.ite (fun _ => ?_) (fun _ => ?_)
    | (extract_lets +onlyGivenNames x; refine ((fun hx => ?_) : Kept κ x → _) ?_; on_goal 1 => clear_value x; on_goal 2 => first | with_reducible refine Kept.ite (fun _ => ?_) (fun _ => ?_) | (unfold x; split) | skip)
    | extract_lets +onlyGivenNames x
    | with_reducible refine setPart_inv ?_
    | with_reducible refine applyCommit_inv ?_
    | with_reducible refine synthBeams_inv ?_
    | with_reducible refine noteRead_inv ?_
    | split
    | fail_if_no_progress (with_reducible refine Kept.upd ?_ rfl rfl rfl)
    | dsimp +zetaDelta only
    ))

theorem startPart_inv {d : Desc} {s : State} (h : Kept κ s) : Kept κ (startPart d s) := by
  unfold startPart
  repeat (any_goals (first
    | with_reducible assumption
    | with_reducible refine Kept.ite (fun _ => ?_) (fun _ => ?_)
    | extract_lets +onlyGivenNames x
    | with_reducible refine leaveStandby_inv ?_
    | with_reducible refine startCrib_inv ?_
    | with_reducible refine complete_inv ?_
    | with_reducible refine setPart_inv ?_
    | split
    | fail_if_no_progress (with_reducible refine Kept.upd ?_ rfl rfl rfl)
    | dsimp +zetaDelta only
    ))

theorem setResult_inv {i : ℕ} {v : ℤ} {s : State} (h : Kept κ s) : Kept κ (setResult i v s) := by
  unfold setResult
  repeat (any_goals (first
    | with_reducible assumption
    | extract_lets +onlyGivenNames x
    | with_reducible refine setReg_inv ?_
    ))

theorem tdcResults_inv {xs : List ℤ} {s : State} (h : Kept κ s) : Kept κ (tdcResults xs s) := by
  unfold tdcResults
  repeat (any_goals (first
    | with_reducible assumption
    | extract_lets +onlyGivenNames x
    | with_reducible refine freeNat_inv ?_
    | with_reducible refine setResult_inv ?_
    | split
    ))

theorem tdcFinish_inv {s : State} (h : Kept κ s) : Kept κ (tdcFinish s) := by
  unfold tdcFinish
  repeat (any_goals (first
    | with_reducible assumption
    | with_reducible refine Kept.ite (fun _ => ?_) (fun _ => ?_)
    | (extract_lets +onlyGivenNames x; refine ((fun hx => ?_) : Kept κ x → _) ?_; on_goal 1 => clear_value x; on_goal 2 => first | with_reducible refine Kept.ite (fun _ => ?_) (fun _ => ?_) | (unfold x; split) | skip)
    | extract_lets +onlyGivenNames x
    | with_reducible refine raise_inv ?_
    | with_reducible refine tdcCalBegin_inv ?_
    | with_reducible refine tdcResults_inv ?_
    | fail_if_no_progress (with_reducible refine Kept.upd ?_ rfl rfl rfl)
    ))

theorem dmaReadDone_inv {ch : ℕ} {readOk : Bool} {s : State} (h : Kept κ s) : Kept κ (dmaReadDone ch readOk s) := by
  unfold dmaReadDone
  repeat (any_goals (first
    | with_reducible assumption
    | with_reducible refine Kept.ite (fun _ => ?_) (fun _ => ?_)
    | (extract_lets +onlyGivenNames x; refine ((fun hx => ?_) : Kept κ x → _) ?_; on_goal 1 => clear_value x; on_goal 2 => first | with_reducible refine Kept.ite (fun _ => ?_) (fun _ => ?_) | (unfold x; split) | skip)
    | extract_lets +onlyGivenNames x
    | with_reducible refine setDma_inv ?_
    | with_reducible refine takeReply_inv ?_
    | with_reducible refine dmaSettle_inv ?_
    | split
    ))

theorem captureRing_inv {p : Fin 8} {chan : ℕ} {slot : ℕ} {t : ℕ} {g : Gran} {s : State} (h : Kept κ s) : Kept κ (captureRing p chan slot t g s) := by
  unfold captureRing
  repeat (any_goals (first
    | with_reducible assumption
    | with_reducible refine Kept.ite (fun _ => ?_) (fun _ => ?_)
    | extract_lets +onlyGivenNames x
    | with_reducible refine setCrib_inv ?_
    | with_reducible refine captureGranule_inv ?_
    | split
    ))

theorem captureClose_inv {p : Fin 8} {t : ℕ} {b : Batch} {flagOf : ℕ → ℕ → Bool} {s : State} (h : Kept κ s) : Kept κ (captureClose p t b flagOf s) := by
  unfold captureClose
  repeat (any_goals (first
    | with_reducible assumption
    | with_reducible refine Kept.ite (fun _ => ?_) (fun _ => ?_)
    | (extract_lets +onlyGivenNames x; refine ((fun hx => ?_) : Kept κ x → _) ?_; on_goal 1 => clear_value x; on_goal 2 => first | with_reducible refine Kept.ite (fun _ => ?_) (fun _ => ?_) | (unfold x; split) | skip)
    | extract_lets +onlyGivenNames x
    | with_reducible refine Kept.foldl (fun _ _ _ => ?_) ?_
    | with_reducible refine captureRing_inv ?_
    | split
    ))

theorem flagSummaryWrite_inv {p : Fin 8} {cfg : PartCfg} {cp : Copy} {b : Batch} {s : State} (h : Kept κ s) : Kept κ (flagSummaryWrite p cfg cp b s) := by
  unfold flagSummaryWrite
  repeat (any_goals (first
    | with_reducible assumption
    | with_reducible refine Kept.ite (fun _ => ?_) (fun _ => ?_)
    | with_reducible refine Kept.foldl (fun _ _ _ => ?_) ?_
    | with_reducible refine ringAppend_inv ?_
    | with_reducible refine bump_inv ?_
    ))

theorem thresherTap_inv {p : Fin 8} {cfg : PartCfg} {thr : Store ℕ} {cp : Copy} {b : Batch} {_closed : Batch} {s : State} (h : Kept κ s) : Kept κ (thresherTap p cfg thr cp b _closed s) := by
  unfold thresherTap
  repeat (any_goals (first
    | with_reducible assumption
    | with_reducible refine Kept.ite (fun _ => ?_) (fun _ => ?_)
    | extract_lets +onlyGivenNames x
    | with_reducible refine Kept.foldl (fun _ _ _ => ?_) ?_
    | with_reducible refine bump_inv ?_
    | with_reducible refine ringAppend_inv ?_
    | fail_if_no_progress (with_reducible refine Kept.upd ?_ rfl rfl rfl)
    ))

theorem closeBatch_inv {p : Fin 8} {c : Copy} {b : Batch} {s : State} (h : Kept κ s) : Kept κ (closeBatch p c b s).2 := by
  unfold closeBatch
  repeat (any_goals (first
    | with_reducible assumption
    | with_reducible refine Kept.ite (fun _ => ?_) (fun _ => ?_)
    | extract_lets +onlyGivenNames x
    | with_reducible refine raise_inv ?_
    | with_reducible refine bump_inv ?_
    | with_reducible refine flagSummaryWrite_inv ?_
    | with_reducible refine thresherTap_inv ?_
    | with_reducible refine captureClose_inv ?_
    | fail_if_no_progress (with_reducible refine Kept.upd ?_ rfl rfl rfl)
    ))

theorem busServe_inv {pc : ℕ} {dir : Bool} {s : State} (h : Kept κ s) : Kept κ (busServe pc dir s) := by
  unfold busServe
  repeat (any_goals (first
    | with_reducible assumption
    | with_reducible refine Kept.ite (fun _ => ?_) (fun _ => ?_)
    | extract_lets +onlyGivenNames x
    | fail_if_no_progress (with_reducible refine Kept.upd ?_ rfl rfl rfl)
    ))

theorem openRow_inv {pc : ℕ} {addr : ℕ} {s : State} (h : Kept κ s) : Kept κ (openRow pc addr s) := by
  unfold openRow
  repeat (any_goals (first
    | with_reducible assumption
    | extract_lets +onlyGivenNames x
    | fail_if_no_progress (with_reducible refine Kept.upd ?_ rfl rfl rfl)
    ))

theorem refreshes_inv {pc : ℕ} {n : ℕ} {s : State} (h : Kept κ s) : Kept κ (refreshes pc n s) := by
  unfold refreshes
  repeat (any_goals (first
    | with_reducible assumption
    | extract_lets +onlyGivenNames x
    | fail_if_no_progress (with_reducible refine Kept.upd ?_ rfl rfl rfl)
    ))

theorem refreshFree_inv {pc : ℕ} {s : State} (h : Kept κ s) : Kept κ (refreshFree pc s) := by
  unfold refreshFree
  repeat (any_goals (first
    | with_reducible assumption
    | with_reducible refine Kept.ite (fun _ => ?_) (fun _ => ?_)
    | extract_lets +onlyGivenNames x
    | with_reducible refine refreshes_inv ?_
    | fail_if_no_progress (with_reducible refine Kept.upd ?_ rfl rfl rfl)
    ))

theorem hbmBurst_inv {a : HbmBurst} {s : State} (h : Kept κ s) : Kept κ (hbmBurst a s) := by
  unfold hbmBurst
  repeat (any_goals (first
    | with_reducible assumption
    | with_reducible refine Kept.ite (fun _ => ?_) (fun _ => ?_)
    | extract_lets +onlyGivenNames x
    | with_reducible refine busServe_inv ?_
    | with_reducible refine refreshFree_inv ?_
    | with_reducible refine setCtlQueue_inv ?_
    | with_reducible refine burstDone_inv ?_
    | with_reducible refine openRow_inv ?_
    | split
    ))

theorem ptpExpire_inv {s : State} (h : Kept κ s) : Kept κ (ptpExpire s) := by
  unfold ptpExpire
  repeat (any_goals (first
    | with_reducible assumption
    | with_reducible refine Kept.ite (fun _ => ?_) (fun _ => ?_)
    | extract_lets +onlyGivenNames x
    | with_reducible refine onPtp_inv ?_
    | with_reducible refine ptpDecide_inv ?_
    ))

theorem portClockLost_inv {g : ℕ} {s : State} (h : Kept κ s) : Kept κ (portClockLost g s) := by
  unfold portClockLost
  repeat (any_goals (first
    | with_reducible assumption
    | extract_lets +onlyGivenNames x
    | with_reducible refine Kept.foldl (fun _ _ _ => ?_) ?_
    | with_reducible refine laneEnter_inv ?_
    | with_reducible refine onPort_inv ?_
    ))

theorem ingressPayload_inv {u : List Byte} {len : ℕ} {s : State} (h : Kept κ s) : Kept κ (ingressPayload u len s) := by
  unfold ingressPayload
  repeat (any_goals (first
    | with_reducible assumption
    | with_reducible refine Kept.ite (fun _ => ?_) (fun _ => ?_)
    | (extract_lets +onlyGivenNames x; refine ((fun hx => ?_) : Kept κ x → _) ?_; on_goal 1 => clear_value x; on_goal 2 => first | with_reducible refine Kept.ite (fun _ => ?_) (fun _ => ?_) | (unfold x; split) | skip)
    | extract_lets +onlyGivenNames x
    | with_reducible refine bump_inv ?_
    | with_reducible refine cribsHeld_inv ?_
    | with_reducible refine placeFrame_inv ?_
    | split
    ))

theorem ptpEventTime_inv {sent : Bool} {x : PcsStamp} {s : State} (h : Kept κ s) : Kept κ (ptpEventTime sent x s).2 := by
  unfold ptpEventTime
  repeat (any_goals (first
    | with_reducible assumption
    | with_reducible refine Kept.ite (fun _ => ?_) (fun _ => ?_)
    | extract_lets +onlyGivenNames x
    | with_reducible refine freeNat_inv ?_
    | split
    ))

theorem ptpOffer_inv {sent : Bool} {q : ℤ} {seq : ℕ} {msg : ℕ} {s : State} (h : Kept κ s) : Kept κ (ptpOffer sent q seq msg s) := by
  unfold ptpOffer
  repeat (any_goals (first
    | with_reducible assumption
    | with_reducible refine Kept.ite (fun _ => ?_) (fun _ => ?_)
    | with_reducible refine tsqOffer_inv ?_
    ))

theorem ptpReceive_inv {m : List Byte} {x : PcsStamp} {s : State} (h : Kept κ s) : Kept κ (ptpReceive m x s) := by
  unfold ptpReceive
  repeat (any_goals (first
    | with_reducible assumption
    | with_reducible refine Kept.ite (fun _ => ?_) (fun _ => ?_)
    | (extract_lets +onlyGivenNames x; refine ((fun hx => ?_) : Kept κ x → _) ?_; on_goal 1 => clear_value x; on_goal 2 => first | with_reducible refine Kept.ite (fun _ => ?_) (fun _ => ?_) | (unfold x; split) | skip)
    | extract_lets +onlyGivenNames x
    | with_reducible refine onPtp_inv ?_
    | with_reducible refine ptpExpire_inv ?_
    | with_reducible refine bump_inv ?_
    | with_reducible refine ptpDelayResp_inv ?_
    | with_reducible refine portFrame_inv ?_
    | with_reducible refine ptpEventTime_inv ?_
    | with_reducible refine ptpAnnounce_inv ?_
    | with_reducible refine ptpOffer_inv ?_
    | split
    | with_reducible refine Kept.pair (by with_reducible assumption) ?_
    | fail_if_no_progress (with_reducible refine Kept.upd ?_ rfl rfl rfl)
    | dsimp +zetaDelta only
    ))

theorem ptpFrameIn_inv {g : ℕ} {transport : ℕ} {m : List Byte} {x : PcsStamp} {s : State} (h : Kept κ s) : Kept κ (ptpFrameIn g transport m x s) := by
  unfold ptpFrameIn
  repeat (any_goals (first
    | with_reducible assumption
    | with_reducible refine Kept.ite (fun _ => ?_) (fun _ => ?_)
    | with_reducible refine ptpReceive_inv ?_
    | with_reducible refine bump_inv ?_
    ))

theorem nonIngress_inv {g : ℕ} {f : List Byte} {x : PcsStamp} {s : State} (h : Kept κ s) : Kept κ (nonIngress g f x s) := by
  unfold nonIngress
  repeat (any_goals (first
    | with_reducible assumption
    | extract_lets +onlyGivenNames x
    | with_reducible refine ptpFrameIn_inv ?_
    | with_reducible refine bump_inv ?_
    | with_reducible refine portFrame_inv ?_
    | split
    ))

theorem ethFrame_inv {g : ℕ} {rx : EthRx} {s : State} (h : Kept κ s) : Kept κ (ethFrame g rx s) := by
  unfold ethFrame
  repeat (any_goals (first
    | with_reducible assumption
    | with_reducible refine Kept.ite (fun _ => ?_) (fun _ => ?_)
    | (extract_lets +onlyGivenNames x; refine ((fun hx => ?_) : Kept κ x → _) ?_; on_goal 1 => clear_value x; on_goal 2 => first | with_reducible refine Kept.ite (fun _ => ?_) (fun _ => ?_) | (unfold x; split) | skip)
    | extract_lets +onlyGivenNames x
    | with_reducible refine fecCount_inv ?_
    | with_reducible refine nonIngress_inv ?_
    | with_reducible refine bump_inv ?_
    | with_reducible refine ingressPayload_inv ?_
    | with_reducible refine fifoFault_inv ?_
    | with_reducible refine sramError_inv ?_
    | split
    ))

theorem joinPayload_inv {g : ℕ} {sof : Bool} {eof : Bool} {full : Bool} {body : List Byte} {s : State} (h : Kept κ s) : Kept κ (joinPayload g sof eof full body s) := by
  unfold joinPayload
  repeat (any_goals (first
    | with_reducible assumption
    | with_reducible refine Kept.ite (fun _ => ?_) (fun _ => ?_)
    | extract_lets +onlyGivenNames x
    | with_reducible refine ethFrame_inv ?_
    | with_reducible refine onPort_inv ?_
    ))

theorem sendCtrl_inv {g : ℕ} {nak : Bool} {s : State} (h : Kept κ s) : Kept κ (sendCtrl g nak s) := by
  unfold sendCtrl
  repeat (any_goals (first
    | with_reducible assumption
    | extract_lets +onlyGivenNames x
    | with_reducible refine linkSend_inv ?_
    | split
    ))

theorem linkCrcFail_inv {n : ℕ} {bs : List Byte} {s : State} (h : Kept κ s) : Kept κ (linkCrcFail n bs s) := by
  unfold linkCrcFail
  repeat (any_goals (first
    | with_reducible assumption
    | with_reducible refine Kept.ite (fun _ => ?_) (fun _ => ?_)
    | extract_lets +onlyGivenNames x
    | with_reducible refine retrainLane_inv ?_
    | with_reducible refine bump_inv ?_
    | with_reducible refine onLane_inv ?_
    | with_reducible refine onPort_inv ?_
    | with_reducible refine sendCtrl_inv ?_
    ))

theorem takeAck_inv {g : ℕ} {l : ℕ} {ack : ℕ} {nak : Bool} {s : State} (h : Kept κ s) : Kept κ (takeAck g l ack nak s) := by
  unfold takeAck
  repeat (any_goals (first
    | with_reducible assumption
    | with_reducible refine Kept.ite (fun _ => ?_) (fun _ => ?_)
    | extract_lets +onlyGivenNames x
    | with_reducible refine Kept.foldl (fun _ _ _ => ?_) ?_
    | with_reducible refine retrainLane_inv ?_
    | with_reducible refine bump_inv ?_
    | with_reducible refine sendLink_inv ?_
    | with_reducible refine drainWaiting_inv ?_
    | with_reducible refine onLane_inv ?_
    | with_reducible refine settleLowPower_inv ?_
    | with_reducible refine onPort_inv ?_
    ))

theorem virosData_inv {n : ℕ} {bs : List Byte} {full : Bool} {s : State} (h : Kept κ s) : Kept κ (virosData n bs full s) := by
  unfold virosData
  repeat (any_goals (first
    | with_reducible assumption
    | with_reducible refine Kept.ite (fun _ => ?_) (fun _ => ?_)
    | (extract_lets +onlyGivenNames x; refine ((fun hx => ?_) : Kept κ x → _) ?_; on_goal 1 => clear_value x; on_goal 2 => first | with_reducible refine Kept.ite (fun _ => ?_) (fun _ => ?_) | (unfold x; split) | skip)
    | extract_lets +onlyGivenNames x
    | with_reducible refine takeAck_inv ?_
    | with_reducible refine joinPayload_inv ?_
    | with_reducible refine linkCrcFail_inv ?_
    | with_reducible refine onPort_inv ?_
    | with_reducible refine sendCtrl_inv ?_
    | split
    ))

theorem lastingFault_inv {q : ℕ} {t : ℕ} {except : Option PieceRec} {s : State} (h : Kept κ s) : Kept κ (lastingFault q t except s) := by
  unfold lastingFault
  repeat (any_goals (first
    | with_reducible assumption
    | with_reducible refine leaveService_inv ?_
    | with_reducible refine markSuspect_inv ?_
    ))

theorem closeBatches_inv {p : Fin 8} {c : Copy} {a2 : List Batch} {a3 : State} (h : Kept κ a3) : Kept κ (closeBatches p c a2 a3).2 := by
  revert h; fun_induction closeBatches p c a2 a3 <;> intro h
  repeat (any_goals (first
    | with_reducible assumption
    | (with_reducible apply_assumption)
    | with_reducible refine closeBatch_inv ?_
    ))

theorem openNext_inv {p : Fin 8} {s : State} (h : Kept κ s) : Kept κ (openNext p s) := by
  unfold openNext
  repeat (any_goals (first
    | with_reducible assumption
    | with_reducible refine Kept.ite (fun _ => ?_) (fun _ => ?_)
    | extract_lets +onlyGivenNames x
    | with_reducible refine openWith_inv ?_
    ))

theorem reportMill_inv {s : State} (h : Kept κ s) : Kept κ (reportMill s) := by
  unfold reportMill
  repeat (any_goals (first
    | with_reducible assumption
    | extract_lets +onlyGivenNames x
    | with_reducible refine Kept.foldl (fun _ _ _ => ?_) ?_
    | with_reducible refine setReg_inv ?_
    ))

theorem rotateNormal_inv {p : Fin 8} {s : State} (h : Kept κ s) : Kept κ (rotateNormal p s) := by
  unfold rotateNormal
  repeat (any_goals (first
    | with_reducible assumption
    | with_reducible refine Kept.ite (fun _ => ?_) (fun _ => ?_)
    | extract_lets +onlyGivenNames x
    | with_reducible refine Kept.foldl (fun _ _ _ => ?_) ?_
    | with_reducible refine reportMill_inv ?_
    | with_reducible refine cribsHeld_inv ?_
    | with_reducible refine setPart_inv ?_
    | with_reducible refine openNext_inv ?_
    | with_reducible refine closeBatches_inv ?_
    | with_reducible refine withholdBatch_inv ?_
    | split
    ))

theorem recalibrate_inv {s : State} (h : Kept κ s) : Kept κ (recalibrate s) := by
  unfold recalibrate
  repeat (any_goals (first
    | with_reducible assumption
    | with_reducible refine Kept.ite (fun _ => ?_) (fun _ => ?_)
    | with_reducible refine tdcCalBegin_inv ?_
    ))

theorem readWeights_inv {p : Fin 8} {s : State} (h : Kept κ s) : Kept κ (readWeights p s) := by
  unfold readWeights
  repeat (any_goals (first
    | with_reducible assumption
    | extract_lets +onlyGivenNames x
    | with_reducible refine Kept.foldl (fun _ _ _ => ?_) ?_
    | with_reducible refine weightSynthesis_inv ?_
    | split
    ))

theorem captureStop_inv {p : Fin 8} {fill : Option Copy} {s : State} (h : Kept κ s) : Kept κ (captureStop p fill s) := by
  unfold captureStop
  repeat (any_goals (first
    | with_reducible assumption
    | with_reducible refine Kept.ite (fun _ => ?_) (fun _ => ?_)
    | extract_lets +onlyGivenNames x
    | with_reducible refine Kept.foldl (fun _ _ _ => ?_) ?_
    | with_reducible refine raise_inv ?_
    | with_reducible refine setCrib_inv ?_
    | split
    | fail_if_no_progress (with_reducible refine Kept.upd ?_ rfl rfl rfl)
    ))

theorem rotateStop_inv {p : Fin 8} {s : State} (h : Kept κ s) : Kept κ (rotateStop p s) := by
  unfold rotateStop
  repeat (any_goals (first
    | with_reducible assumption
    | extract_lets +onlyGivenNames x
    | with_reducible refine cribsHeld_inv ?_
    | with_reducible refine setPart_inv ?_
    | with_reducible refine stopSweep_inv ?_
    | with_reducible refine captureStop_inv ?_
    ))

theorem tableError_inv {p : Fin 8} {ecc : Option RotateError} {s : State} (h : Kept κ s) : Kept κ (tableError p ecc s) := by
  unfold tableError poisonEntry
  repeat (any_goals (first
    | with_reducible assumption
    | with_reducible refine Kept.foldl (fun _ _ _ => ?_) ?_
    | with_reducible refine onPart_inv ?_
    | with_reducible refine tabSet_inv ?_
    | with_reducible refine sramError_inv ?_
    | split
    ))

theorem regionRotate_inv {p : Fin 8} {ecc : Option RotateError} {s : State} (h : Kept κ s) : Kept κ (regionRotate p ecc s) := by
  unfold regionRotate
  repeat (any_goals (first
    | with_reducible assumption
    | with_reducible refine Kept.ite (fun _ => ?_) (fun _ => ?_)
    | (extract_lets +onlyGivenNames x; refine ((fun hx => ?_) : Kept κ x → _) ?_; on_goal 1 => clear_value x; on_goal 2 => first | with_reducible refine Kept.ite (fun _ => ?_) (fun _ => ?_) | (unfold x; split) | skip)
    | extract_lets +onlyGivenNames x
    | with_reducible refine Kept.foldl (fun _ _ _ => ?_) ?_
    | with_reducible refine rotateNormal_inv ?_
    | with_reducible refine readWeights_inv ?_
    | with_reducible refine tableError_inv ?_
    | with_reducible refine withholdBatch_inv ?_
    | with_reducible refine rotateStop_inv ?_
    | with_reducible refine sramError_inv ?_
    | split
    ))

theorem refreshNow_inv {pc : ℕ} {s : State} (h : Kept κ s) : Kept κ (refreshNow pc s) := by
  unfold refreshNow
  repeat (any_goals (first
    | with_reducible assumption
    | with_reducible refine Kept.ite (fun _ => ?_) (fun _ => ?_)
    | extract_lets +onlyGivenNames x
    | with_reducible refine refreshes_inv ?_
    | fail_if_no_progress (with_reducible refine Kept.upd ?_ rfl rfl rfl)
    ))

theorem eventLogCommit_inv {s : State} (h : Kept κ s) : Kept κ (eventLogCommit s) := by
  unfold eventLogCommit
  repeat (any_goals (first
    | with_reducible assumption
    | with_reducible refine Kept.ite (fun _ => ?_) (fun _ => ?_)
    | extract_lets +onlyGivenNames x
    | with_reducible refine ledgerQueue_inv ?_
    | split
    | fail_if_no_progress (with_reducible refine Kept.upd ?_ rfl rfl rfl)
    ))

theorem endSettle_inv {crib : ℕ} {e : TrigEvent} {k : CaptCfg} {s : State} (h : Kept κ s) : Kept κ (endSettle crib e k s) := by
  unfold endSettle
  repeat (any_goals (first
    | with_reducible assumption
    | with_reducible refine Kept.ite (fun _ => ?_) (fun _ => ?_)
    | extract_lets +onlyGivenNames x
    | with_reducible refine raise_inv ?_
    | with_reducible refine setCrib_inv ?_
    | with_reducible refine armEffect_inv ?_
    | with_reducible refine readDone_inv ?_
    | fail_if_no_progress (with_reducible refine Kept.upd ?_ rfl rfl rfl)
    ))

theorem settleEnd_inv {crib : ℕ} {s : State} (h : Kept κ s) : Kept κ (settleEnd crib s) := by
  unfold settleEnd
  repeat (any_goals (first
    | with_reducible assumption
    | with_reducible refine Kept.ite (fun _ => ?_) (fun _ => ?_)
    | extract_lets +onlyGivenNames x
    | with_reducible refine endSettle_inv ?_
    | split
    ))

theorem powerLoss_inv {s : State} (h : Kept κ s) : Kept κ (powerLoss s) := by
  unfold powerLoss
  repeat (any_goals (first
    | with_reducible assumption
    | extract_lets +onlyGivenNames x
    | with_reducible refine resetDevice_inv ?_
    | fail_if_no_progress (with_reducible refine Kept.upd ?_ rfl rfl rfl)
    ))

theorem trigInEdge_inv {x : RawStamp} {s : State} (h : Kept κ s) : Kept κ (trigInEdge x s) := by
  unfold trigInEdge
  repeat (any_goals (first
    | with_reducible assumption
    | extract_lets +onlyGivenNames x
    | with_reducible refine tdcEdge_inv ?_
    | with_reducible refine pinFire_inv ?_
    | split
    ))

theorem piecePasses_inv {q : ℕ} {t : ℕ} {w : Waiting} {b : Batch} {task : ℕ} {s : State} (h : Kept κ s) : Kept κ (piecePasses q t w b task s) := by
  unfold piecePasses
  repeat (any_goals (first
    | with_reducible assumption
    | with_reducible refine Kept.ite (fun _ => ?_) (fun _ => ?_)
    | (extract_lets +onlyGivenNames x; refine ((fun hx => ?_) : Kept κ x → _) ?_; on_goal 1 => clear_value x; on_goal 2 => first | with_reducible refine Kept.ite (fun _ => ?_) (fun _ => ?_) | (unfold x; split) | skip)
    | extract_lets +onlyGivenNames x
    | with_reducible refine passPiece_inv ?_
    | with_reducible refine onQuad_inv ?_
    | with_reducible refine markPiece_inv ?_
    ))

theorem startRerun_inv {q : ℕ} {t : ℕ} {w : Waiting} {b : Batch} {task : ℕ} {s : State} (h : Kept κ s) : Kept κ (startRerun q t w b task s) := by
  unfold startRerun
  repeat (any_goals (first
    | with_reducible assumption
    | with_reducible refine Kept.ite (fun _ => ?_) (fun _ => ?_)
    | extract_lets +onlyGivenNames x
    | with_reducible refine raise_inv ?_
    | with_reducible refine withholdBatch_inv ?_
    | with_reducible refine onQuad_inv ?_
    ))

theorem takePiece_inv {tile : ℕ} {w : Waiting} {s : State} (h : Kept κ s) : Kept κ (takePiece tile w s) := by
  unfold takePiece
  repeat (any_goals (first
    | with_reducible assumption
    | with_reducible refine onPart_inv ?_
    ))

theorem pieceDrain_inv {tile : ℕ} {fault : PieceFault} {ecc : Option SramError} {s : State} (h : Kept κ s) : Kept κ (pieceDrain tile fault ecc s) := by
  unfold pieceDrain
  repeat (any_goals (first
    | with_reducible assumption
    | with_reducible refine Kept.ite (fun _ => ?_) (fun _ => ?_)
    | extract_lets +onlyGivenNames x
    | with_reducible refine tryEndWindow_inv ?_
    | with_reducible refine piecePasses_inv ?_
    | with_reducible refine raise_inv ?_
    | with_reducible refine startRerun_inv ?_
    | with_reducible refine sramError_inv ?_
    | with_reducible refine takePiece_inv ?_
    | split
    | dsimp +zetaDelta only
    ))

theorem reeveWrite_inv {a : ℕ} {window : ℕ} {bs : List Byte} {s : State} (h : Kept κ s) : ∀ t, reeveWrite a window bs s = some t → Kept κ t := by
  unfold reeveWrite
  intro t e
  dsimp only at e
  split at e
  · injection e with e; subst e
    exact Kept.foldl (fun _ _ hs => Kept.ite (fun _ => hs) (fun _ => hs.sys fun m => ⟨m.1, m.2.1, storeWf_set m.2.2⟩)) h
  split at e
  · injection e with e; subst e; exact h
  split at e
  · injection e with e; subst e; exact h.sys fun m => ⟨m.1, storeWf_setList m.2.1, m.2.2⟩
  split at e
  · injection e with e; subst e; exact barWrite_inv h
  split at e
  · injection e with e; subst e; exact barWrite_inv h
  split at e
  · rw [Option.bind_eq_some_iff] at e
    obtain ⟨p, _, e⟩ := e
    exact dmaWrite_inv h t e
  · cases e

theorem captureApply_inv {s : State} (h : Kept κ s) : Kept κ (captureApply s) := by
  unfold captureApply
  repeat (any_goals (first
    | with_reducible assumption
    | with_reducible refine Kept.ite (fun _ => ?_) (fun _ => ?_)
    | extract_lets +onlyGivenNames x
    | with_reducible refine complete_inv ?_
    | with_reducible refine startCrib_inv ?_
    | split
    | fail_if_no_progress (with_reducible refine Kept.upd ?_ rfl rfl rfl)
    ))

theorem stwRun_inv {d : Desc} {s : State} (h : Kept κ s) : Kept κ (stwRun d s) := by
  unfold stwRun
  repeat (any_goals (first
    | with_reducible assumption
    | extract_lets +onlyGivenNames x
    | with_reducible refine Kept.foldl (fun _ _ _ => ?_) ?_
    | with_reducible refine onCore_inv (fun _ hx => ?_) ?_
    | with_reducible refine setSysRing_inv ?_
    | with_reducible refine complete_inv ?_
    | exact Core.started_shaped hx (bitsOf_lt (by decide))
    ))

theorem writeXfer_inv {c : ℕ} {t : Xfer} {p : Fin 8} {a3 : ℕ} {a4 : ℕ} {a5 : State} (h : Kept κ a5) : Kept κ (writeXfer c t p a3 a4 a5).2.2 := by
  revert h; fun_induction writeXfer c t p a3 a4 a5 <;> intro h
  repeat (any_goals (first
    | with_reducible assumption
    | (with_reducible apply_assumption)
    | with_reducible refine writeEntry_inv ?_
    ))

theorem scrubNext_inv {pc : ℕ} {s : State} (h : Kept κ s) : Kept κ (scrubNext pc s) := by
  unfold scrubNext
  repeat (any_goals (first
    | with_reducible assumption
    | with_reducible refine Kept.ite (fun _ => ?_) (fun _ => ?_)
    | extract_lets +onlyGivenNames x
    | with_reducible refine raise_inv ?_
    | fail_if_no_progress (with_reducible refine Kept.upd ?_ rfl rfl rfl)
    ))

theorem arrive_inv {k : ℕ} {a : FabArrival} {s : State} (h : Kept κ s) : Kept κ (arrive k a s) := by
  unfold arrive
  repeat (any_goals (first
    | with_reducible assumption
    | with_reducible refine Kept.ite (fun _ => ?_) (fun _ => ?_)
    | extract_lets +onlyGivenNames x
    | with_reducible refine raiseReq_inv ?_
    | split
    | fail_if_no_progress (with_reducible refine Kept.upd ?_ rfl rfl rfl)
    ))

theorem fabricGrant_inv {target : FabTarget} {arrivals : List FabArrival} {parity : Bool} {s : State} (h : Kept κ s) : Kept κ (fabricGrant target arrivals parity s) := by
  unfold fabricGrant
  repeat (any_goals (first
    | with_reducible assumption
    | with_reducible refine Kept.ite (fun _ => ?_) (fun _ => ?_)
    | (extract_lets +onlyGivenNames x; refine ((fun hx => ?_) : Kept κ x → _) ?_; on_goal 1 => clear_value x; on_goal 2 => first | with_reducible refine Kept.ite (fun _ => ?_) (fun _ => ?_) | (unfold x; split) | skip)
    | extract_lets +onlyGivenNames x
    | with_reducible refine Kept.foldl (fun _ _ _ => ?_) ?_
    | with_reducible refine emit_inv ?_
    | with_reducible refine raise_inv ?_
    | with_reducible refine fillQueue_inv ?_
    | with_reducible refine issueAll_inv ?_
    | with_reducible refine setTarget_inv ?_
    | with_reducible refine arrive_inv ?_
    | with_reducible refine refreshFree_inv ?_
    | with_reducible refine perform_inv ?_
    | split
    | fail_if_no_progress (with_reducible refine Kept.upd ?_ rfl rfl rfl)
    ))

theorem monWr_inv {o : BitVec 24} {v : Payload} {s : State} (h : Kept κ s) : Kept κ (monWr o v s) := by
  unfold monWr
  repeat (any_goals (first
    | with_reducible assumption
    | with_reducible refine Kept.ite (fun _ => ?_) (fun _ => ?_)
    | with_reducible refine audit_inv ?_
    | with_reducible refine say_inv ?_
    | with_reducible refine auditThen_inv ?_
    ))

theorem releaseRange_inv {key : ℕ} {s : State} (h : Kept κ s) : Kept κ (releaseRange key s) := by
  unfold releaseRange
  repeat (any_goals (first
    | with_reducible assumption
    | with_reducible refine Kept.ite (fun _ => ?_) (fun _ => ?_)
    | extract_lets +onlyGivenNames x
    | split
    | fail_if_no_progress (with_reducible refine Kept.upd ?_ rfl rfl rfl)
    ))

theorem segmentEnd_inv {s : State} (h : Kept κ s) : Kept κ (segmentEnd s) := by
  unfold segmentEnd
  repeat (any_goals (first
    | with_reducible assumption
    | with_reducible refine Kept.ite (fun _ => ?_) (fun _ => ?_)
    | extract_lets +onlyGivenNames x
    | with_reducible refine Kept.foldl (fun _ _ _ => ?_) ?_
    | with_reducible refine onComps_inv ?_
    | with_reducible refine quadSegment_inv ?_
    | split
    | fail_if_no_progress (with_reducible refine Kept.upd ?_ rfl rfl rfl)
    ))

theorem sendNeg_inv {n : ℕ} {s : State} (h : Kept κ s) : Kept κ (sendNeg n s) := by
  unfold sendNeg
  repeat (any_goals (first
    | with_reducible assumption
    | with_reducible refine Kept.ite (fun _ => ?_) (fun _ => ?_)
    | extract_lets +onlyGivenNames x
    | with_reducible refine linkSend_inv ?_
    ))

theorem setRate_inv {n : ℕ} {r : ℕ} {s : State} (h : Kept κ s) : Kept κ (setRate n r s) := by
  unfold setRate
  repeat (any_goals (first
    | with_reducible assumption
    | with_reducible refine setF_inv ?_
    ))

theorem negFrame_inv {n : ℕ} {f : NegFrame} {s : State} (h : Kept κ s) : Kept κ (negFrame n f s) := by
  unfold negFrame
  repeat (any_goals (first
    | with_reducible assumption
    | with_reducible refine Kept.ite (fun _ => ?_) (fun _ => ?_)
    | extract_lets +onlyGivenNames x
    | with_reducible refine setRate_inv ?_
    | with_reducible refine sendNeg_inv ?_
    | with_reducible refine laneEnter_inv ?_
    | with_reducible refine onLane_inv ?_
    ))

theorem onLine_inv {n : ℕ} {line : List ℕ} {use : List Byte → State → State} {s : State} (huse : ∀ y0 s, Kept κ s → Kept κ (use y0 s)) (h : Kept κ s) : Kept κ (onLine n line use s) := by
  unfold onLine
  repeat (any_goals (first
    | with_reducible assumption
    | extract_lets +onlyGivenNames x
    | with_reducible apply huse
    | with_reducible refine lineReceive_inv ?_
    | split
    | with_reducible refine Kept.pair (by with_reducible assumption) ?_
    ))

theorem partnerLowPower_inv {n : ℕ} {q : LowPowerRequest} {s : State} (h : Kept κ s) : Kept κ (partnerLowPower n q s) := by
  unfold partnerLowPower
  repeat (any_goals (first
    | with_reducible assumption
    | with_reducible refine Kept.ite (fun _ => ?_) (fun _ => ?_)
    | extract_lets +onlyGivenNames x
    | with_reducible refine sleepLane_inv ?_
    | with_reducible refine wakeLane_inv ?_
    | with_reducible refine leaveIdle_inv ?_
    | split
    ))

theorem virosCtrl_inv {n : ℕ} {bs : List Byte} {q : LowPowerRequest} {s : State} (h : Kept κ s) : Kept κ (virosCtrl n bs q s) := by
  unfold virosCtrl
  repeat (any_goals (first
    | with_reducible assumption
    | with_reducible refine Kept.ite (fun _ => ?_) (fun _ => ?_)
    | extract_lets +onlyGivenNames x
    | with_reducible refine linkCrcFail_inv ?_
    | with_reducible refine partnerLowPower_inv ?_
    | with_reducible refine takeAck_inv ?_
    | split
    ))

theorem irqExpire_inv {v : ℕ} {s : State} (h : Kept κ s) : Kept κ (irqExpire v s) := by
  unfold irqExpire
  repeat (any_goals (first
    | with_reducible assumption
    | with_reducible refine Kept.ite (fun _ => ?_) (fun _ => ?_)
    | extract_lets +onlyGivenNames x
    | with_reducible refine emit_inv ?_
    | fail_if_no_progress (with_reducible refine Kept.upd ?_ rfl rfl rfl)
    ))

theorem tdcMeasureDone_inv {edges : List TdcArrival} {s : State} (h : Kept κ s) : Kept κ (tdcMeasureDone edges s) := by
  unfold tdcMeasureDone
  repeat (any_goals (first
    | with_reducible assumption
    | with_reducible refine Kept.foldl (fun _ _ _ => ?_) ?_
    | with_reducible refine tdcArrive_inv ?_
    | with_reducible refine tdcFinish_inv ?_
    ))

theorem countRerun_inv {q : ℕ} {r : Rerun} {s : State} (h : Kept κ s) : Kept κ (countRerun q r s) := by
  unfold countRerun
  repeat (any_goals (first
    | with_reducible assumption
    | extract_lets +onlyGivenNames x
    | with_reducible refine extendDeadline_inv ?_
    | with_reducible refine onQuad_inv ?_
    ))

theorem transient_inv {q : ℕ} {r : Rerun} {b : Batch} {s : State} (h : Kept κ s) : Kept κ (transient q r b s) := by
  unfold transient
  repeat (any_goals (first
    | with_reducible assumption
    | with_reducible refine Kept.ite (fun _ => ?_) (fun _ => ?_)
    | extract_lets +onlyGivenNames x
    | with_reducible refine raise_inv ?_
    | with_reducible refine bump_inv ?_
    | with_reducible refine lastingFault_inv ?_
    | with_reducible refine onQuad_inv ?_
    ))

theorem rerunDone_inv {q : ℕ} {agree : RerunAgreement} {s : State} (h : Kept κ s) : Kept κ (rerunDone q agree s) := by
  unfold rerunDone
  repeat (any_goals (first
    | with_reducible assumption
    | extract_lets +onlyGivenNames x
    | with_reducible refine tryEndWindow_inv ?_
    | with_reducible refine unresolved_inv ?_
    | with_reducible refine countRerun_inv ?_
    | with_reducible refine transient_inv ?_
    | with_reducible refine lastingFault_inv ?_
    | with_reducible refine passPiece_inv ?_
    | split
    | dsimp +zetaDelta only
    ))

theorem noteSample_inv {sensors : List ℤ} {s : State} (h : Kept κ s) : Kept κ (noteSample sensors s) := by
  unfold noteSample
  repeat (any_goals (first
    | with_reducible assumption
    | extract_lets +onlyGivenNames x
    | with_reducible refine setF_inv ?_
    | fail_if_no_progress (with_reducible refine Kept.upd ?_ rfl rfl rfl)
    ))

theorem setTherm_inv {state : ℕ} {step : ℕ} {s : State} (h : Kept κ s) : Kept κ (setTherm state step s) := by
  unfold setTherm
  repeat (any_goals (first
    | with_reducible assumption
    | with_reducible refine setF_inv ?_
    | with_reducible refine noteAttn_inv ?_
    ))

theorem shutdown_inv {t : ℤ} {s : State} (h : Kept κ s) : Kept κ (shutdown t s) := by
  unfold shutdown
  repeat (any_goals (first
    | with_reducible assumption
    | extract_lets +onlyGivenNames x
    | with_reducible refine Kept.foldl (fun _ _ _ => ?_) ?_
    | with_reducible refine raise_inv ?_
    | with_reducible refine ledgerShutdown_inv ?_
    | with_reducible refine setTherm_inv ?_
    | with_reducible refine stopDevice_inv ?_
    | with_reducible refine setF_inv ?_
    | fail_if_no_progress (with_reducible refine Kept.upd ?_ rfl rfl rfl)
    ))

theorem noteChange_inv {s : State} (h : Kept κ s) : Kept κ (noteChange s) := by
  unfold noteChange
  repeat (any_goals (first
    | with_reducible assumption
    | extract_lets +onlyGivenNames x
    | fail_if_no_progress (with_reducible refine Kept.upd ?_ rfl rfl rfl)
    ))

theorem setStep_inv {n : ℕ} {s : State} (h : Kept κ s) : Kept κ (setStep n s) := by
  unfold setStep
  repeat (any_goals (first
    | with_reducible assumption
    | extract_lets +onlyGivenNames x
    | with_reducible refine raise_inv ?_
    | with_reducible refine setTherm_inv ?_
    | fail_if_no_progress (with_reducible refine Kept.upd ?_ rfl rfl rfl)
    ))

theorem thermEval_inv {t : ℤ} {s : State} (h : Kept κ s) : Kept κ (thermEval t s) := by
  unfold thermEval
  repeat (any_goals (first
    | with_reducible assumption
    | with_reducible refine Kept.ite (fun _ => ?_) (fun _ => ?_)
    | extract_lets +onlyGivenNames x
    | with_reducible refine raise_inv ?_
    | with_reducible refine dmaResume_inv ?_
    | with_reducible refine setStep_inv ?_
    | with_reducible refine noteChange_inv ?_
    | with_reducible refine setTherm_inv ?_
    ))

theorem thermSample_inv {sensors : List ℤ} {s : State} (h : Kept κ s) : Kept κ (thermSample sensors s) := by
  unfold thermSample
  repeat (any_goals (first
    | with_reducible assumption
    | with_reducible refine Kept.ite (fun _ => ?_) (fun _ => ?_)
    | extract_lets +onlyGivenNames x
    | with_reducible refine shutdown_inv ?_
    | with_reducible refine noteSample_inv ?_
    | with_reducible refine thermEval_inv ?_
    | with_reducible refine recalibrate_inv ?_
    ))

theorem bootSlot_inv {n : ℕ} {s : State} (h : Kept κ s) : Kept κ (bootSlot n s) := by
  unfold bootSlot
  repeat (any_goals (first
    | with_reducible assumption
    | extract_lets +onlyGivenNames x
    | with_reducible refine Kept.foldl (fun _ _ _ => ?_) ?_
    | with_reducible refine setReg_inv ?_
    | with_reducible refine setStage_inv ?_
    | with_reducible refine onQuad_inv ?_
    | with_reducible refine tdcCalBegin_inv ?_
    | with_reducible refine setF_inv ?_
    | fail_if_no_progress (with_reducible refine Kept.upd ?_ rfl rfl rfl)
    ))

theorem takeRails_inv {rails : List ℤ} {s : State} (h : Kept κ s) : Kept κ (takeRails rails s) := by
  unfold takeRails
  repeat (any_goals (first
    | with_reducible assumption
    | with_reducible refine Kept.ite (fun _ => ?_) (fun _ => ?_)
    | extract_lets +onlyGivenNames x
    | with_reducible refine Kept.foldl (fun _ _ _ => ?_) ?_
    | with_reducible refine raise_inv ?_
    | with_reducible refine voltagePause_inv ?_
    | with_reducible refine stopDevice_inv ?_
    | split
    | fail_if_no_progress (with_reducible refine Kept.upd ?_ rfl rfl rfl)
    ))

theorem sendPower_inv {i : ChainInput} {s : State} (h : Kept κ s) : Kept κ (sendPower i s) := by
  unfold sendPower
  repeat (any_goals (first
    | with_reducible assumption
    | with_reducible refine Kept.ite (fun _ => ?_) (fun _ => ?_)
    | extract_lets +onlyGivenNames x
    | with_reducible refine Kept.foldl (fun _ _ _ => ?_) ?_
    | with_reducible refine powerPacket_inv ?_
    ))

theorem allotmentRefill_inv {s : State} (h : Kept κ s) : Kept κ (allotmentRefill s) := by
  unfold allotmentRefill
  repeat (any_goals (first
    | with_reducible assumption
    | with_reducible refine Kept.foldl (fun _ _ _ => ?_) ?_
    | with_reducible refine setTokens_inv ?_
    ))

theorem ledgerStage_inv {s : State} (h : Kept κ s) : Kept κ (ledgerStage s) := by
  unfold ledgerStage
  repeat (any_goals (first
    | with_reducible assumption
    | with_reducible refine Kept.ite (fun _ => ?_) (fun _ => ?_)
    | extract_lets +onlyGivenNames x
    | with_reducible refine Kept.foldl (fun _ _ _ => ?_) ?_
    | with_reducible refine reportMill_inv ?_
    | with_reducible refine onBank_inv ?_
    | with_reducible refine replayRecord_inv ?_
    | with_reducible refine setStage_inv ?_
    | with_reducible refine setF_inv ?_
    | split
    | fail_if_no_progress (with_reducible refine Kept.upd ?_ rfl rfl rfl)
    ))

theorem reeveRead_inv {a : ℕ} {n : ℕ} {window : ℕ} {s : State} (h : Kept κ s) : Kept κ (reeveRead a n window s).2 := by
  unfold reeveRead
  repeat (any_goals (first
    | with_reducible assumption
    | with_reducible refine Kept.ite (fun _ => ?_) (fun _ => ?_)
    | extract_lets +onlyGivenNames x
    | with_reducible refine Kept.foldl (fun _ _ _ => ?_) ?_
    | with_reducible refine afterRead_inv ?_
    | with_reducible refine freeNat_inv ?_
    | with_reducible refine Kept.getD ?_ ?_
    | with_reducible refine Kept.foldl_snd (fun _ _ _ => ?_) ?_
    | split
    ))

theorem reeveAccess_inv {x : ReeveAccess} {s : State} (h : Kept κ s) : Kept κ (reeveAccess x s) := by
  unfold reeveAccess
  repeat (any_goals (first
    | with_reducible assumption
    | extract_lets +onlyGivenNames x
    | with_reducible refine reeveRead_inv ?_
    | with_reducible refine emit_inv ?_
    | with_reducible refine reeveWrite_inv ?_
    | with_reducible refine reeveWrite_inv ?_ _ (by with_reducible assumption)
    | with_reducible refine Kept.getD ?_ ?_
    | split
    | with_reducible refine Kept.pair (by with_reducible assumption) ?_
    ))

theorem remapSwap_inv {l : List ReeveAccess} {s : State} (h : Kept κ s) : Kept κ (remapSwap l s) := by
  unfold remapSwap
  repeat (any_goals (first
    | with_reducible assumption
    | with_reducible refine Kept.ite (fun _ => ?_) (fun _ => ?_)
    | (extract_lets +onlyGivenNames x; refine ((fun hx => ?_) : Kept κ x → _) ?_; on_goal 1 => clear_value x; on_goal 2 => first | with_reducible refine Kept.ite (fun _ => ?_) (fun _ => ?_) | (unfold x; split) | skip)
    | extract_lets +onlyGivenNames x
    | with_reducible refine Kept.foldl (fun _ _ _ => ?_) ?_
    | with_reducible refine reeveAccess_inv ?_
    | fail_if_no_progress (with_reducible refine Kept.upd ?_ rfl rfl rfl)
    ))

theorem reeveLockstep_inv {s : State} (h : Kept κ s) : Kept κ (reeveLockstep s) := by
  unfold reeveLockstep
  repeat (any_goals (first
    | with_reducible assumption
    | with_reducible refine Kept.ite (fun _ => ?_) (fun _ => ?_)
    | extract_lets +onlyGivenNames x
    | with_reducible refine Kept.foldl (fun _ _ _ => ?_) ?_
    | with_reducible refine raise_inv ?_
    | with_reducible refine dmaStop_inv ?_
    | with_reducible refine setReg_inv ?_
    | with_reducible refine endSession_inv ?_
    | with_reducible refine stopDevice_inv ?_
    | fail_if_no_progress (with_reducible refine Kept.upd ?_ rfl rfl rfl)
    ))

theorem ledgerDone_inv {ok : Bool} {s : State} (h : Kept κ s) : Kept κ (ledgerDone ok s) := by
  unfold ledgerDone
  repeat (any_goals (first
    | with_reducible assumption
    | with_reducible refine Kept.ite (fun _ => ?_) (fun _ => ?_)
    | extract_lets +onlyGivenNames x
    | with_reducible refine opDone_inv ?_
    | with_reducible refine ledgerFails_inv ?_
    | split
    | fail_if_no_progress (with_reducible refine Kept.upd ?_ rfl rfl rfl)
    ))

theorem scrubStep_inv {pc : ℕ} {e : HbmError} {t : HbmTarget} {newer : Bool} {s : State} (h : Kept κ s) : Kept κ (scrubStep pc e t newer s) := by
  unfold scrubStep
  repeat (any_goals (first
    | with_reducible assumption
    | with_reducible refine Kept.ite (fun _ => ?_) (fun _ => ?_)
    | (extract_lets +onlyGivenNames x; refine ((fun hx => ?_) : Kept κ x → _) ?_; on_goal 1 => clear_value x; on_goal 2 => first | with_reducible refine Kept.ite (fun _ => ?_) (fun _ => ?_) | (unfold x; split) | skip)
    | extract_lets +onlyGivenNames x
    | with_reducible refine burstRead_inv ?_
    | with_reducible refine scrubNext_inv ?_
    | fail_if_no_progress (with_reducible refine Kept.upd ?_ rfl rfl rfl)
    ))

theorem testTaskDone_inv {tile : ℕ} {pass : Bool} {s : State} (h : Kept κ s) : Kept κ (testTaskDone tile pass s) := by
  unfold testTaskDone
  repeat (any_goals (first
    | with_reducible assumption
    | with_reducible refine Kept.ite (fun _ => ?_) (fun _ => ?_)
    | extract_lets +onlyGivenNames x
    | with_reducible refine tryEndWindow_inv ?_
    | with_reducible refine lastingFault_inv ?_
    | with_reducible refine onQuad_inv ?_
    ))

theorem tdcCalDone_inv {hits : List ℕ} {s : State} (h : Kept κ s) : Kept κ (tdcCalDone hits s) := by
  unfold tdcCalDone
  repeat (any_goals (first
    | with_reducible assumption
    | with_reducible refine Kept.ite (fun _ => ?_) (fun _ => ?_)
    | extract_lets +onlyGivenNames x
    | with_reducible refine raise_inv ?_
    | with_reducible refine updateTimeq_inv ?_
    | fail_if_no_progress (with_reducible refine Kept.upd ?_ rfl rfl rfl)
    ))

theorem programBuffer_inv {s : State} (h : Kept κ s) : Kept κ (programBuffer s) := by
  unfold programBuffer
  repeat (any_goals (first
    | with_reducible assumption
    | extract_lets +onlyGivenNames x
    | with_reducible refine appendRecord_inv ?_
    | with_reducible refine setSlot_inv ?_
    ))

theorem verifyStage_inv {s : State} (h : Kept κ s) : Kept κ (verifyStage s) := by
  unfold verifyStage
  repeat (any_goals (first
    | with_reducible assumption
    | with_reducible refine Kept.ite (fun _ => ?_) (fun _ => ?_)
    | extract_lets +onlyGivenNames x
    | with_reducible refine bootSlot_inv ?_
    | with_reducible refine programBuffer_inv ?_
    | with_reducible refine setStage_inv ?_
    | with_reducible refine setF_inv ?_
    | fail_if_no_progress (with_reducible refine Kept.upd ?_ rfl rfl rfl)
    ))

theorem chainMonitor_inv {entry : ℕ} {chan : ℕ} {s : State} (h : Kept κ s) : Kept κ (chainMonitor entry chan s) := by
  unfold chainMonitor
  repeat (any_goals (first
    | with_reducible assumption
    | extract_lets +onlyGivenNames x
    | with_reducible refine runChain_inv ?_
    | split
    | fail_if_no_progress (with_reducible refine Kept.upd ?_ rfl rfl rfl)
    ))

theorem triggerFire_inv {d : Desc} {s : State} (h : Kept κ s) : Kept κ (triggerFire d s) := by
  unfold triggerFire
  repeat (any_goals (first
    | with_reducible assumption
    | extract_lets +onlyGivenNames x
    | with_reducible refine localFire_inv ?_
    | with_reducible refine complete_inv ?_
    | split
    ))

theorem deliverMsg_inv {rec : List Byte} {s : State} (h : Kept κ s) : Kept κ (deliverMsg rec s) := by
  unfold deliverMsg
  repeat (any_goals (first
    | with_reducible assumption
    | with_reducible refine Kept.ite (fun _ => ?_) (fun _ => ?_)
    | extract_lets +onlyGivenNames x
    | with_reducible refine raise_inv ?_
    | with_reducible refine bump_inv ?_
    | with_reducible refine ringAppend_inv ?_
    | fail_if_no_progress (with_reducible refine Kept.upd ?_ rfl rfl rfl)
    ))

theorem beginBackoff_inv {k : ℕ} {s : State} (h : Kept κ s) : Kept κ (beginBackoff k s) := by
  unfold beginBackoff
  repeat (any_goals (first
    | with_reducible assumption
    | with_reducible refine Kept.ite (fun _ => ?_) (fun _ => ?_)
    | extract_lets +onlyGivenNames x
    | with_reducible refine freeNat_inv ?_
    | with_reducible refine onRing_inv ?_
    ))

theorem silence_inv {k : ℕ} {s : State} (h : Kept κ s) : Kept κ (silence k s) := by
  unfold silence
  repeat (any_goals (first
    | with_reducible assumption
    | with_reducible refine Kept.ite (fun _ => ?_) (fun _ => ?_)
    | (extract_lets +onlyGivenNames x; refine ((fun hx => ?_) : Kept κ x → _) ?_; on_goal 1 => clear_value x; on_goal 2 => first | with_reducible refine Kept.ite (fun _ => ?_) (fun _ => ?_) | (unfold x; split) | skip)
    | extract_lets +onlyGivenNames x
    | with_reducible refine beginBackoff_inv ?_
    | with_reducible refine onRing_inv ?_
    | with_reducible refine useHeld_inv ?_
    | with_reducible refine Kept.getD ?_ ?_
    | with_reducible refine Kept.pair (by with_reducible assumption) ?_
    | fail_if_no_progress (with_reducible refine Kept.upd ?_ rfl rfl rfl)
    ))

theorem chainBeam_inv {beam : ℕ} {chan : ℕ} {stokes : ℕ} {s : State} (h : Kept κ s) : Kept κ (chainBeam beam chan stokes s) := by
  unfold chainBeam
  repeat (any_goals (first
    | with_reducible assumption
    | with_reducible refine Kept.ite (fun _ => ?_) (fun _ => ?_)
    | (extract_lets +onlyGivenNames x; refine ((fun hx => ?_) : Kept κ x → _) ?_; on_goal 1 => clear_value x; on_goal 2 => first | with_reducible refine Kept.ite (fun _ => ?_) (fun _ => ?_) | (unfold x; split) | skip)
    | extract_lets +onlyGivenNames x
    | with_reducible refine sendPower_inv ?_
    | with_reducible refine runChain_inv ?_
    | with_reducible refine releaseRange_inv ?_
    | split
    | fail_if_no_progress (with_reducible refine Kept.upd ?_ rfl rfl rfl)
    ))

theorem clkMonFault_inv {c : MonitoredClock} {s : State} (h : Kept κ s) : Kept κ (clkMonFault c s) := by
  unfold clkMonFault
  repeat (any_goals (first
    | with_reducible assumption
    | with_reducible refine Kept.ite (fun _ => ?_) (fun _ => ?_)
    | extract_lets +onlyGivenNames x
    | with_reducible refine stopDevice_inv ?_
    | with_reducible refine raise_inv ?_
    | with_reducible refine portClockLost_inv ?_
    | with_reducible refine linkEvent_inv ?_
    | split
    ))

theorem configurePart_inv {d : Desc} {s : State} (h : Kept κ s) : Kept κ (configurePart d s) := by
  unfold configurePart
  repeat (any_goals (first
    | with_reducible assumption
    | with_reducible refine Kept.ite (fun _ => ?_) (fun _ => ?_)
    | extract_lets +onlyGivenNames x
    | with_reducible refine complete_inv ?_
    | with_reducible refine setPart_inv ?_
    ))

theorem fwWrite_inv {d : Desc} {s : State} (h : Kept κ s) : Kept κ (fwWrite d s) := by
  unfold fwWrite
  repeat (any_goals (first
    | with_reducible assumption
    | extract_lets +onlyGivenNames x
    | with_reducible refine Kept.foldl (fun _ _ _ => ?_) ?_
    | with_reducible refine ledgerQueue_inv ?_
    ))

theorem markerLock_inv {n : ℕ} {s : State} (h : Kept κ s) : Kept κ (markerLock n s) := by
  unfold markerLock
  repeat (any_goals (first
    | with_reducible assumption
    | with_reducible refine Kept.ite (fun _ => ?_) (fun _ => ?_)
    | extract_lets +onlyGivenNames x
    | with_reducible refine laneEnter_inv ?_
    | with_reducible refine onLane_inv ?_
    | split
    ))

theorem stateTimeout_inv {n : ℕ} {s : State} (h : Kept κ s) : Kept κ (stateTimeout n s) := by
  unfold stateTimeout
  repeat (any_goals (first
    | with_reducible assumption
    | with_reducible refine Kept.ite (fun _ => ?_) (fun _ => ?_)
    | extract_lets +onlyGivenNames x
    | with_reducible refine laneEnter_inv ?_
    | with_reducible refine setRate_inv ?_
    | split
    ))

theorem auditTimeout_inv {s : State} (h : Kept κ s) : Kept κ (auditTimeout s) := by
  unfold auditTimeout
  repeat (any_goals (first
    | with_reducible assumption
    | extract_lets +onlyGivenNames x
    | with_reducible refine say_inv ?_
    | split
    | fail_if_no_progress (with_reducible refine Kept.upd ?_ rfl rfl rfl)
    ))

theorem ptpTx_inv {msg : PtpInterval} {sent : PcsStamp} {s : State} (h : Kept κ s) : Kept κ (ptpTx msg sent s) := by
  unfold ptpTx
  repeat (any_goals (first
    | with_reducible assumption
    | with_reducible refine Kept.ite (fun _ => ?_) (fun _ => ?_)
    | (extract_lets +onlyGivenNames x; refine ((fun hx => ?_) : Kept κ x → _) ?_; on_goal 1 => clear_value x; on_goal 2 => first | with_reducible refine Kept.ite (fun _ => ?_) (fun _ => ?_) | (unfold x; split) | skip)
    | extract_lets +onlyGivenNames x
    | with_reducible refine onPtp_inv ?_
    | with_reducible refine ptpExpire_inv ?_
    | with_reducible refine freeNat_inv ?_
    | with_reducible refine portFrame_inv ?_
    | with_reducible refine ptpEventTime_inv ?_
    | with_reducible refine ptpOffer_inv ?_
    | split
    ))

theorem qosAgeing_inv {k : ℕ} {serial : ℕ} {s : State} (h : Kept κ s) : Kept κ (qosAgeing k serial s) := by
  unfold qosAgeing
  repeat (any_goals (first
    | with_reducible assumption
    | extract_lets +onlyGivenNames x
    | with_reducible refine setTarget_inv ?_
    ))

theorem smbPower_inv {s : State} (h : Kept κ s) : Kept κ (smbPower s) := by
  unfold smbPower
  repeat (any_goals (first
    | with_reducible assumption
    | with_reducible refine Kept.ite (fun _ => ?_) (fun _ => ?_)
    | extract_lets +onlyGivenNames x
    | with_reducible refine freeNat_inv ?_
    | with_reducible refine emit_inv ?_
    ))

theorem statsRead_inv {d : Desc} {s : State} (h : Kept κ s) : Kept κ (statsRead d s) := by
  unfold statsRead
  repeat (any_goals (first
    | with_reducible assumption
    | extract_lets +onlyGivenNames x
    | with_reducible refine complete_inv ?_
    | with_reducible refine hostWrite_inv ?_
    | with_reducible refine setSysRing_inv ?_
    | split
    ))

theorem stwStop_inv {d : Desc} {s : State} (h : Kept κ s) : Kept κ (stwStop d s) := by
  unfold stwStop
  repeat (any_goals (first
    | with_reducible assumption
    | with_reducible refine Kept.ite (fun _ => ?_) (fun _ => ?_)
    | extract_lets +onlyGivenNames x
    | with_reducible refine setCore_inv (coreOf_shaped (by with_reducible assumption)) ?_
    | with_reducible refine stwStopNow_inv ?_
    ))

end Sys2Proof.Machine
end

