-- ==== Sys2Proof/Laws/InvExec.lean ====
section
/-!
SUPPORT. Every command keeps Kept: one lemma per meaning.
-/
set_option linter.unusedVariables false
set_option linter.tactic.unusedName false
set_option linter.unusedTactic false
set_option linter.unreachableTactic false
namespace Sys2Proof.Machine

variable {κ : List Instr × Fuses}

theorem actFrom_inv {m : Master} {f : State → State} {s : State} (hf : ∀ s, Kept κ s → Kept κ (f s)) (h : Kept κ s) :
    KeptNext κ (actFrom m f s) :=
  act_inv (fun _ hs => Kept.ite (fun _ => hs) (fun _ => hf _ hs)) h

theorem actBy_inv {m : Master} {f : State → State} {s : State} (hf : ∀ s, Kept κ s → Kept κ (f s)) (h : Kept κ s) :
    KeptNext κ (actBy m f s) :=
  actFrom_inv (fun _ hs => hf _ (Kept.ite (fun _ => dropLatch_inv hs) (fun _ => hs))) h

theorem jtagAct_inv {f : State → State} {s : State} (hf : ∀ s, Kept κ s → Kept κ (f s)) (h : Kept κ s) :
    KeptNext κ (jtagAct f s) :=
  KeptNext.next (Kept.ite (fun _ => hf s h) (fun _ => h))

theorem monAct_inv {f : State → State} {s : State} (hf : ∀ s, Kept κ s → Kept κ (f s)) (h : Kept κ s) :
    KeptNext κ (monAct f s) :=
  act_inv (fun _ hs => Kept.ite (fun _ => hf _ hs) (fun _ => hs)) h

theorem monOpen_inv {f : State → State} {s : State} (hf : ∀ s, Kept κ s → Kept κ (f s)) (h : Kept κ s) :
    KeptNext κ (monOpen f s) :=
  monAct_inv (fun _ hs => Kept.ite (fun _ => hf _ hs) (fun _ => say_inv hs)) h

theorem smbAnswer_inv {f : State → List Byte} {s : State} (h : Kept κ s) : KeptNext κ (smbAnswer f s) :=
  act_inv (fun _ hs => emit_inv hs) h

theorem execDmaDescFetched_inv {ch : Fin 32} {readOk : Bool} {s : State} (h : Kept κ s) : KeptNext κ (execDmaDescFetched ch readOk s) :=
  act_inv (fun _ h => dmaDescFetched_inv h) h

theorem execMonThrottleEnd_inv {s : State} (h : Kept κ s) : KeptNext κ (execMonThrottleEnd s) := by
  unfold execMonThrottleEnd
  repeat (any_goals (first
    | with_reducible assumption
    | with_reducible refine Kept.ite (fun _ => ?_) (fun _ => ?_)
    | exact KeptNext.fault
    | split
    | with_reducible refine KeptNext.next ?_
    | with_reducible refine act_inv (fun _ _ => ?_) ?_
    | with_reducible refine Kept.foldl (fun _ _ _ => ?_) ?_
    | with_reducible refine monStateRecord_inv ?_
    | with_reducible refine Kept.foldl_snd (fun _ _ _ => ?_) ?_
    | fail_if_no_progress (with_reducible refine Kept.upd ?_ rfl rfl rfl)
    ))

theorem execStwHalt_inv {core : Fin 8} {s : State} (h : Kept κ s) : KeptNext κ (execStwHalt core s) := by
  refine act_inv (fun s h => stwExec_inv (fun w s h => ?_) h) h
  have h' : Kept κ (stwAdvance core.val s) := stwAdvance_inv h
  exact Kept.ite (fun _ => h') (fun _ => raise_inv (setCore_inv (coreOf_shaped (c := core.val) h') h'))

theorem execShadowWindowEnd_inv {q : Fin 4} {s : State} (h : Kept κ s) : KeptNext κ (execShadowWindowEnd q s) := by
  unfold execShadowWindowEnd
  repeat (any_goals (first
    | with_reducible assumption
    | with_reducible refine Kept.ite (fun _ => ?_) (fun _ => ?_)
    | exact KeptNext.fault
    | split
    | with_reducible refine KeptNext.next ?_
    | with_reducible refine act_inv (fun _ _ => ?_) ?_
    | with_reducible refine Kept.foldl (fun _ _ _ => ?_) ?_
    | with_reducible refine onQuad_inv ?_
    | with_reducible refine tryEndWindow_inv ?_
    ))

theorem execDmaStartRegister_inv {m : Master} {ch : Fin 32} {value : Payload} {s : State} (h : Kept κ s) : KeptNext κ (execDmaStartRegister m ch value s) :=
  actBy_inv (fun _ h => dmaCtlWrite_inv h) h

theorem execRefSettleEnd_inv {s : State} (h : Kept κ s) : KeptNext κ (execRefSettleEnd s) := by
  unfold execRefSettleEnd
  repeat (any_goals (first
    | with_reducible assumption
    | with_reducible refine Kept.ite (fun _ => ?_) (fun _ => ?_)
    | exact KeptNext.fault
    | split
    | with_reducible refine KeptNext.next ?_
    | with_reducible refine act_inv (fun _ _ => ?_) ?_
    | with_reducible refine Kept.foldl (fun _ _ _ => ?_) ?_
    | with_reducible refine updateTimeq_inv ?_
    | with_reducible refine Kept.foldl_snd (fun _ _ _ => ?_) ?_
    | fail_if_no_progress (with_reducible refine Kept.upd ?_ rfl rfl rfl)
    ))

theorem execArmEffect_inv {s : State} (h : Kept κ s) : KeptNext κ (execArmEffect s) :=
  act_inv (fun _ h => armEffect_inv h) h

theorem execStwLdh_inv {core : Fin 8} {s : State} (h : Kept κ s) : KeptNext κ (execStwLdh core s) :=
  act_inv (fun _ h => stwPlain_inv (fun _ _ h => Core.setReg_shaped h) h) h

theorem execStwCall_inv {core : Fin 8} {s : State} (h : Kept κ s) : KeptNext κ (execStwCall core s) := by
  refine act_inv (fun s h => stwExec_inv (fun w s h => ?_) h) h
  have hx := coreOf_shaped (c := core.val) h
  refine Kept.ite (fun _ => stwAdvance_inv h) (fun _ => Kept.ite (fun _ => stwFault_inv h) (fun hl => ?_))
  refine stwJump_inv (bitsOf_lt (by decide)) (setCore_inv ⟨hx.1, ?_, hx.2.2.1, hx.2.2.2.1, ?_, hx.2.2.2.2.2⟩ h)
  · simp only [List.length_cons]; omega
  · intro r hr
    rcases List.mem_cons.1 hr with e | e
    · rw [e]; exact Nat.mod_lt _ (by decide)
    · exact hx.2.2.2.2.1 r e

theorem execJtagClamp_inv {s : State} (h : Kept κ s) : KeptNext κ (execJtagClamp s) :=
  jtagAct_inv (fun _ h => h.upd rfl rfl rfl) h

theorem execStwMpy_inv {core : Fin 8} {s : State} (h : Kept κ s) : KeptNext κ (execStwMpy core s) :=
  act_inv (fun _ h => stwPlain_inv (fun _ _ h => Core.f3Loads_shaped (Core.putAcc_shaped h)) h) h

theorem execStwPopc_inv {core : Fin 8} {s : State} (h : Kept κ s) : KeptNext κ (execStwPopc core s) :=
  act_inv (fun _ h => stwPlain_inv (fun _ _ h => Core.putZ_shaped h) h) h

theorem execSysResetWrite_inv {m : Master} {value : Payload} {s : State} (h : Kept κ s) : KeptNext κ (execSysResetWrite m value s) :=
  actBy_inv (fun _ h => sysResetWrite_inv h) h

theorem execStwAsr_inv {core : Fin 8} {s : State} (h : Kept κ s) : KeptNext κ (execStwAsr core s) :=
  act_inv (fun _ h => stwPlain_inv (fun _ _ h => Core.putZn_shaped h) h) h

theorem execConfigScan_inv {mismatches : List ConfigBlock} {s : State} (h : Kept κ s) : KeptNext κ (execConfigScan mismatches s) :=
  act_inv (fun _ h => configScan_inv h) h

theorem execBellFrameLaunch_inv {ring : BellRing} {sent : RawStamp} {s : State} (h : Kept κ s) : KeptNext κ (execBellFrameLaunch ring sent s) :=
  act_inv (fun _ h => bellFrameLaunch_inv h) h

theorem execSmbReadOutage_inv {s : State} (h : Kept κ s) : KeptNext κ (execSmbReadOutage s) :=
  smbAnswer_inv h

theorem execVoltageRecovered_inv {s : State} (h : Kept κ s) : KeptNext κ (execVoltageRecovered s) :=
  act_inv (fun _ h => voltageRecovered_inv h) h

theorem execBellDeadTimeout_inv {ring : BellRing} {unit : BitVec 14} {s : State} (h : Kept κ s) : KeptNext κ (execBellDeadTimeout ring unit s) := by
  unfold execBellDeadTimeout
  repeat (any_goals (first
    | with_reducible assumption
    | with_reducible refine Kept.ite (fun _ => ?_) (fun _ => ?_)
    | exact KeptNext.fault
    | split
    | with_reducible refine KeptNext.next ?_
    | with_reducible refine act_inv (fun _ _ => ?_) ?_
    | with_reducible refine Kept.foldl (fun _ _ _ => ?_) ?_
    | with_reducible refine deadTimeout_inv ?_
    ))

theorem execTdcGo_inv {m : Master} {value : Payload} {s : State} (h : Kept κ s) : KeptNext κ (execTdcGo m value s) :=
  actBy_inv (fun _ h => timeTdcCtlWrite_inv h) h

theorem execTimeRefLost_inv {ref : RefInput} {s : State} (h : Kept κ s) : KeptNext κ (execTimeRefLost ref s) :=
  act_inv (fun _ h => timeRefLost_inv h) h

theorem execStwMovp_inv {core : Fin 8} {s : State} (h : Kept κ s) : KeptNext κ (execStwMovp core s) := by
  unfold execStwMovp
  repeat (any_goals (first
    | with_reducible assumption
    | with_reducible refine Core.setReg_shaped ?_
    | with_reducible refine Core.setAddrReg_shaped ?_
    | with_reducible refine Kept.ite (fun _ => ?_) (fun _ => ?_)
    | exact KeptNext.fault
    | split
    | with_reducible refine KeptNext.next ?_
    | with_reducible refine act_inv (fun _ _ => ?_) ?_
    | with_reducible refine Kept.foldl (fun _ _ _ => ?_) ?_
    | with_reducible refine stwPlain_inv (fun _ _ hx => ?_) ?_
    ))

theorem execPcieD3hot_inv {s : State} (h : Kept κ s) : KeptNext κ (execPcieD3hot s) := by
  unfold execPcieD3hot
  repeat (any_goals (first
    | with_reducible assumption
    | with_reducible refine Kept.ite (fun _ => ?_) (fun _ => ?_)
    | exact KeptNext.fault
    | split
    | with_reducible refine KeptNext.next ?_
    | with_reducible refine act_inv (fun _ _ => ?_) ?_
    | with_reducible refine Kept.foldl (fun _ _ _ => ?_) ?_
    | with_reducible refine enterStandby_inv ?_
    | with_reducible refine Kept.foldl_snd (fun _ _ _ => ?_) ?_
    | fail_if_no_progress (with_reducible refine Kept.upd ?_ rfl rfl rfl)
    ))

theorem execHifPollTick_inv {s : State} (h : Kept κ s) : KeptNext κ (execHifPollTick s) :=
  act_inv (fun _ h => pollTick_inv h) h

theorem execCapturePacketSend_inv {crib : Fin 4} {s : State} (h : Kept κ s) : KeptNext κ (execCapturePacketSend crib s) :=
  act_inv (fun _ h => capturePacketSend_inv h) h

theorem execMonRd_inv {offset : BitVec 24} {s : State} (h : Kept κ s) : KeptNext κ (execMonRd offset s) := by
  unfold execMonRd
  repeat (any_goals (first
    | with_reducible assumption
    | with_reducible refine Kept.ite (fun _ => ?_) (fun _ => ?_)
    | exact KeptNext.fault
    | split
    | with_reducible refine KeptNext.next ?_
    | with_reducible refine monOpen_inv (fun _ _ => ?_) ?_
    | with_reducible refine Kept.foldl (fun _ _ _ => ?_) ?_
    | with_reducible refine timeNowLatch_inv ?_
    | with_reducible refine say_inv ?_
    ))

theorem execMmioUnsupported_inv {a : BarAccess} {s : State} (h : Kept κ s) : KeptNext κ (execMmioUnsupported a s) :=
  actFrom_inv (fun _ h => mmioAccess_inv h) h

theorem execStwInterruptEntry_inv {core : Fin 8} {s : State} (h : Kept κ s) : KeptNext κ (execStwInterruptEntry core s) := by
  refine act_inv (fun s h => ?_) h
  have hx := coreOf_shaped (c := core.val) h
  dsimp only
  split
  · exact h
  · rename_i k e
    have hk : k < 4 := by
      split at e
      · cases e
      · exact takeable_lt e
    exact setCore_inv ⟨hx.1, hx.2.1, hx.2.2.1, show 4 * (k + 1) < 16384 by omega, hx.2.2.2.2.1, hx.2.2.2.1, hx.2.2.2.2.2.2⟩ h

theorem execRoleAssign_inv {tag : BitVec 17} {s : State} (h : Kept κ s) : KeptNext κ (execRoleAssign tag s) := by
  unfold execRoleAssign
  repeat (any_goals (first
    | with_reducible assumption
    | with_reducible refine Kept.ite (fun _ => ?_) (fun _ => ?_)
    | exact KeptNext.fault
    | split
    | with_reducible refine KeptNext.next ?_
    | with_reducible refine act_inv (fun _ _ => ?_) ?_
    | with_reducible refine Kept.foldl (fun _ _ _ => ?_) ?_
    | with_reducible refine runDesc_inv (fun _ _ _ => ?_) ?_
    | with_reducible refine complete_inv ?_
    | with_reducible refine assignRole_inv ?_
    ))

theorem execStwRet_inv {core : Fin 8} {s : State} (h : Kept κ s) : KeptNext κ (execStwRet core s) := by
  refine act_inv (fun s h => stwExec_inv (fun w s h => ?_) h) h
  have hx := coreOf_shaped (c := core.val) h
  refine Kept.ite (fun _ => stwAdvance_inv h) (fun _ => ?_)
  split
  · exact stwFault_inv h
  · rename_i r rest e
    have hl := hx.2.1
    have hm := hx.2.2.2.2.1
    rw [e] at hl hm
    refine stwJump_inv (hm r (by simp)) (setCore_inv ⟨hx.1, ?_, hx.2.2.1, hx.2.2.2.1, ?_, hx.2.2.2.2.2⟩ h)
    · simp only [List.length_cons] at hl; dsimp only; omega
    · exact fun q hq => hm q (List.mem_cons_of_mem _ hq)

theorem execBellSlotReceive_inv {lane : Fin 4} {slot : Fin 128} {line : List ℕ} {s : State} (h : Kept κ s) : KeptNext κ (execBellSlotReceive lane slot line s) := by
  unfold execBellSlotReceive
  repeat (any_goals (first
    | with_reducible assumption
    | with_reducible refine Kept.ite (fun _ => ?_) (fun _ => ?_)
    | exact KeptNext.fault
    | split
    | with_reducible refine KeptNext.next ?_
    | with_reducible refine act_inv (fun _ _ => ?_) ?_
    | with_reducible refine Kept.foldl (fun _ _ _ => ?_) ?_
    | with_reducible refine bellSlotLine_inv ?_
    ))

theorem execStwMva_inv {core : Fin 8} {s : State} (h : Kept κ s) : KeptNext κ (execStwMva core s) :=
  act_inv (fun _ h => stwPlain_inv (fun _ _ h => Core.mvaOf_shaped h) h) h

theorem execBellArmRecord_inv {lane : Fin 4} {rec : List Byte} {s : State} (h : Kept κ s) : KeptNext κ (execBellArmRecord lane rec s) := by
  unfold execBellArmRecord
  repeat (any_goals (first
    | with_reducible assumption
    | with_reducible refine Kept.ite (fun _ => ?_) (fun _ => ?_)
    | exact KeptNext.fault
    | split
    | with_reducible refine KeptNext.next ?_
    | with_reducible refine act_inv (fun _ _ => ?_) ?_
    | with_reducible refine Kept.foldl (fun _ _ _ => ?_) ?_
    | with_reducible refine receiveRec_inv (fun _ _ => ?_) ?_
    | with_reducible refine armRecord_inv ?_
    ))

theorem execStwAdd_inv {core : Fin 8} {s : State} (h : Kept κ s) : KeptNext κ (execStwAdd core s) :=
  act_inv (fun _ h => stwPlain_inv (fun _ _ h => Core.addOf_shaped h) h) h

theorem execStwAnd_inv {core : Fin 8} {s : State} (h : Kept κ s) : KeptNext κ (execStwAnd core s) :=
  act_inv (fun _ h => stwPlain_inv (fun _ _ h => Core.putLogic_shaped h) h) h

theorem execMonSyntax_inv {_length : ℕ} {s : State} (h : Kept κ s) : KeptNext κ (execMonSyntax _length s) :=
  monAct_inv (fun _ h => say_inv h) h

theorem execRefGateEnd_inv {gate : RefGate} {s : State} (h : Kept κ s) : KeptNext κ (execRefGateEnd gate s) :=
  act_inv (fun _ h => refGateEnd_inv h) h

theorem execStwLd_inv {core : Fin 8} {s : State} (h : Kept κ s) : KeptNext κ (execStwLd core s) :=
  act_inv (fun _ h => stwPlain_inv (fun _ _ h => Core.postMod_shaped (Core.setReg_shaped h)) h) h

theorem execStwNorm_inv {core : Fin 8} {s : State} (h : Kept κ s) : KeptNext κ (execStwNorm core s) :=
  act_inv (fun _ h => stwPlain_inv (fun _ _ h => Core.putZ_shaped h) h) h

theorem execSplitWriteHigh_inv {offset : BitVec 26} {value : BitVec 32} {s : State} (h : Kept κ s) : KeptNext κ (execSplitWriteHigh offset value s) := by
  unfold execSplitWriteHigh
  repeat (any_goals (first
    | with_reducible assumption
    | with_reducible refine Kept.ite (fun _ => ?_) (fun _ => ?_)
    | exact KeptNext.fault
    | split
    | with_reducible refine KeptNext.next ?_
    | with_reducible refine actFrom_inv (fun _ _ => ?_) ?_
    | with_reducible refine Kept.foldl (fun _ _ _ => ?_) ?_
    | with_reducible refine splitHigh_inv ?_
    ))

theorem execHarvestBatch_inv {p : Fin 8} {ord : ℕ} {issueBuffer : ℕ} {s : State} (h : Kept κ s) : KeptNext κ (execHarvestBatch p ord issueBuffer s) :=
  act_inv (fun _ h => harvestBatch_inv h) h

theorem execRoleBeaconTimer_inv {s : State} (h : Kept κ s) : KeptNext κ (execRoleBeaconTimer s) := by
  unfold execRoleBeaconTimer
  repeat (any_goals (first
    | with_reducible assumption
    | with_reducible refine Kept.ite (fun _ => ?_) (fun _ => ?_)
    | exact KeptNext.fault
    | split
    | with_reducible refine KeptNext.next ?_
    | with_reducible refine act_inv (fun _ _ => ?_) ?_
    | with_reducible refine Kept.foldl (fun _ _ _ => ?_) ?_
    | with_reducible refine originate_inv ?_
    ))

theorem execVirosTrainFrame_inv {lane : Lane} {train : TrainFrame} {s : State} (h : Kept κ s) : KeptNext κ (execVirosTrainFrame lane train s) :=
  act_inv (fun _ h => trainFrame_inv h) h

theorem execStwMac_inv {core : Fin 8} {s : State} (h : Kept κ s) : KeptNext κ (execStwMac core s) :=
  act_inv (fun _ h => stwPlain_inv (fun _ _ h => Core.f3Loads_shaped (Core.putAcc_shaped h)) h) h

theorem execStwWait_inv {core : Fin 8} {s : State} (h : Kept κ s) : KeptNext κ (execStwWait core s) := by
  refine act_inv (fun s h => stwExec_inv (fun w s h => ?_) h) h
  refine onCore_inv (fun x hx => ?_) (stwAdvance_inv h)
  split
  · exact hx
  · exact hx

theorem execBatchWindowExpire_inv {p : Fin 8} {ord : ℕ} {s : State} (h : Kept κ s) : KeptNext κ (execBatchWindowExpire p ord s) :=
  act_inv (fun _ h => windowExpire_inv h) h

theorem execPpsOutPulse_inv {stamp : RawStamp} {s : State} (h : Kept κ s) : KeptNext κ (execPpsOutPulse stamp s) :=
  act_inv (fun _ h => ppsOutPulse_inv h) h

theorem execStwXferRead_inv {core : Fin 8} {s : State} (h : Kept κ s) : KeptNext κ (execStwXferRead core s) := by
  unfold execStwXferRead
  repeat (any_goals (first
    | with_reducible assumption
    | with_reducible refine Kept.ite (fun _ => ?_) (fun _ => ?_)
    | exact KeptNext.fault
    | split
    | with_reducible refine KeptNext.next ?_
    | with_reducible refine act_inv (fun _ _ => ?_) ?_
    | with_reducible refine Kept.foldl (fun _ _ _ => ?_) ?_
    | with_reducible refine runXfer_inv (fun _ _ _ _ => ?_) ?_
    | with_reducible refine xferRead_inv ?_
    ))

theorem execTableWrite_inv {tag : BitVec 17} {readOk : Bool} {s : State} (h : Kept κ s) : KeptNext κ (execTableWrite tag readOk s) := by
  unfold execTableWrite
  repeat (any_goals (first
    | with_reducible assumption
    | with_reducible refine Kept.ite (fun _ => ?_) (fun _ => ?_)
    | exact KeptNext.fault
    | split
    | with_reducible refine KeptNext.next ?_
    | with_reducible refine act_inv (fun _ _ => ?_) ?_
    | with_reducible refine Kept.foldl (fun _ _ _ => ?_) ?_
    | with_reducible refine tableWrite_inv ?_
    | with_reducible refine runDesc_inv (fun _ _ _ => ?_) ?_
    ))

theorem execFabMasterDrained_inv {cls : MasterClass} {s : State} (h : Kept κ s) : KeptNext κ (execFabMasterDrained cls s) :=
  act_inv (fun _ h => masterDrained_inv h) h

theorem execDeviceReset_inv {s : State} (h : Kept κ s) : KeptNext κ (execDeviceReset s) := by
  unfold execDeviceReset
  repeat (any_goals (first
    | with_reducible assumption
    | with_reducible refine Kept.ite (fun _ => ?_) (fun _ => ?_)
    | exact KeptNext.fault
    | split
    | with_reducible refine KeptNext.next ?_
    | with_reducible refine act_inv (fun _ _ => ?_) ?_
    | with_reducible refine Kept.foldl (fun _ _ _ => ?_) ?_
    | with_reducible refine deviceReset_inv ?_
    ))

theorem execBaud_inv {index : ℕ} {s : State} (h : Kept κ s) : KeptNext κ (execBaud index s) :=
  monOpen_inv (fun _ h => Kept.ite (fun _ => say_inv h) (fun _ => auditThen_inv h)) h

theorem execOutageCommitTimer_inv {s : State} (h : Kept κ s) : KeptNext κ (execOutageCommitTimer s) :=
  act_inv (fun _ h => ledgerQueue_inv h) h

theorem execBankCommitApply_inv {p : Fin 8} {s : State} (h : Kept κ s) : KeptNext κ (execBankCommitApply p s) := by
  unfold execBankCommitApply
  repeat (any_goals (first
    | with_reducible assumption
    | with_reducible refine Kept.ite (fun _ => ?_) (fun _ => ?_)
    | exact KeptNext.fault
    | split
    | with_reducible refine KeptNext.next ?_
    | with_reducible refine act_inv (fun _ _ => ?_) ?_
    | with_reducible refine Kept.foldl (fun _ _ _ => ?_) ?_
    | with_reducible refine applyCommit_inv ?_
    ))

theorem execStandbyExitRequest_inv {m : Master} {value : Payload} {s : State} (h : Kept κ s) : KeptNext κ (execStandbyExitRequest m value s) :=
  actBy_inv (fun _ h => sysPowerWrite_inv h) h

theorem execTimeQuality_inv {tag : BitVec 17} {s : State} (h : Kept κ s) : KeptNext κ (execTimeQuality tag s) := by
  unfold execTimeQuality
  repeat (any_goals (first
    | with_reducible assumption
    | with_reducible refine Kept.ite (fun _ => ?_) (fun _ => ?_)
    | exact KeptNext.fault
    | split
    | with_reducible refine KeptNext.next ?_
    | with_reducible refine act_inv (fun _ _ => ?_) ?_
    | with_reducible refine Kept.foldl (fun _ _ _ => ?_) ?_
    | with_reducible refine runDesc_inv (fun _ _ _ => ?_) ?_
    | with_reducible refine complete_inv ?_
    | with_reducible refine updateTimeq_inv ?_
    | with_reducible refine Kept.foldl_snd (fun _ _ _ => ?_) ?_
    | fail_if_no_progress (with_reducible refine Kept.upd ?_ rfl rfl rfl)
    ))

theorem execStwShr_inv {core : Fin 8} {s : State} (h : Kept κ s) : KeptNext κ (execStwShr core s) :=
  act_inv (fun _ h => stwPlain_inv (fun _ _ h => Core.putZn_shaped h) h) h

theorem execStwXferCommit_inv {core : Fin 8} {s : State} (h : Kept κ s) : KeptNext κ (execStwXferCommit core s) := by
  unfold execStwXferCommit
  repeat (any_goals (first
    | with_reducible assumption
    | with_reducible refine Kept.ite (fun _ => ?_) (fun _ => ?_)
    | exact KeptNext.fault
    | split
    | with_reducible refine KeptNext.next ?_
    | with_reducible refine act_inv (fun _ _ => ?_) ?_
    | with_reducible refine Kept.foldl (fun _ _ _ => ?_) ?_
    | with_reducible refine runXfer_inv (fun _ _ _ _ => ?_) ?_
    | with_reducible refine commitBank_inv ?_
    | with_reducible refine xferResult_inv ?_
    ))

theorem execStat_inv {s : State} (h : Kept κ s) : KeptNext κ (execStat s) :=
  monAct_inv (fun _ h => say_inv h) h

theorem execSweepTimerExpire_inv {p : Fin 8} {chan : Fin 16384} {s : State} (h : Kept κ s) : KeptNext κ (execSweepTimerExpire p chan s) :=
  act_inv (fun _ h => Kept.ite (fun _ => sweepChannel_inv h) (fun _ => h)) h

theorem execTsqClrDrops_inv {m : Master} {value : Payload} {s : State} (h : Kept κ s) : KeptNext κ (execTsqClrDrops m value s) :=
  actBy_inv (fun _ h => timeTsqCfgWrite_inv h) h

theorem execAttnClrWithheld_inv {m : Master} {value : Payload} {s : State} (h : Kept κ s) : KeptNext κ (execAttnClrWithheld m value s) :=
  actBy_inv (fun _ h => attnClr_inv h) h

theorem execStwLoad_inv {tag : BitVec 17} {wordsRead : ℕ} {s : State} (h : Kept κ s) : KeptNext κ (execStwLoad tag wordsRead s) := by
  unfold execStwLoad
  repeat (any_goals (first
    | with_reducible assumption
    | with_reducible refine Kept.ite (fun _ => ?_) (fun _ => ?_)
    | exact KeptNext.fault
    | split
    | with_reducible refine KeptNext.next ?_
    | with_reducible refine act_inv (fun _ _ => ?_) ?_
    | with_reducible refine Kept.foldl (fun _ _ _ => ?_) ?_
    | with_reducible refine stwLoad_inv ?_
    | with_reducible refine runDesc_inv (fun _ _ _ => ?_) ?_
    ))

theorem execDepReeveRestarted_inv {s : State} (h : Kept κ s) : KeptNext κ (execDepReeveRestarted s) :=
  act_inv (fun _ h => reeveRestarted_inv h) h

theorem execPerstN_inv {s : State} (h : Kept κ s) : KeptNext κ (execPerstN s) :=
  act_inv (fun _ h => resetHif_inv (linkEvent_inv h)) h

theorem execStwShl_inv {core : Fin 8} {s : State} (h : Kept κ s) : KeptNext κ (execStwShl core s) :=
  act_inv (fun _ h => stwPlain_inv (fun _ _ h => Core.put_shaped h) h) h

theorem execPpsInEdge_inv {stamp : RawStamp} {s : State} (h : Kept κ s) : KeptNext κ (execPpsInEdge stamp s) :=
  act_inv (fun _ h => ppsInEdge_inv h) h

theorem execIngTableInval_inv {m : Master} {value : Payload} {s : State} (h : Kept κ s) : KeptNext κ (execIngTableInval m value s) :=
  actBy_inv (fun _ h => tableInval_inv h) h

theorem execBellCfgWrite_inv {m : Master} {value : Payload} {s : State} (h : Kept κ s) : KeptNext κ (execBellCfgWrite m value s) :=
  actBy_inv (fun _ h => bellCfgWrite_inv h) h

theorem execDmaBurstWriteAck_inv {ch : Fin 32} {writeOk : Bool} {s : State} (h : Kept κ s) : KeptNext κ (execDmaBurstWriteAck ch writeOk s) :=
  act_inv (fun _ h => dmaWriteAck_inv h) h

theorem execStwIllegal_inv {core : Fin 8} {memUe : Bool} {s : State} (h : Kept κ s) : KeptNext κ (execStwIllegal core memUe s) := by
  unfold execStwIllegal
  repeat (any_goals (first
    | with_reducible assumption
    | with_reducible refine Kept.ite (fun _ => ?_) (fun _ => ?_)
    | exact KeptNext.fault
    | split
    | with_reducible refine KeptNext.next ?_
    | with_reducible refine act_inv (fun _ _ => ?_) ?_
    | with_reducible refine Kept.foldl (fun _ _ _ => ?_) ?_
    | with_reducible refine sramError_inv ?_
    | with_reducible refine stwFault_inv ?_
    | with_reducible refine stwBoundary_inv ?_
    ))

theorem execWeightSynthesis_inv {p : Fin 8} {ord : ℕ} {s : State} (h : Kept κ s) : KeptNext κ (execWeightSynthesis p ord s) :=
  act_inv (fun _ h => weightSynthesis_inv h) h

theorem execStart_inv {tag : BitVec 17} {s : State} (h : Kept κ s) : KeptNext κ (execStart tag s) := by
  unfold execStart
  repeat (any_goals (first
    | with_reducible assumption
    | with_reducible refine Kept.ite (fun _ => ?_) (fun _ => ?_)
    | exact KeptNext.fault
    | split
    | with_reducible refine KeptNext.next ?_
    | with_reducible refine act_inv (fun _ _ => ?_) ?_
    | with_reducible refine Kept.foldl (fun _ _ _ => ?_) ?_
    | with_reducible refine startPart_inv ?_
    | with_reducible refine runDesc_inv (fun _ _ _ => ?_) ?_
    ))

theorem execUnlk_inv {response : BitVec 32} {s : State} (h : Kept κ s) : KeptNext κ (execUnlk response s) :=
  monAct_inv (fun _ h => unlk_inv h) h

theorem execBellBackoffEnd_inv {ring : BellRing} {s : State} (h : Kept κ s) : KeptNext κ (execBellBackoffEnd ring s) := by
  unfold execBellBackoffEnd
  repeat (any_goals (first
    | with_reducible assumption
    | with_reducible refine Kept.ite (fun _ => ?_) (fun _ => ?_)
    | exact KeptNext.fault
    | split
    | with_reducible refine KeptNext.next ?_
    | with_reducible refine act_inv (fun _ _ => ?_) ?_
    | with_reducible refine Kept.foldl (fun _ _ _ => ?_) ?_
    | with_reducible refine showBell_inv ?_
    | with_reducible refine backoffEnd_inv ?_
    ))

theorem execBankCommit_inv {tag : BitVec 17} {s : State} (h : Kept κ s) : KeptNext κ (execBankCommit tag s) := by
  unfold execBankCommit
  repeat (any_goals (first
    | with_reducible assumption
    | with_reducible refine Kept.ite (fun _ => ?_) (fun _ => ?_)
    | exact KeptNext.fault
    | split
    | with_reducible refine KeptNext.next ?_
    | with_reducible refine act_inv (fun _ _ => ?_) ?_
    | with_reducible refine Kept.foldl (fun _ _ _ => ?_) ?_
    | with_reducible refine commitBank_inv ?_
    | with_reducible refine runDesc_inv (fun _ _ _ => ?_) ?_
    | with_reducible refine complete_inv ?_
    ))

theorem execBellDeadRecord_inv {lane : Fin 4} {rec : List Byte} {s : State} (h : Kept κ s) : KeptNext κ (execBellDeadRecord lane rec s) := by
  unfold execBellDeadRecord
  repeat (any_goals (first
    | with_reducible assumption
    | with_reducible refine Kept.ite (fun _ => ?_) (fun _ => ?_)
    | exact KeptNext.fault
    | split
    | with_reducible refine KeptNext.next ?_
    | with_reducible refine act_inv (fun _ _ => ?_) ?_
    | with_reducible refine Kept.foldl (fun _ _ _ => ?_) ?_
    | with_reducible refine receiveRec_inv (fun _ _ => ?_) ?_
    | with_reducible refine raise_inv ?_
    ))

theorem execDmaBurstReadDone_inv {ch : Fin 32} {readOk : Bool} {s : State} (h : Kept κ s) : KeptNext κ (execDmaBurstReadDone ch readOk s) :=
  act_inv (fun _ h => dmaReadDone_inv h) h

theorem execEthLinkUp_inv {g : Fin 8} {rsFec : Bool} {s : State} (h : Kept κ s) : KeptNext κ (execEthLinkUp g rsFec s) := by
  unfold execEthLinkUp
  repeat (any_goals (first
    | with_reducible assumption
    | with_reducible refine Kept.ite (fun _ => ?_) (fun _ => ?_)
    | exact KeptNext.fault
    | split
    | with_reducible refine KeptNext.next ?_
    | with_reducible refine act_inv (fun _ _ => ?_) ?_
    | with_reducible refine Kept.foldl (fun _ _ _ => ?_) ?_
    | with_reducible refine ethLinkUp_inv ?_
    ))

theorem execJtagTestLogicReset_inv {s : State} (h : Kept κ s) : KeptNext κ (execJtagTestLogicReset s) :=
  jtagAct_inv (fun _ h => h.upd rfl rfl rfl) h

theorem execSmbReadTemps_inv {s : State} (h : Kept κ s) : KeptNext κ (execSmbReadTemps s) :=
  smbAnswer_inv h

theorem execPorNAssert_inv {s : State} (h : Kept κ s) : KeptNext κ (execPorNAssert s) :=
  KeptNext.next (porAssert_inv h)

theorem execHifRingCfgWrite_inv {m : Master} {ring : Fin 16384} {which : RingRegister} {value : Payload} {s : State} (h : Kept κ s) : KeptNext κ (execHifRingCfgWrite m ring which value s) :=
  actBy_inv (fun _ h => ringWrite_inv h) h

theorem execStwRti_inv {core : Fin 8} {s : State} (h : Kept κ s) : KeptNext κ (execStwRti core s) := by
  refine act_inv (fun s h => stwExec_inv (fun w s h => ?_) h) h
  have hx := coreOf_shaped (c := core.val) h
  exact stwJump_inv hx.2.2.2.2.2.1 (setCore_inv hx h)

theorem execLaneBellCfgWrite_inv {m : Master} {value : Payload} {s : State} (h : Kept κ s) : KeptNext κ (execLaneBellCfgWrite m value s) :=
  actBy_inv (fun _ h => laneBellCfgWrite_inv h) h

theorem execRegionRotate_inv {p : Fin 8} {ecc : Option RotateError} {s : State} (h : Kept κ s) : KeptNext κ (execRegionRotate p ecc s) :=
  act_inv (fun _ h => regionRotate_inv h) h

theorem execStwLdi_inv {core : Fin 8} {s : State} (h : Kept κ s) : KeptNext κ (execStwLdi core s) :=
  act_inv (fun _ h => stwPlain_inv (fun _ _ h => Core.setReg_shaped h) h) h

theorem execVirosIdleTimer_inv {g : Fin 8} {s : State} (h : Kept κ s) : KeptNext κ (execVirosIdleTimer g s) :=
  act_inv (fun _ h => Kept.ite (fun _ => sendCtrl_inv h) (fun _ => h)) h

theorem execDetRangeSet_inv {m : Master} {value : Payload} {s : State} (h : Kept κ s) : KeptNext κ (execDetRangeSet m value s) :=
  actBy_inv (fun _ h => detRange_inv h) h

theorem execSettleEnd_inv {crib : Fin 4} {s : State} (h : Kept κ s) : KeptNext κ (execSettleEnd crib s) :=
  act_inv (fun _ h => settleEnd_inv h) h

theorem execPowerLoss_inv {s : State} (h : Kept κ s) : KeptNext κ (execPowerLoss s) :=
  KeptNext.next (powerLoss_inv h)

theorem execTrigInEdge_inv {stamp : RawStamp} {s : State} (h : Kept κ s) : KeptNext κ (execTrigInEdge stamp s) :=
  act_inv (fun _ h => trigInEdge_inv h) h

theorem execStwTimerExpire_inv {core : Fin 8} {s : State} (h : Kept κ s) : KeptNext κ (execStwTimerExpire core s) := by
  unfold execStwTimerExpire
  repeat (any_goals (first
    | with_reducible assumption
    | with_reducible refine Core.pend_shaped ?_
    | with_reducible refine Kept.ite (fun _ => ?_) (fun _ => ?_)
    | exact KeptNext.fault
    | split
    | with_reducible refine KeptNext.next ?_
    | with_reducible refine act_inv (fun _ _ => ?_) ?_
    | with_reducible refine Kept.foldl (fun _ _ _ => ?_) ?_
    | with_reducible refine onCore_inv (fun _ hx => ?_) ?_
    ))

theorem execStandbyExitDone_inv {s : State} (h : Kept κ s) : KeptNext κ (execStandbyExitDone s) :=
  act_inv (fun _ h => standbyExitDone_inv h) h

theorem execCaptureConfigApply_inv {s : State} (h : Kept κ s) : KeptNext κ (execCaptureConfigApply s) :=
  act_inv (fun _ h => captureApply_inv h) h

theorem execStwXferWrite_inv {core : Fin 8} {s : State} (h : Kept κ s) : KeptNext κ (execStwXferWrite core s) := by
  unfold execStwXferWrite
  repeat (any_goals (first
    | with_reducible assumption
    | with_reducible refine Kept.ite (fun _ => ?_) (fun _ => ?_)
    | exact KeptNext.fault
    | split
    | with_reducible refine KeptNext.next ?_
    | with_reducible refine act_inv (fun _ _ => ?_) ?_
    | with_reducible refine Kept.foldl (fun _ _ _ => ?_) ?_
    | with_reducible refine runXfer_inv (fun _ _ _ _ => ?_) ?_
    | with_reducible refine writeXfer_inv ?_
    | with_reducible refine xferResult_inv ?_
    ))

theorem execOutageTick_inv {s : State} (h : Kept κ s) : KeptNext κ (execOutageTick s) :=
  act_inv (fun _ h => outageTick_inv h) h

theorem execFabricGrant_inv {port : FabTarget} {arrivals : List FabArrival} {parity : Bool} {s : State} (h : Kept κ s) : KeptNext κ (execFabricGrant port arrivals parity s) := by
  unfold execFabricGrant
  repeat (any_goals (first
    | with_reducible assumption
    | with_reducible refine Kept.ite (fun _ => ?_) (fun _ => ?_)
    | exact KeptNext.fault
    | split
    | with_reducible refine KeptNext.next ?_
    | with_reducible refine act_inv (fun _ _ => ?_) ?_
    | with_reducible refine Kept.foldl (fun _ _ _ => ?_) ?_
    | with_reducible refine fabricGrant_inv ?_
    ))

theorem execStwLda_inv {core : Fin 8} {s : State} (h : Kept κ s) : KeptNext κ (execStwLda core s) :=
  act_inv (fun _ h => stwPlain_inv (fun _ _ h => Core.ldaOf_shaped h) h) h

theorem execStop_inv {tag : BitVec 17} {s : State} (h : Kept κ s) : KeptNext κ (execStop tag s) := by
  unfold execStop
  repeat (any_goals (first
    | with_reducible assumption
    | with_reducible refine Kept.ite (fun _ => ?_) (fun _ => ?_)
    | exact KeptNext.fault
    | split
    | with_reducible refine KeptNext.next ?_
    | with_reducible refine act_inv (fun _ _ => ?_) ?_
    | with_reducible refine Kept.foldl (fun _ _ _ => ?_) ?_
    | with_reducible refine onPart_inv ?_
    | with_reducible refine runDesc_inv (fun _ _ _ => ?_) ?_
    | with_reducible refine complete_inv ?_
    ))

theorem execEthLinkLoss_inv {g : Fin 8} {s : State} (h : Kept κ s) : KeptNext κ (execEthLinkLoss g s) :=
  act_inv (fun _ h => ethLinkLoss_inv h) h

theorem execPorNRelease_inv {s : State} (h : Kept κ s) : KeptNext κ (execPorNRelease s) :=
  KeptNext.next (h.upd rfl rfl rfl)

theorem execVirosNegFrame_inv {lane : Lane} {neg : NegFrame} {s : State} (h : Kept κ s) : KeptNext κ (execVirosNegFrame lane neg s) :=
  act_inv (fun _ h => negFrame_inv h) h

theorem execPcieLinkReset_inv {kind : LinkReset} {s : State} (h : Kept κ s) : KeptNext κ (execPcieLinkReset kind s) :=
  act_inv (fun _ h => linkEvent_inv h) h

theorem execVirosCtrlFrame_inv {l : Fin 64} {line : List ℕ} {lowPower : LowPowerRequest} {s : State} (h : Kept κ s) : KeptNext κ (execVirosCtrlFrame l line lowPower s) := by
  unfold execVirosCtrlFrame
  repeat (any_goals (first
    | with_reducible assumption
    | with_reducible refine Kept.ite (fun _ => ?_) (fun _ => ?_)
    | exact KeptNext.fault
    | split
    | with_reducible refine KeptNext.next ?_
    | with_reducible refine act_inv (fun _ _ => ?_) ?_
    | with_reducible refine Kept.foldl (fun _ _ _ => ?_) ?_
    | with_reducible refine virosCtrl_inv ?_
    | with_reducible refine onLine_inv (fun _ _ _ => ?_) ?_
    ))

theorem execIrqModExpire_inv {vec : BitVec 11} {s : State} (h : Kept κ s) : KeptNext κ (execIrqModExpire vec s) :=
  act_inv (fun _ h => irqExpire_inv h) h

theorem execStwMin_inv {core : Fin 8} {s : State} (h : Kept κ s) : KeptNext κ (execStwMin core s) :=
  act_inv (fun _ h => stwPlain_inv (fun _ _ h => Core.putZn_shaped h) h) h

theorem execRerunDone_inv {q : Fin 4} {agree : RerunAgreement} {s : State} (h : Kept κ s) : KeptNext κ (execRerunDone q agree s) :=
  act_inv (fun _ h => rerunDone_inv h) h

theorem execThermSample_inv {sensors : List ℤ} {s : State} (h : Kept κ s) : KeptNext κ (execThermSample sensors s) := by
  unfold execThermSample
  repeat (any_goals (first
    | with_reducible assumption
    | with_reducible refine Kept.ite (fun _ => ?_) (fun _ => ?_)
    | exact KeptNext.fault
    | split
    | with_reducible refine KeptNext.next ?_
    | with_reducible refine act_inv (fun _ _ => ?_) ?_
    | with_reducible refine Kept.foldl (fun _ _ _ => ?_) ?_
    | with_reducible refine thermSample_inv ?_
    ))

theorem execStwCmpi_inv {core : Fin 8} {s : State} (h : Kept κ s) : KeptNext κ (execStwCmpi core s) :=
  act_inv (fun _ h => stwPlain_inv (fun _ _ h => h) h) h

theorem execHbToggle_inv {s : State} (h : Kept κ s) : KeptNext κ (execHbToggle s) :=
  act_inv (fun _ h => Kept.ite (fun _ => h.upd rfl rfl rfl) (fun _ => h)) h

theorem execTimeStep_inv {m : Master} {value : Payload} {s : State} (h : Kept κ s) : KeptNext κ (execTimeStep m value s) :=
  actBy_inv (fun _ h => timeCtlWrite_inv h) h

theorem execSysBootDone_inv {s : State} (h : Kept κ s) : KeptNext κ (execSysBootDone s) :=
  act_inv (fun _ h => bootDone_inv h) h

theorem execStwCmp_inv {core : Fin 8} {s : State} (h : Kept κ s) : KeptNext κ (execStwCmp core s) :=
  act_inv (fun _ h => stwPlain_inv (fun _ _ h => h) h) h

theorem execStwLd2_inv {core : Fin 8} {s : State} (h : Kept κ s) : KeptNext κ (execStwLd2 core s) :=
  act_inv (fun _ h => stwPlain_inv (fun _ _ h => Core.f3Loads_shaped h) h) h

theorem execVoltageSample_inv {rails : List ℤ} {s : State} (h : Kept κ s) : KeptNext κ (execVoltageSample rails s) := by
  unfold execVoltageSample
  repeat (any_goals (first
    | with_reducible assumption
    | with_reducible refine Kept.ite (fun _ => ?_) (fun _ => ?_)
    | exact KeptNext.fault
    | split
    | with_reducible refine KeptNext.next ?_
    | with_reducible refine act_inv (fun _ _ => ?_) ?_
    | with_reducible refine Kept.foldl (fun _ _ _ => ?_) ?_
    | with_reducible refine takeRails_inv ?_
    ))

theorem execSmbOther_inv {command : BitVec 8} {write : Bool} {s : State} (h : Kept κ s) : KeptNext κ (execSmbOther command write s) :=
  act_inv (fun _ h => Kept.ite (fun _ => emit_inv h) (fun _ => h)) h

theorem execTimeSourceLost_inv {s : State} (h : Kept κ s) : KeptNext κ (execTimeSourceLost s) :=
  act_inv (fun _ h => loseSource_inv h) h

theorem execMonEstop_inv {s : State} (h : Kept κ s) : KeptNext κ (execMonEstop s) := by
  unfold execMonEstop
  repeat (any_goals (first
    | with_reducible assumption
    | with_reducible refine Kept.ite (fun _ => ?_) (fun _ => ?_)
    | exact KeptNext.fault
    | split
    | with_reducible refine KeptNext.next ?_
    | with_reducible refine monAct_inv (fun _ _ => ?_) ?_
    | with_reducible refine Kept.foldl (fun _ _ _ => ?_) ?_
    | with_reducible refine emergencyStop_inv ?_
    | with_reducible refine audit_inv ?_
    | with_reducible refine say_inv ?_
    ))

theorem execStwNeg_inv {core : Fin 8} {s : State} (h : Kept κ s) : KeptNext κ (execStwNeg core s) :=
  act_inv (fun _ h => stwPlain_inv (fun _ _ h => Core.subOf_shaped h) h) h

theorem execTimeRateWrite_inv {m : Master} {value : Payload} {s : State} (h : Kept κ s) : KeptNext κ (execTimeRateWrite m value s) :=
  actBy_inv (fun _ h => timeRateWrite_inv h) h

theorem execMonIdleTimeout_inv {s : State} (h : Kept κ s) : KeptNext κ (execMonIdleTimeout s) :=
  monAct_inv (fun _ h => Kept.ite (fun _ => h.upd rfl rfl rfl) (fun _ => h)) h

theorem execStwSbc_inv {core : Fin 8} {s : State} (h : Kept κ s) : KeptNext κ (execStwSbc core s) :=
  act_inv (fun _ h => stwPlain_inv (fun _ _ h => Core.subOf_shaped h) h) h

theorem execStwXor_inv {core : Fin 8} {s : State} (h : Kept κ s) : KeptNext κ (execStwXor core s) :=
  act_inv (fun _ h => stwPlain_inv (fun _ _ h => Core.putLogic_shaped h) h) h

theorem execSmbReadTj_inv {s : State} (h : Kept κ s) : KeptNext κ (execSmbReadTj s) :=
  smbAnswer_inv h

theorem execFuseLockout_inv {code : BitVec 32} {s : State} (h : Kept κ s) : KeptNext κ (execFuseLockout code s) :=
  monOpen_inv (fun _ h => fuseLockout_inv h) h

theorem execTdcCalRequest_inv {m : Master} {value : Payload} {s : State} (h : Kept κ s) : KeptNext κ (execTdcCalRequest m value s) :=
  actBy_inv (fun _ h => timeTdcCtlWrite_inv h) h

theorem execSyncInEdge_inv {stamp : RawStamp} {s : State} (h : Kept κ s) : KeptNext κ (execSyncInEdge stamp s) :=
  act_inv (fun _ h => tdcEdge_inv h) h

theorem execStwNop_inv {core : Fin 8} {s : State} (h : Kept κ s) : KeptNext κ (execStwNop core s) :=
  act_inv (fun _ h => stwPlain_inv (fun _ _ h => h) h) h

theorem execQuery_inv {tag : BitVec 17} {s : State} (h : Kept κ s) : KeptNext κ (execQuery tag s) := by
  unfold execQuery
  repeat (any_goals (first
    | with_reducible assumption
    | with_reducible refine Kept.ite (fun _ => ?_) (fun _ => ?_)
    | exact KeptNext.fault
    | split
    | with_reducible refine KeptNext.next ?_
    | with_reducible refine act_inv (fun _ _ => ?_) ?_
    | with_reducible refine Kept.foldl (fun _ _ _ => ?_) ?_
    | with_reducible refine runDesc_inv (fun _ _ _ => ?_) ?_
    | with_reducible refine complete_inv ?_
    ))

theorem execStandbyRequest_inv {m : Master} {value : Payload} {s : State} (h : Kept κ s) : KeptNext κ (execStandbyRequest m value s) :=
  actBy_inv (fun _ h => sysPowerWrite_inv h) h

theorem execTimeSlewWrite_inv {m : Master} {value : Payload} {s : State} (h : Kept κ s) : KeptNext κ (execTimeSlewWrite m value s) :=
  actBy_inv (fun _ h => timeSlewWrite_inv h) h

theorem execIsolateFenceTimeout_inv {s : State} (h : Kept κ s) : KeptNext κ (execIsolateFenceTimeout s) :=
  act_inv (fun _ h => isolateFence_inv h) h

theorem execTriggerArm_inv {tag : BitVec 17} {s : State} (h : Kept κ s) : KeptNext κ (execTriggerArm tag s) := by
  unfold execTriggerArm
  repeat (any_goals (first
    | with_reducible assumption
    | with_reducible refine Kept.ite (fun _ => ?_) (fun _ => ?_)
    | exact KeptNext.fault
    | split
    | with_reducible refine KeptNext.next ?_
    | with_reducible refine act_inv (fun _ _ => ?_) ?_
    | with_reducible refine Kept.foldl (fun _ _ _ => ?_) ?_
    | with_reducible refine triggerArm_inv ?_
    | with_reducible refine runDesc_inv (fun _ _ _ => ?_) ?_
    ))

theorem execStwAdc_inv {core : Fin 8} {s : State} (h : Kept κ s) : KeptNext κ (execStwAdc core s) :=
  act_inv (fun _ h => stwPlain_inv (fun _ _ h => Core.addOf_shaped h) h) h

theorem execBadOpcode_inv {tag : BitVec 17} {s : State} (h : Kept κ s) : KeptNext κ (execBadOpcode tag s) := by
  unfold execBadOpcode
  repeat (any_goals (first
    | with_reducible assumption
    | with_reducible refine Kept.ite (fun _ => ?_) (fun _ => ?_)
    | exact KeptNext.fault
    | split
    | with_reducible refine KeptNext.next ?_
    | with_reducible refine act_inv (fun _ _ => ?_) ?_
    | with_reducible refine Kept.foldl (fun _ _ _ => ?_) ?_
    | with_reducible refine runDesc_inv (fun _ _ _ => ?_) ?_
    ))

theorem execHbmAccess_inv {a : HbmBurst} {s : State} (h : Kept κ s) : KeptNext κ (execHbmAccess a s) := by
  unfold execHbmAccess
  repeat (any_goals (first
    | with_reducible assumption
    | with_reducible refine Kept.ite (fun _ => ?_) (fun _ => ?_)
    | exact KeptNext.fault
    | split
    | with_reducible refine KeptNext.next ?_
    | with_reducible refine act_inv (fun _ _ => ?_) ?_
    | with_reducible refine Kept.foldl (fun _ _ _ => ?_) ?_
    | with_reducible refine hbmBurst_inv ?_
    ))

theorem execBootRomDone_inv {hottest : ℤ} {monEn : Bool} {s : State} (h : Kept κ s) : KeptNext κ (execBootRomDone hottest monEn s) :=
  act_inv (fun _ h => romDone_inv h) h

theorem execStwOr_inv {core : Fin 8} {s : State} (h : Kept κ s) : KeptNext κ (execStwOr core s) :=
  act_inv (fun _ h => stwPlain_inv (fun _ _ h => Core.putLogic_shaped h) h) h

theorem execTestTaskDone_inv {tile : Fin 136} {pass : Bool} {s : State} (h : Kept κ s) : KeptNext κ (execTestTaskDone tile pass s) :=
  act_inv (fun _ h => testTaskDone_inv h) h

theorem execVirosDataFrame_inv {l : Fin 64} {line : List ℕ} {fifoFull : Bool} {s : State} (h : Kept κ s) : KeptNext κ (execVirosDataFrame l line fifoFull s) := by
  unfold execVirosDataFrame
  repeat (any_goals (first
    | with_reducible assumption
    | with_reducible refine Kept.ite (fun _ => ?_) (fun _ => ?_)
    | exact KeptNext.fault
    | split
    | with_reducible refine KeptNext.next ?_
    | with_reducible refine act_inv (fun _ _ => ?_) ?_
    | with_reducible refine Kept.foldl (fun _ _ _ => ?_) ?_
    | with_reducible refine virosData_inv ?_
    | with_reducible refine onLine_inv (fun _ _ _ => ?_) ?_
    ))

theorem execPcieD0_inv {s : State} (h : Kept κ s) : KeptNext κ (execPcieD0 s) := by
  unfold execPcieD0
  repeat (any_goals (first
    | with_reducible assumption
    | with_reducible refine Kept.ite (fun _ => ?_) (fun _ => ?_)
    | exact KeptNext.fault
    | split
    | with_reducible refine KeptNext.next ?_
    | with_reducible refine act_inv (fun _ _ => ?_) ?_
    | with_reducible refine Kept.foldl (fun _ _ _ => ?_) ?_
    | with_reducible refine leaveStandby_inv ?_
    | with_reducible refine Kept.foldl_snd (fun _ _ _ => ?_) ?_
    | fail_if_no_progress (with_reducible refine Kept.upd ?_ rfl rfl rfl)
    ))

theorem execCaptureConfig_inv {tag : BitVec 17} {s : State} (h : Kept κ s) : KeptNext κ (execCaptureConfig tag s) := by
  unfold execCaptureConfig
  repeat (any_goals (first
    | with_reducible assumption
    | with_reducible refine Kept.ite (fun _ => ?_) (fun _ => ?_)
    | exact KeptNext.fault
    | split
    | with_reducible refine KeptNext.next ?_
    | with_reducible refine act_inv (fun _ _ => ?_) ?_
    | with_reducible refine Kept.foldl (fun _ _ _ => ?_) ?_
    | with_reducible refine runDesc_inv (fun _ _ _ => ?_) ?_
    | with_reducible refine captureApply_inv ?_
    | with_reducible refine leaveStandby_inv ?_
    | with_reducible refine Kept.foldl_snd (fun _ _ _ => ?_) ?_
    | fail_if_no_progress (with_reducible refine Kept.upd ?_ rfl rfl rfl)
    ))

theorem execRefreshDue_inv {pc : Fin 128} {retrain : Option Bool} {s : State} (h : Kept κ s) : KeptNext κ (execRefreshDue pc retrain s) := by
  unfold execRefreshDue
  repeat (any_goals (first
    | with_reducible assumption
    | with_reducible refine Kept.ite (fun _ => ?_) (fun _ => ?_)
    | exact KeptNext.fault
    | split
    | with_reducible refine KeptNext.next ?_
    | with_reducible refine act_inv (fun _ _ => ?_) ?_
    | with_reducible refine Kept.foldl (fun _ _ _ => ?_) ?_
    | with_reducible refine refreshNow_inv ?_
    | with_reducible refine retrained_inv ?_
    ))

theorem execPieceDrain_inv {tile : Fin 136} {fault : PieceFault} {ecc : Option SramError} {s : State} (h : Kept κ s) : KeptNext κ (execPieceDrain tile fault ecc s) :=
  act_inv (fun _ h => pieceDrain_inv h) h

theorem execJtagExtest_inv {scan : List Bool} {s : State} (h : Kept κ s) : KeptNext κ (execJtagExtest scan s) :=
  jtagAct_inv (fun _ h => extest_inv h) h

theorem execBootVerifyDone_inv {s : State} (h : Kept κ s) : KeptNext κ (execBootVerifyDone s) :=
  act_inv (fun _ h => verifyStage_inv h) h

theorem execStwClra_inv {core : Fin 8} {s : State} (h : Kept κ s) : KeptNext κ (execStwClra core s) :=
  act_inv (fun _ h => stwPlain_inv (fun _ _ h => Core.setAcc_shaped h) h) h

theorem execSysRstN_inv {low : Bool} {s : State} (h : Kept κ s) : KeptNext κ (execSysRstN low s) :=
  KeptNext.next (sysRst_inv h)

theorem execTriggerFire_inv {tag : BitVec 17} {s : State} (h : Kept κ s) : KeptNext κ (execTriggerFire tag s) := by
  unfold execTriggerFire
  repeat (any_goals (first
    | with_reducible assumption
    | with_reducible refine Kept.ite (fun _ => ?_) (fun _ => ?_)
    | exact KeptNext.fault
    | split
    | with_reducible refine KeptNext.next ?_
    | with_reducible refine act_inv (fun _ _ => ?_) ?_
    | with_reducible refine Kept.foldl (fun _ _ _ => ?_) ?_
    | with_reducible refine runDesc_inv (fun _ _ _ => ?_) ?_
    | with_reducible refine triggerFire_inv ?_
    ))

theorem execTdcCalDone_inv {hits : List ℕ} {s : State} (h : Kept κ s) : KeptNext κ (execTdcCalDone hits s) := by
  unfold execTdcCalDone
  repeat (any_goals (first
    | with_reducible assumption
    | with_reducible refine Kept.ite (fun _ => ?_) (fun _ => ?_)
    | exact KeptNext.fault
    | split
    | with_reducible refine KeptNext.next ?_
    | with_reducible refine act_inv (fun _ _ => ?_) ?_
    | with_reducible refine Kept.foldl (fun _ _ _ => ?_) ?_
    | with_reducible refine tdcCalDone_inv ?_
    ))

theorem execMemAllotWrite_inv {m : Master} {cls : Fin 3} {value : Payload} {s : State} (h : Kept κ s) : KeptNext κ (execMemAllotWrite m cls value s) :=
  actBy_inv (fun _ h => memAllot_inv h) h

theorem execLaneGroupCfgWrite_inv {m : Master} {g : Fin 8} {value : Payload} {s : State} (h : Kept κ s) : KeptNext κ (execLaneGroupCfgWrite m g value s) :=
  actBy_inv (fun _ h => laneGroupCfgWrite_inv h) h

theorem execTdcMeasureDone_inv {edges : List TdcArrival} {s : State} (h : Kept κ s) : KeptNext κ (execTdcMeasureDone edges s) := by
  unfold execTdcMeasureDone
  repeat (any_goals (first
    | with_reducible assumption
    | with_reducible refine Kept.ite (fun _ => ?_) (fun _ => ?_)
    | exact KeptNext.fault
    | split
    | with_reducible refine KeptNext.next ?_
    | with_reducible refine act_inv (fun _ _ => ?_) ?_
    | with_reducible refine Kept.foldl (fun _ _ _ => ?_) ?_
    | with_reducible refine tdcMeasureDone_inv ?_
    ))

theorem execMonEvt_inv {n : ℕ} {s : State} (h : Kept κ s) : KeptNext κ (execMonEvt n s) := by
  unfold execMonEvt
  repeat (any_goals (first
    | with_reducible assumption
    | with_reducible refine Kept.ite (fun _ => ?_) (fun _ => ?_)
    | exact KeptNext.fault
    | split
    | with_reducible refine KeptNext.next ?_
    | with_reducible refine monOpen_inv (fun _ _ => ?_) ?_
    | with_reducible refine Kept.foldl (fun _ _ _ => ?_) ?_
    | with_reducible refine say_inv ?_
    ))

theorem execAllotmentRefill_inv {s : State} (h : Kept κ s) : KeptNext κ (execAllotmentRefill s) :=
  act_inv (fun _ h => allotmentRefill_inv h) h

theorem execAttnClrSev_inv {m : Master} {value : Payload} {s : State} (h : Kept κ s) : KeptNext κ (execAttnClrSev m value s) :=
  actBy_inv (fun _ h => attnClr_inv h) h

theorem execAud_inv {n : ℕ} {s : State} (h : Kept κ s) : KeptNext κ (execAud n s) := by
  unfold execAud
  repeat (any_goals (first
    | with_reducible assumption
    | with_reducible refine Kept.ite (fun _ => ?_) (fun _ => ?_)
    | exact KeptNext.fault
    | split
    | with_reducible refine KeptNext.next ?_
    | with_reducible refine monOpen_inv (fun _ _ => ?_) ?_
    | with_reducible refine Kept.foldl (fun _ _ _ => ?_) ?_
    | with_reducible refine say_inv ?_
    ))

theorem execBellClaimReceive_inv {lane : Fin 4} {line : List ℕ} {arrival : RawStamp} {sent : RawStamp} {s : State} (h : Kept κ s) : KeptNext κ (execBellClaimReceive lane line arrival sent s) := by
  unfold execBellClaimReceive
  repeat (any_goals (first
    | with_reducible assumption
    | with_reducible refine Kept.ite (fun _ => ?_) (fun _ => ?_)
    | exact KeptNext.fault
    | split
    | with_reducible refine KeptNext.next ?_
    | with_reducible refine act_inv (fun _ _ => ?_) ?_
    | with_reducible refine Kept.foldl (fun _ _ _ => ?_) ?_
    | with_reducible refine bellHeaderLine_inv ?_
    ))

theorem execBellFireRecord_inv {lane : Fin 4} {rec : List Byte} {s : State} (h : Kept κ s) : KeptNext κ (execBellFireRecord lane rec s) := by
  unfold execBellFireRecord
  repeat (any_goals (first
    | with_reducible assumption
    | with_reducible refine Kept.ite (fun _ => ?_) (fun _ => ?_)
    | exact KeptNext.fault
    | split
    | with_reducible refine KeptNext.next ?_
    | with_reducible refine act_inv (fun _ _ => ?_) ?_
    | with_reducible refine Kept.foldl (fun _ _ _ => ?_) ?_
    | with_reducible refine receiveRec_inv (fun _ _ => ?_) ?_
    | with_reducible refine fireRecord_inv ?_
    ))

theorem execBellHeaderReceive_inv {lane : Fin 4} {line : List ℕ} {arrival : RawStamp} {sent : RawStamp} {s : State} (h : Kept κ s) : KeptNext κ (execBellHeaderReceive lane line arrival sent s) := by
  unfold execBellHeaderReceive
  repeat (any_goals (first
    | with_reducible assumption
    | with_reducible refine Kept.ite (fun _ => ?_) (fun _ => ?_)
    | exact KeptNext.fault
    | split
    | with_reducible refine KeptNext.next ?_
    | with_reducible refine act_inv (fun _ _ => ?_) ?_
    | with_reducible refine Kept.foldl (fun _ _ _ => ?_) ?_
    | with_reducible refine bellHeaderLine_inv ?_
    ))

theorem execBellMsgRecord_inv {lane : Fin 4} {rec : List Byte} {s : State} (h : Kept κ s) : KeptNext κ (execBellMsgRecord lane rec s) := by
  unfold execBellMsgRecord
  repeat (any_goals (first
    | with_reducible assumption
    | with_reducible refine Kept.ite (fun _ => ?_) (fun _ => ?_)
    | exact KeptNext.fault
    | split
    | with_reducible refine KeptNext.next ?_
    | with_reducible refine act_inv (fun _ _ => ?_) ?_
    | with_reducible refine Kept.foldl (fun _ _ _ => ?_) ?_
    | with_reducible refine receiveRec_inv (fun _ _ => ?_) ?_
    | with_reducible refine deliverMsg_inv ?_
    ))

theorem execBellRoleRecord_inv {lane : Fin 4} {rec : List Byte} {s : State} (h : Kept κ s) : KeptNext κ (execBellRoleRecord lane rec s) := by
  unfold execBellRoleRecord
  repeat (any_goals (first
    | with_reducible assumption
    | with_reducible refine Kept.ite (fun _ => ?_) (fun _ => ?_)
    | exact KeptNext.fault
    | split
    | with_reducible refine KeptNext.next ?_
    | with_reducible refine act_inv (fun _ _ => ?_) ?_
    | with_reducible refine Kept.foldl (fun _ _ _ => ?_) ?_
    | with_reducible refine applyRole_inv ?_
    | with_reducible refine receiveRec_inv (fun _ _ => ?_) ?_
    ))

theorem execBellSilenceTimeout_inv {ring : BellRing} {s : State} (h : Kept κ s) : KeptNext κ (execBellSilenceTimeout ring s) := by
  unfold execBellSilenceTimeout
  repeat (any_goals (first
    | with_reducible assumption
    | with_reducible refine Kept.ite (fun _ => ?_) (fun _ => ?_)
    | exact KeptNext.fault
    | split
    | with_reducible refine KeptNext.next ?_
    | with_reducible refine act_inv (fun _ _ => ?_) ?_
    | with_reducible refine Kept.foldl (fun _ _ _ => ?_) ?_
    | with_reducible refine silence_inv ?_
    | with_reducible refine showBell_inv ?_
    ))

theorem execBootLedgerDone_inv {s : State} (h : Kept κ s) : KeptNext κ (execBootLedgerDone s) :=
  act_inv (fun _ h => ledgerStage_inv h) h

theorem execChainBatch_inv {entry : ℕ} {chan : Fin 16384} {stokes : Fin 4} {s : State} (h : Kept κ s) : KeptNext κ (execChainBatch entry chan stokes s) := by
  unfold execChainBatch
  repeat (any_goals (first
    | with_reducible assumption
    | with_reducible refine Kept.ite (fun _ => ?_) (fun _ => ?_)
    | exact KeptNext.fault
    | split
    | with_reducible refine KeptNext.next ?_
    | with_reducible refine act_inv (fun _ _ => ?_) ?_
    | with_reducible refine Kept.foldl (fun _ _ _ => ?_) ?_
    | with_reducible refine chainMonitor_inv ?_
    | with_reducible refine chainBeam_inv ?_
    ))

theorem execChal_inv {s : State} (h : Kept κ s) : KeptNext κ (execChal s) :=
  monAct_inv (fun _ h => chal_inv h) h

theorem execClkMonFault_inv {clk : MonitoredClock} {s : State} (h : Kept κ s) : KeptNext κ (execClkMonFault clk s) :=
  act_inv (fun _ h => clkMonFault_inv h) h

theorem execConfigure_inv {tag : BitVec 17} {s : State} (h : Kept κ s) : KeptNext κ (execConfigure tag s) := by
  unfold execConfigure
  repeat (any_goals (first
    | with_reducible assumption
    | with_reducible refine Kept.ite (fun _ => ?_) (fun _ => ?_)
    | exact KeptNext.fault
    | split
    | with_reducible refine KeptNext.next ?_
    | with_reducible refine act_inv (fun _ _ => ?_) ?_
    | with_reducible refine Kept.foldl (fun _ _ _ => ?_) ?_
    | with_reducible refine runDesc_inv (fun _ _ _ => ?_) ?_
    | with_reducible refine configurePart_inv ?_
    ))

theorem execDelayWindowWrite_inv {offset : BitVec 27} {wide : Bool} {value : Qword} {s : State} (h : Kept κ s) : KeptNext κ (execDelayWindowWrite offset wide value s) := by
  unfold execDelayWindowWrite
  repeat (any_goals (first
    | with_reducible assumption
    | with_reducible refine Kept.ite (fun _ => ?_) (fun _ => ?_)
    | exact KeptNext.fault
    | split
    | with_reducible refine KeptNext.next ?_
    | with_reducible refine actFrom_inv (fun _ _ => ?_) ?_
    | with_reducible refine Kept.foldl (fun _ _ _ => ?_) ?_
    | with_reducible refine emit_inv ?_
    | with_reducible refine delayWindow_inv ?_
    ))

theorem execDescFetch_inv {ring : Fin 16384} {readOk : Bool} {s : State} (h : Kept κ s) : KeptNext κ (execDescFetch ring readOk s) :=
  act_inv (fun _ h => descFetch_inv h) h

theorem execDmaAbortWrite_inv {m : Master} {ch : Fin 32} {value : Payload} {s : State} (h : Kept κ s) : KeptNext κ (execDmaAbortWrite m ch value s) :=
  actBy_inv (fun _ h => dmaCtlWrite_inv h) h

theorem execDmaStartDescriptor_inv {m : Master} {ch : Fin 32} {value : Payload} {s : State} (h : Kept κ s) : KeptNext κ (execDmaStartDescriptor m ch value s) :=
  actBy_inv (fun _ h => dmaCtlWrite_inv h) h

theorem execEthFrameReceive_inv {port : Fin 8} {rx : EthRx} {s : State} (h : Kept κ s) : KeptNext κ (execEthFrameReceive port rx s) :=
  act_inv (fun _ h => ethFrame_inv h) h

theorem execEventLogCommitTimer_inv {s : State} (h : Kept κ s) : KeptNext κ (execEventLogCommitTimer s) :=
  act_inv (fun _ h => eventLogCommit_inv h) h

theorem execFwWrite_inv {tag : BitVec 17} {readOk : Bool} {s : State} (h : Kept κ s) : KeptNext κ (execFwWrite tag readOk s) := by
  unfold execFwWrite
  repeat (any_goals (first
    | with_reducible assumption
    | with_reducible refine Kept.ite (fun _ => ?_) (fun _ => ?_)
    | exact KeptNext.fault
    | split
    | with_reducible refine KeptNext.next ?_
    | with_reducible refine act_inv (fun _ _ => ?_) ?_
    | with_reducible refine Kept.foldl (fun _ _ _ => ?_) ?_
    | with_reducible refine fwWrite_inv ?_
    | with_reducible refine runDesc_inv (fun _ _ _ => ?_) ?_
    ))

theorem execHifEstop_inv {m : Master} {value : Payload} {s : State} (h : Kept κ s) : KeptNext κ (execHifEstop m value s) :=
  actBy_inv (fun _ h => estopWrite_inv h) h

theorem execHifNudge_inv {m : Master} {_value : Payload} {s : State} (h : Kept κ s) : KeptNext κ (execHifNudge m _value s) :=
  actBy_inv (fun _ h => nudge_inv h) h

theorem execInputMapWindowWrite_inv {offset : BitVec 19} {wide : Bool} {value : Qword} {s : State} (h : Kept κ s) : KeptNext κ (execInputMapWindowWrite offset wide value s) :=
  actBy_inv (fun _ h => Kept.ite (fun _ => emit_inv h) (fun _ => mapWindow_inv h)) h

theorem execJtagBypass_inv {code : BitVec 8} {s : State} (h : Kept κ s) : KeptNext κ (execJtagBypass code s) :=
  jtagAct_inv (fun _ h => Kept.ite (fun _ => h.upd rfl rfl rfl) (fun _ => h)) h

theorem execJtagHighz_inv {s : State} (h : Kept κ s) : KeptNext κ (execJtagHighz s) :=
  jtagAct_inv (fun _ h => h.upd rfl rfl rfl) h

theorem execJtagIdcode_inv {s : State} (h : Kept κ s) : KeptNext κ (execJtagIdcode s) :=
  jtagAct_inv (fun _ h => h.upd rfl rfl rfl) h

theorem execJtagSamplePreload_inv {pins : List Bool} {scan : List Bool} {s : State} (h : Kept κ s) : KeptNext κ (execJtagSamplePreload pins scan s) := by
  unfold execJtagSamplePreload
  repeat (any_goals (first
    | with_reducible assumption
    | with_reducible refine Kept.ite (fun _ => ?_) (fun _ => ?_)
    | exact KeptNext.fault
    | split
    | with_reducible refine KeptNext.next ?_
    | with_reducible refine jtagAct_inv (fun _ _ => ?_) ?_
    | with_reducible refine Kept.foldl (fun _ _ _ => ?_) ?_
    | with_reducible refine scanBoundary_inv ?_
    | with_reducible refine jtagLoad_inv ?_
    ))

theorem execLaneCfgWrite_inv {m : Master} {l : Fin 64} {value : Payload} {s : State} (h : Kept κ s) : KeptNext κ (execLaneCfgWrite m l value s) :=
  actBy_inv (fun _ h => laneCfgWrite_inv h) h

theorem execLaneMarkerLock_inv {lane : Lane} {s : State} (h : Kept κ s) : KeptNext κ (execLaneMarkerLock lane s) :=
  act_inv (fun _ h => markerLock_inv h) h

theorem execLaneNegTimer_inv {lane : Lane} {s : State} (h : Kept κ s) : KeptNext κ (execLaneNegTimer lane s) := by
  unfold execLaneNegTimer
  repeat (any_goals (first
    | with_reducible assumption
    | with_reducible refine Kept.ite (fun _ => ?_) (fun _ => ?_)
    | exact KeptNext.fault
    | split
    | with_reducible refine KeptNext.next ?_
    | with_reducible refine act_inv (fun _ _ => ?_) ?_
    | with_reducible refine Kept.foldl (fun _ _ _ => ?_) ?_
    | with_reducible refine setRate_inv ?_
    | with_reducible refine sendNeg_inv ?_
    ))

theorem execLaneStateTimeout_inv {lane : Lane} {s : State} (h : Kept κ s) : KeptNext κ (execLaneStateTimeout lane s) :=
  act_inv (fun _ h => stateTimeout_inv h) h

theorem execLedgerProgramDone_inv {readBackOk : Bool} {s : State} (h : Kept κ s) : KeptNext κ (execLedgerProgramDone readBackOk s) :=
  act_inv (fun _ h => ledgerDone_inv h) h

theorem execLock_inv {s : State} (h : Kept κ s) : KeptNext κ (execLock s) :=
  monOpen_inv (fun _ h => h.upd rfl rfl rfl) h

theorem execMemLayoutWrite_inv {m : Master} {value : Payload} {s : State} (h : Kept κ s) : KeptNext κ (execMemLayoutWrite m value s) :=
  actBy_inv (fun _ h => memLayout_inv h) h

theorem execMillSegmentEnd_inv {s : State} (h : Kept κ s) : KeptNext κ (execMillSegmentEnd s) :=
  act_inv (fun _ h => segmentEnd_inv h) h

theorem execMonAuditTimeout_inv {s : State} (h : Kept κ s) : KeptNext κ (execMonAuditTimeout s) :=
  monAct_inv (fun _ h => auditTimeout_inv h) h

theorem execMonDisable_inv {m : Master} {value : Payload} {s : State} (h : Kept κ s) : KeptNext κ (execMonDisable m value s) :=
  actBy_inv (fun _ h => monCtlWrite_inv h) h

theorem execMonRelock_inv {m : Master} {value : Payload} {s : State} (h : Kept κ s) : KeptNext κ (execMonRelock m value s) :=
  actBy_inv (fun _ h => monCtlWrite_inv h) h

theorem execMonWr_inv {offset : BitVec 24} {value : Payload} {s : State} (h : Kept κ s) : KeptNext κ (execMonWr offset value s) :=
  monOpen_inv (fun _ h => monWr_inv h) h

theorem execNop_inv {tag : BitVec 17} {s : State} (h : Kept κ s) : KeptNext κ (execNop tag s) := by
  unfold execNop
  repeat (any_goals (first
    | with_reducible assumption
    | with_reducible refine Kept.ite (fun _ => ?_) (fun _ => ?_)
    | exact KeptNext.fault
    | split
    | with_reducible refine KeptNext.next ?_
    | with_reducible refine act_inv (fun _ _ => ?_) ?_
    | with_reducible refine Kept.foldl (fun _ _ _ => ?_) ?_
    | with_reducible refine runDesc_inv (fun _ _ _ => ?_) ?_
    | with_reducible refine complete_inv ?_
    ))

theorem execPcieLinkUp_inv {rate : PcieRate} {width : PcieWidth} {s : State} (h : Kept κ s) : KeptNext κ (execPcieLinkUp rate width s) :=
  act_inv (fun _ h => h.upd rfl rfl rfl) h

theorem execPortConfig_inv {tag : BitVec 17} {s : State} (h : Kept κ s) : KeptNext κ (execPortConfig tag s) := by
  unfold execPortConfig
  repeat (any_goals (first
    | with_reducible assumption
    | with_reducible refine Kept.ite (fun _ => ?_) (fun _ => ?_)
    | exact KeptNext.fault
    | split
    | with_reducible refine KeptNext.next ?_
    | with_reducible refine act_inv (fun _ _ => ?_) ?_
    | with_reducible refine Kept.foldl (fun _ _ _ => ?_) ?_
    | with_reducible refine runDesc_inv (fun _ _ _ => ?_) ?_
    | with_reducible refine onPort_inv ?_
    | with_reducible refine complete_inv ?_
    ))

theorem execPtpTxInterval_inv {msg : PtpInterval} {sent : PcsStamp} {s : State} (h : Kept κ s) : KeptNext κ (execPtpTxInterval msg sent s) := by
  unfold execPtpTxInterval
  repeat (any_goals (first
    | with_reducible assumption
    | with_reducible refine Kept.ite (fun _ => ?_) (fun _ => ?_)
    | exact KeptNext.fault
    | split
    | with_reducible refine KeptNext.next ?_
    | with_reducible refine act_inv (fun _ _ => ?_) ?_
    | with_reducible refine Kept.foldl (fun _ _ _ => ?_) ?_
    | with_reducible refine ptpTx_inv ?_
    ))

theorem execPwrWarn_inv {s : State} (h : Kept κ s) : KeptNext κ (execPwrWarn s) :=
  act_inv (fun _ h => pwrWarnNow_inv h) h

theorem execQosAgeing_inv {port : FabTarget} {serial : ℕ} {s : State} (h : Kept κ s) : KeptNext κ (execQosAgeing port serial s) :=
  act_inv (fun _ h => h.upd rfl rfl rfl) h

theorem execRecoveryBufferWrite_inv {offset : BitVec 23} {wide : Bool} {value : Qword} {s : State} (h : Kept κ s) : KeptNext κ (execRecoveryBufferWrite offset wide value s) :=
  actFrom_inv (fun _ h => Kept.ite (fun _ => emit_inv h) (fun _ => Kept.ite
    (fun _ => h.sys fun m => ⟨storeWf_setList m.1, m.2⟩) (fun _ => h))) h

theorem execReeveLockstep_inv {sram : Bool} {s : State} (h : Kept κ s) : KeptNext κ (execReeveLockstep sram s) :=
  act_inv (fun _ h => reeveLockstep_inv (Kept.ite (fun _ => sramError_inv h) (fun _ => h))) h

theorem execRegionComputeDone_inv {p : Fin 8} {s : State} (h : Kept κ s) : KeptNext κ (execRegionComputeDone p s) :=
  act_inv (fun _ h => regionDone_inv h) h

theorem execRegisterWrite_inv {m : Master} {offset : BitVec 26} {value : Qword} {s : State} (h : Kept κ s) : KeptNext κ (execRegisterWrite m offset value s) := by
  unfold execRegisterWrite
  repeat (any_goals (first
    | with_reducible assumption
    | with_reducible refine Kept.ite (fun _ => ?_) (fun _ => ?_)
    | exact KeptNext.fault
    | split
    | with_reducible refine KeptNext.next ?_
    | with_reducible refine actBy_inv (fun _ _ => ?_) ?_
    | with_reducible refine Kept.foldl (fun _ _ _ => ?_) ?_
    | with_reducible refine mapWindow_inv ?_
    | with_reducible refine offsetWrite_inv ?_
    | with_reducible refine emit_inv ?_
    ))

theorem execRemapSwap_inv {outstanding : List ReeveAccess} {s : State} (h : Kept κ s) : KeptNext κ (execRemapSwap outstanding s) := by
  unfold execRemapSwap
  repeat (any_goals (first
    | with_reducible assumption
    | with_reducible refine Kept.ite (fun _ => ?_) (fun _ => ?_)
    | exact KeptNext.fault
    | split
    | with_reducible refine KeptNext.next ?_
    | with_reducible refine act_inv (fun _ _ => ?_) ?_
    | with_reducible refine Kept.foldl (fun _ _ _ => ?_) ?_
    | with_reducible refine remapSwap_inv ?_
    ))

theorem execScrubRead_inv {pc : Fin 128} {err : HbmError} {target : HbmTarget} {newerWrite : Bool} {s : State} (h : Kept κ s) : KeptNext κ (execScrubRead pc err target newerWrite s) :=
  act_inv (fun _ h => scrubStep_inv h) h

theorem execSmbReadAttn_inv {s : State} (h : Kept κ s) : KeptNext κ (execSmbReadAttn s) :=
  smbAnswer_inv h

theorem execSmbReadPart_inv {s : State} (h : Kept κ s) : KeptNext κ (execSmbReadPart s) :=
  smbAnswer_inv h

theorem execSmbReadPower_inv {s : State} (h : Kept κ s) : KeptNext κ (execSmbReadPower s) :=
  act_inv (fun _ h => smbPower_inv h) h

theorem execSmbReadRails_inv {s : State} (h : Kept κ s) : KeptNext κ (execSmbReadRails s) :=
  smbAnswer_inv h

theorem execSplitWriteLow_inv {offset : BitVec 26} {value : BitVec 32} {s : State} (h : Kept κ s) : KeptNext κ (execSplitWriteLow offset value s) :=
  actBy_inv (fun _ h => Kept.ite (fun _ => h.upd rfl rfl rfl) (fun _ => h)) h

theorem execStatsRead_inv {tag : BitVec 17} {s : State} (h : Kept κ s) : KeptNext κ (execStatsRead tag s) := by
  unfold execStatsRead
  repeat (any_goals (first
    | with_reducible assumption
    | with_reducible refine Kept.ite (fun _ => ?_) (fun _ => ?_)
    | exact KeptNext.fault
    | split
    | with_reducible refine KeptNext.next ?_
    | with_reducible refine act_inv (fun _ _ => ?_) ?_
    | with_reducible refine Kept.foldl (fun _ _ _ => ?_) ?_
    | with_reducible refine statsRead_inv ?_
    | with_reducible refine runDesc_inv (fun _ _ _ => ?_) ?_
    ))

theorem execStwAbs_inv {core : Fin 8} {s : State} (h : Kept κ s) : KeptNext κ (execStwAbs core s) :=
  act_inv (fun _ h => stwPlain_inv (fun _ _ h => Core.put_shaped h) h) h

theorem execStwAdda_inv {core : Fin 8} {s : State} (h : Kept κ s) : KeptNext κ (execStwAdda core s) :=
  act_inv (fun _ h => stwPlain_inv (fun _ _ h => Core.putAcc_shaped h) h) h

theorem execStwAddi_inv {core : Fin 8} {s : State} (h : Kept κ s) : KeptNext κ (execStwAddi core s) :=
  act_inv (fun _ h => stwPlain_inv (fun _ _ h => Core.addOf_shaped h) h) h

theorem execStwBr_inv {core : Fin 8} {s : State} (h : Kept κ s) : KeptNext κ (execStwBr core s) := by
  refine act_inv (fun s h => stwExec_inv (fun w s h => ?_) h) h
  exact Kept.ite (fun _ => stwJump_inv (bitsOf_lt (by decide)) h) (fun _ => stwAdvance_inv h)

theorem execStwMax_inv {core : Fin 8} {s : State} (h : Kept κ s) : KeptNext κ (execStwMax core s) :=
  act_inv (fun _ h => stwPlain_inv (fun _ _ h => Core.putZn_shaped h) h) h

theorem execStwMov_inv {core : Fin 8} {s : State} (h : Kept κ s) : KeptNext κ (execStwMov core s) :=
  act_inv (fun _ h => stwPlain_inv (fun _ _ h => Core.putZn_shaped h) h) h

theorem execStwMovs_inv {core : Fin 8} {s : State} (h : Kept κ s) : KeptNext κ (execStwMovs core s) := by
  refine act_inv (fun s h => stwPlain_inv (fun w x hx => ?_) h) h
  dsimp only
  split
  · exact Core.setSpecial_shaped hx
  · split
    · exact Core.setReg_shaped hx
    · exact Core.setReg_shaped hx

theorem execStwMsu_inv {core : Fin 8} {s : State} (h : Kept κ s) : KeptNext κ (execStwMsu core s) :=
  act_inv (fun _ h => stwPlain_inv (fun _ _ h => Core.f3Loads_shaped (Core.putAcc_shaped h)) h) h

theorem execStwMul_inv {core : Fin 8} {s : State} (h : Kept κ s) : KeptNext κ (execStwMul core s) :=
  act_inv (fun _ h => stwPlain_inv (fun _ _ h => Core.put_shaped h) h) h

theorem execStwRep_inv {core : Fin 8} {s : State} (h : Kept κ s) : KeptNext κ (execStwRep core s) := by
  refine act_inv (fun s h => stwExec_inv (fun w s h => ?_) h) h
  have hx := coreOf_shaped (c := core.val) h
  refine Kept.ite (fun _ => stwFault_inv h) (fun hp => Kept.ite (fun _ => stwFault_inv ?_) (fun _ => ?_))
  · exact setCore_inv ⟨hx.1, hx.2.1, hx.2.2.1, show (coreOf core.val s).pc + 1 < 16384 by omega, hx.2.2.2.2⟩ h
  · exact setCore_inv ⟨hx.1, hx.2.1, hx.2.2.1, show (coreOf core.val s).pc + 1 < 16384 by omega, hx.2.2.2.2⟩ h

theorem execStwRun_inv {tag : BitVec 17} {s : State} (h : Kept κ s) : KeptNext κ (execStwRun tag s) := by
  unfold execStwRun
  repeat (any_goals (first
    | with_reducible assumption
    | with_reducible refine Kept.ite (fun _ => ?_) (fun _ => ?_)
    | exact KeptNext.fault
    | split
    | with_reducible refine KeptNext.next ?_
    | with_reducible refine act_inv (fun _ _ => ?_) ?_
    | with_reducible refine Kept.foldl (fun _ _ _ => ?_) ?_
    | with_reducible refine runDesc_inv (fun _ _ _ => ?_) ?_
    | with_reducible refine stwRun_inv ?_
    ))

theorem execStwSetp_inv {core : Fin 8} {s : State} (h : Kept κ s) : KeptNext κ (execStwSetp core s) :=
  act_inv (fun _ h => stwPlain_inv (fun _ _ h => Core.setAddrReg_shaped h) h) h

theorem execStwSha_inv {core : Fin 8} {s : State} (h : Kept κ s) : KeptNext κ (execStwSha core s) :=
  act_inv (fun _ h => stwPlain_inv (fun _ _ h => Core.putAcc_shaped h) h) h

theorem execStwSlotStall_inv {core : Fin 8} {s : State} (h : Kept κ s) : KeptNext κ (execStwSlotStall core s) := by
  refine act_inv (fun s h => onCore_inv (fun x hx => ?_) h) h
  split
  · exact hx
  · exact hx

theorem execStwSt_inv {core : Fin 8} {s : State} (h : Kept κ s) : KeptNext κ (execStwSt core s) :=
  act_inv (fun _ h => stwPlain_inv (fun _ _ h => Core.postMod_shaped (Core.store_shaped h)) h) h

theorem execStwStop_inv {tag : BitVec 17} {s : State} (h : Kept κ s) : KeptNext κ (execStwStop tag s) := by
  unfold execStwStop
  repeat (any_goals (first
    | with_reducible assumption
    | with_reducible refine Kept.ite (fun _ => ?_) (fun _ => ?_)
    | exact KeptNext.fault
    | split
    | with_reducible refine KeptNext.next ?_
    | with_reducible refine act_inv (fun _ _ => ?_) ?_
    | with_reducible refine Kept.foldl (fun _ _ _ => ?_) ?_
    | with_reducible refine stwStop_inv ?_
    | with_reducible refine runDesc_inv (fun _ _ _ => ?_) ?_
    ))

theorem execStwSub_inv {core : Fin 8} {s : State} (h : Kept κ s) : KeptNext κ (execStwSub core s) :=
  act_inv (fun _ h => stwPlain_inv (fun _ _ h => Core.subOf_shaped h) h) h

theorem execStwXferDone_inv {core : Fin 8} {s : State} (h : Kept κ s) : KeptNext κ (execStwXferDone core s) :=
  act_inv (fun _ h => xferDone_inv h) h

theorem execStwXferRange_inv {core : Fin 8} {s : State} (h : Kept κ s) : KeptNext κ (execStwXferRange core s) := by
  unfold execStwXferRange
  repeat (any_goals (first
    | with_reducible assumption
    | with_reducible refine Kept.ite (fun _ => ?_) (fun _ => ?_)
    | exact KeptNext.fault
    | split
    | with_reducible refine KeptNext.next ?_
    | with_reducible refine act_inv (fun _ _ => ?_) ?_
    | with_reducible refine Kept.foldl (fun _ _ _ => ?_) ?_
    | with_reducible refine runXfer_inv (fun _ _ _ _ => ?_) ?_
    | with_reducible refine xferResult_inv ?_
    | with_reducible refine detRange_inv ?_
    ))

theorem execStwXreq_inv {core : Fin 8} {s : State} (h : Kept κ s) : KeptNext κ (execStwXreq core s) := by
  refine act_inv (fun s h => stwExec_inv (fun w s h => ?_) h) h
  have hx := coreOf_shaped (c := core.val) h
  refine Kept.ite (fun _ => h) (fun hl => stwAdvance_inv (setCore_inv (Core.putContainer_shaped ?_) h))
  refine ⟨hx.1, hx.2.1, ?_, hx.2.2.2⟩
  simp only [List.length_append, List.length_singleton]; omega

theorem execStwXwait_inv {core : Fin 8} {s : State} (h : Kept κ s) : KeptNext κ (execStwXwait core s) := by
  unfold execStwXwait
  repeat (any_goals (first
    | with_reducible assumption
    | with_reducible refine Kept.ite (fun _ => ?_) (fun _ => ?_)
    | exact KeptNext.fault
    | split
    | with_reducible refine KeptNext.next ?_
    | with_reducible refine act_inv (fun _ _ => ?_) ?_
    | with_reducible refine Kept.foldl (fun _ _ _ => ?_) ?_
    | with_reducible refine stwAdvance_inv ?_
    | with_reducible refine stwExec_inv (fun _ _ _ => ?_) ?_
    ))

theorem execSyncOutPulse_inv {s : State} (h : Kept κ s) : KeptNext κ (execSyncOutPulse s) :=
  act_inv (fun _ h => pulse_inv h) h

theorem execThermDwellTimer_inv {s : State} (h : Kept κ s) : KeptNext κ (execThermDwellTimer s) :=
  act_inv (fun _ h => thermEval_inv h) h

theorem execTimeNowSRead_inv {m : Master} {s : State} (h : Kept κ s) : KeptNext κ (execTimeNowSRead m s) :=
  actBy_inv (fun _ h => h.upd rfl rfl rfl) h

theorem execTimePpsLost_inv {s : State} (h : Kept κ s) : KeptNext κ (execTimePpsLost s) := by
  unfold execTimePpsLost
  repeat (any_goals (first
    | with_reducible assumption
    | with_reducible refine Kept.ite (fun _ => ?_) (fun _ => ?_)
    | exact KeptNext.fault
    | split
    | with_reducible refine KeptNext.next ?_
    | with_reducible refine act_inv (fun _ _ => ?_) ?_
    | with_reducible refine Kept.foldl (fun _ _ _ => ?_) ?_
    | with_reducible refine raise_inv ?_
    | with_reducible refine Kept.foldl_snd (fun _ _ _ => ?_) ?_
    | fail_if_no_progress (with_reducible refine Kept.upd ?_ rfl rfl rfl)
    ))

theorem execTimeTsqPop_inv {m : Master} {value : Payload} {s : State} (h : Kept κ s) : KeptNext κ (execTimeTsqPop m value s) :=
  actBy_inv (fun _ h => tsqPop_inv h) h

theorem execVirosReplayTimeout_inv {g : Fin 8} {l : Fin 64} {s : State} (h : Kept κ s) : KeptNext κ (execVirosReplayTimeout g l s) :=
  act_inv (fun _ h => replayTimeout_inv h) h

end Sys2Proof.Machine
end

