-- ==== Sys2Proof/Laws/Ops.lean ====
section
/-!
SUPPORT. What the shared operations over registers, host memory, rings, interrupts and events do, and what each leaves as it is.
-/
namespace Sys2Proof.Machine

theorem act_run {f : State → State} {s : State} (h : held s = false) : act f s = .next (f s) := by
  unfold act
  rw [h]
  rfl

theorem act_held {f : State → State} {s : State} (h : held s = true) : act f s = .next s := by
  unfold act
  rw [h]
  rfl

theorem actFrom_run {m : Master} {f : State → State} {s : State} (h : held s = false) (hb : barred m s = false) :
    actFrom m f s = .next (f s) := by
  rw [actFrom, act_run h, hb]
  rfl

theorem actFrom_barred {m : Master} {f : State → State} {s : State} (hb : barred m s = true) : actFrom m f s = .next s := by
  simp [actFrom, act, hb]

theorem actBy_run {m : Master} {f : State → State} {s : State} (h : held s = false) (hb : barred m s = false) :
    actBy m f s = .next (f (if m = .host then dropLatch s else s)) := actFrom_run h hb

theorem regOf_setReg {r : Reg} {v : Payload} {s : State} (h : StateInv s) : regOf r (setReg r v s) = v :=
  storeGet_set_same _ _ _ _ h.canonical.1

theorem regOf_setReg_other {r r' : Reg} {v : Payload} {s : State} (h : r'.offset ≠ r.offset) : regOf r' (setReg r v s) = regOf r' s := by
  unfold regOf setReg storeSet
  dsimp only
  split
  · exact storeGet_drop_other _ _ _ _ h
  · exact storeGet_put_other _ _ _ _ _ h

theorem regOf_setF {f : Fld} {r : Reg} {v : Nat} {s : State} (h : StateInv s) : regOf r (setF f r v s) = setFld f v (regOf r s) :=
  regOf_setReg h

theorem getF_setF {f : Fld} {r : Reg} {v : Nat} {s : State} (h : StateInv s) (hf : f.lo ≤ f.hi) (hn : f.hi < 48) :
    getF f r (setF f r v s) = v % 2 ^ (f.hi + 1 - f.lo) := by
  rw [getF, regOf_setF h, fld_setFld hf hn]

theorem regOf_bump {c : Counter} {n : Nat} {s : State} (h : StateInv s) :
    regOf (.cnt c) (bump c n s) = BitVec.ofNat 48 ((regOf (.cnt c) s).toNat + n) :=
  regOf_setReg h

/-- An interrupt changes what the interrupt logic holds and what leaves the device. -/
theorem raiseVec_frame (v : Nat) (s : State) :
    ∃ last deferred out, raiseVec v s = { s with hif := { s.hif with irqLast := last, irqDeferred := deferred }, out := out } := by
  unfold raiseVec
  dsimp only
  split
  · exact ⟨_, _, _, rfl⟩
  · split
    · exact ⟨_, _, _, rfl⟩
    · exact ⟨_, _, _, rfl⟩

theorem noteAttn_frame (o s : State) :
    ∃ last deferred out, noteAttn o s = { s with hif := { s.hif with irqLast := last, irqDeferred := deferred }, out := out } := by
  unfold noteAttn
  split
  · exact raiseVec_frame _ _
  · exact ⟨_, _, _, rfl⟩

theorem ringIrq_frame (n : Fin 16384) (f : Bool) (s : State) :
    ∃ last deferred out, ringIrq n f s = { s with hif := { s.hif with irqLast := last, irqDeferred := deferred }, out := out } := by
  unfold ringIrq
  split
  · exact raiseVec_frame _ _
  · exact ⟨_, _, _, rfl⟩

theorem hostWrite_frame (a : Nat) (bs : List Byte) (s : State) : hostWrite a bs s = { s with hostMem := (hostWrite a bs s).hostMem } := by
  unfold hostWrite
  split <;> rfl

/-- An event that no EVT ring takes is counted. -/
theorem postEvent_none {e : Event} {part : Option (Fin 8)} {a0 a1 : Nat} {s : State}
    (h : (if hostOpen s then evtRingFor part s else none) = none) : postEvent e part a0 a1 s = bump .hifEvtDrop 1 s := by
  unfold postEvent
  rw [h]

/-- An event for a full ring is counted and marks the ring. -/
theorem postEvent_full {e : Event} {part : Option (Fin 8)} {a0 a1 : Nat} {s : State} {n : Fin 16384}
    (h : (if hostOpen s then evtRingFor part s else none) = some n) (hf : ringSize n s ≤ ringUsed n s) :
    postEvent e part a0 a1 s = setRingCtx n.val { ringCtx n.val s with lost := (ringCtx n.val s).lost + 1 } (bump .hifEvtDrop 1 s) := by
  unfold postEvent
  rw [h]
  exact if_pos hf

/-- An event with room in its ring is stored there. -/
theorem postEvent_room {e : Event} {part : Option (Fin 8)} {a0 a1 : Nat} {s : State} {n : Fin 16384}
    (h : (if hostOpen s then evtRingFor part s else none) = some n) (hf : ringUsed n s < ringSize n s) :
    postEvent e part a0 a1 s = ringIrq n false (setF fRingIdxIdx (.ringIdx n) (ringIdx n s + 1)
      (setRingCtx n.val { ringCtx n.val s with lost := 0 } (hostWrite (ringAddr n (ringIdx n s) s)
        (eventEntry e part a0 a1 (ringPhase n (ringIdx n s) s) (ringCtx n.val s).lost (attnNat s) (timeWord s)) s))) := by
  unfold postEvent
  rw [h]
  exact if_neg (by omega)

/-- Posting an event changes registers, host memory, the host interface and what leaves the device. -/
theorem postEvent_frame (e : Event) (part : Option (Fin 8)) (a0 a1 : Nat) (s : State) :
    ∃ hif regs hostMem out, postEvent e part a0 a1 s = { s with hif := hif, regs := regs, hostMem := hostMem, out := out } := by
  unfold postEvent
  split
  · exact ⟨_, _, _, _, rfl⟩
  · dsimp only
    split
    · exact ⟨_, _, _, _, rfl⟩
    · obtain ⟨a, b, c, h⟩ := ringIrq_frame _ false (setF fRingIdxIdx (.ringIdx _) _ (setRingCtx _ _ (hostWrite _ _ s)))
      rw [h, hostWrite_frame]
      exact ⟨_, _, _, _, rfl⟩

/-- Raising an event changes nothing but the host interface, the Ledger's event log, registers, host memory and what leaves the device. -/
theorem raise_frame (e : Event) (part : Option (Fin 8)) (a0 a1 : Nat) (s : State) : ∃ hif led regs hostMem out,
    raise e part a0 a1 s = { s with hif := hif, led := led, regs := regs, hostMem := hostMem, out := out } := by
  unfold raise
  dsimp only
  split
  all_goals
    obtain ⟨a, b, c, d, h⟩ := postEvent_frame e part a0 a1 _
    rw [h]
    obtain ⟨u, v, w, k⟩ := noteAttn_frame s _
    rw [k]
    exact ⟨_, _, _, _, _, rfl⟩

/-- Dropping the latch changes no more than raising an event does. -/
theorem dropLatch_frame (s : State) : ∃ hif led regs hostMem out,
    dropLatch s = { s with hif := hif, led := led, regs := regs, hostMem := hostMem, out := out } := by
  unfold dropLatch
  split
  · exact ⟨_, _, _, _, _, rfl⟩
  · obtain ⟨a, b, c, d, f, h⟩ := raise_frame .hifSplitDiscard none 0 0 { s with hif := { s.hif with latch := none } }
    rw [h]
    exact ⟨_, _, _, _, _, rfl⟩

end Sys2Proof.Machine
end

