-- ==== Sys2Proof/Laws/State.lean ====
section
/-!
SUPPORT. One lemma per field per update of the state, and those of raising an event: what each leaves as it is.
-/
namespace Sys2Proof.Machine


@[simp] theorem setReg_pending (r : Reg) (v : Payload) (s : State) : (setReg r v s).pending = s.pending := rfl
@[simp] theorem setReg_free (r : Reg) (v : Payload) (s : State) : (setReg r v s).free = s.free := rfl
@[simp] theorem setReg_tick (r : Reg) (v : Payload) (s : State) : (setReg r v s).tick = s.tick := rfl
@[simp] theorem setReg_out (r : Reg) (v : Payload) (s : State) : (setReg r v s).out = s.out := rfl
@[simp] theorem setReg_hostMem (r : Reg) (v : Payload) (s : State) : (setReg r v s).hostMem = s.hostMem := rfl
@[simp] theorem setReg_hif (r : Reg) (v : Payload) (s : State) : (setReg r v s).hif = s.hif := rfl
@[simp] theorem setReg_fab (r : Reg) (v : Payload) (s : State) : (setReg r v s).fab = s.fab := rfl
@[simp] theorem setReg_parts (r : Reg) (v : Payload) (s : State) : (setReg r v s).parts = s.parts := rfl
@[simp] theorem setReg_quads (r : Reg) (v : Payload) (s : State) : (setReg r v s).quads = s.quads := rfl
@[simp] theorem setReg_chans (r : Reg) (v : Payload) (s : State) : (setReg r v s).chans = s.chans := rfl
@[simp] theorem setReg_granary (r : Reg) (v : Payload) (s : State) : (setReg r v s).granary = s.granary := rfl
@[simp] theorem setReg_tables (r : Reg) (v : Payload) (s : State) : (setReg r v s).tables = s.tables := rfl
@[simp] theorem setReg_tabPending (r : Reg) (v : Payload) (s : State) : (setReg r v s).tabPending = s.tabPending := rfl
@[simp] theorem setReg_trig (r : Reg) (v : Payload) (s : State) : (setReg r v s).trig = s.trig := rfl
@[simp] theorem setReg_det (r : Reg) (v : Payload) (s : State) : (setReg r v s).det = s.det := rfl
@[simp] theorem setReg_beam (r : Reg) (v : Payload) (s : State) : (setReg r v s).beam = s.beam := rfl
@[simp] theorem setReg_egr (r : Reg) (v : Payload) (s : State) : (setReg r v s).egr = s.egr := rfl
@[simp] theorem setReg_rings (r : Reg) (v : Payload) (s : State) : (setReg r v s).rings = s.rings := rfl
@[simp] theorem setReg_scratch (r : Reg) (v : Payload) (s : State) : (setReg r v s).scratch = s.scratch := rfl
@[simp] theorem setReg_hbm (r : Reg) (v : Payload) (s : State) : (setReg r v s).hbm = s.hbm := rfl
@[simp] theorem setReg_time (r : Reg) (v : Payload) (s : State) : (setReg r v s).time = s.time := rfl
@[simp] theorem setReg_bell (r : Reg) (v : Payload) (s : State) : (setReg r v s).bell = s.bell := rfl
@[simp] theorem setReg_lanes (r : Reg) (v : Payload) (s : State) : (setReg r v s).lanes = s.lanes := rfl
@[simp] theorem setReg_stw (r : Reg) (v : Payload) (s : State) : (setReg r v s).stw = s.stw := rfl
@[simp] theorem setReg_dma (r : Reg) (v : Payload) (s : State) : (setReg r v s).dma = s.dma := rfl
@[simp] theorem setReg_dep (r : Reg) (v : Payload) (s : State) : (setReg r v s).dep = s.dep := rfl
@[simp] theorem setReg_mon (r : Reg) (v : Payload) (s : State) : (setReg r v s).mon = s.mon := rfl
@[simp] theorem setReg_jtag (r : Reg) (v : Payload) (s : State) : (setReg r v s).jtag = s.jtag := rfl
@[simp] theorem setReg_led (r : Reg) (v : Payload) (s : State) : (setReg r v s).led = s.led := rfl
@[simp] theorem setReg_fuses (r : Reg) (v : Payload) (s : State) : (setReg r v s).fuses = s.fuses := rfl
@[simp] theorem setReg_sys (r : Reg) (v : Payload) (s : State) : (setReg r v s).sys = s.sys := rfl
@[simp] theorem setReg_therm (r : Reg) (v : Payload) (s : State) : (setReg r v s).therm = s.therm := rfl

@[simp] theorem setF_pending (f : Fld) (r : Reg) (v : Nat) (s : State) : (setF f r v s).pending = s.pending := rfl
@[simp] theorem setF_free (f : Fld) (r : Reg) (v : Nat) (s : State) : (setF f r v s).free = s.free := rfl
@[simp] theorem setF_tick (f : Fld) (r : Reg) (v : Nat) (s : State) : (setF f r v s).tick = s.tick := rfl
@[simp] theorem setF_out (f : Fld) (r : Reg) (v : Nat) (s : State) : (setF f r v s).out = s.out := rfl
@[simp] theorem setF_hostMem (f : Fld) (r : Reg) (v : Nat) (s : State) : (setF f r v s).hostMem = s.hostMem := rfl
@[simp] theorem setF_hif (f : Fld) (r : Reg) (v : Nat) (s : State) : (setF f r v s).hif = s.hif := rfl
@[simp] theorem setF_fab (f : Fld) (r : Reg) (v : Nat) (s : State) : (setF f r v s).fab = s.fab := rfl
@[simp] theorem setF_parts (f : Fld) (r : Reg) (v : Nat) (s : State) : (setF f r v s).parts = s.parts := rfl
@[simp] theorem setF_quads (f : Fld) (r : Reg) (v : Nat) (s : State) : (setF f r v s).quads = s.quads := rfl
@[simp] theorem setF_chans (f : Fld) (r : Reg) (v : Nat) (s : State) : (setF f r v s).chans = s.chans := rfl
@[simp] theorem setF_granary (f : Fld) (r : Reg) (v : Nat) (s : State) : (setF f r v s).granary = s.granary := rfl
@[simp] theorem setF_tables (f : Fld) (r : Reg) (v : Nat) (s : State) : (setF f r v s).tables = s.tables := rfl
@[simp] theorem setF_tabPending (f : Fld) (r : Reg) (v : Nat) (s : State) : (setF f r v s).tabPending = s.tabPending := rfl
@[simp] theorem setF_trig (f : Fld) (r : Reg) (v : Nat) (s : State) : (setF f r v s).trig = s.trig := rfl
@[simp] theorem setF_det (f : Fld) (r : Reg) (v : Nat) (s : State) : (setF f r v s).det = s.det := rfl
@[simp] theorem setF_beam (f : Fld) (r : Reg) (v : Nat) (s : State) : (setF f r v s).beam = s.beam := rfl
@[simp] theorem setF_egr (f : Fld) (r : Reg) (v : Nat) (s : State) : (setF f r v s).egr = s.egr := rfl
@[simp] theorem setF_rings (f : Fld) (r : Reg) (v : Nat) (s : State) : (setF f r v s).rings = s.rings := rfl
@[simp] theorem setF_scratch (f : Fld) (r : Reg) (v : Nat) (s : State) : (setF f r v s).scratch = s.scratch := rfl
@[simp] theorem setF_hbm (f : Fld) (r : Reg) (v : Nat) (s : State) : (setF f r v s).hbm = s.hbm := rfl
@[simp] theorem setF_time (f : Fld) (r : Reg) (v : Nat) (s : State) : (setF f r v s).time = s.time := rfl
@[simp] theorem setF_bell (f : Fld) (r : Reg) (v : Nat) (s : State) : (setF f r v s).bell = s.bell := rfl
@[simp] theorem setF_lanes (f : Fld) (r : Reg) (v : Nat) (s : State) : (setF f r v s).lanes = s.lanes := rfl
@[simp] theorem setF_stw (f : Fld) (r : Reg) (v : Nat) (s : State) : (setF f r v s).stw = s.stw := rfl
@[simp] theorem setF_dma (f : Fld) (r : Reg) (v : Nat) (s : State) : (setF f r v s).dma = s.dma := rfl
@[simp] theorem setF_dep (f : Fld) (r : Reg) (v : Nat) (s : State) : (setF f r v s).dep = s.dep := rfl
@[simp] theorem setF_mon (f : Fld) (r : Reg) (v : Nat) (s : State) : (setF f r v s).mon = s.mon := rfl
@[simp] theorem setF_jtag (f : Fld) (r : Reg) (v : Nat) (s : State) : (setF f r v s).jtag = s.jtag := rfl
@[simp] theorem setF_led (f : Fld) (r : Reg) (v : Nat) (s : State) : (setF f r v s).led = s.led := rfl
@[simp] theorem setF_fuses (f : Fld) (r : Reg) (v : Nat) (s : State) : (setF f r v s).fuses = s.fuses := rfl
@[simp] theorem setF_sys (f : Fld) (r : Reg) (v : Nat) (s : State) : (setF f r v s).sys = s.sys := rfl
@[simp] theorem setF_therm (f : Fld) (r : Reg) (v : Nat) (s : State) : (setF f r v s).therm = s.therm := rfl

@[simp] theorem bump_pending (c : Counter) (n : Nat) (s : State) : (bump c n s).pending = s.pending := rfl
@[simp] theorem bump_free (c : Counter) (n : Nat) (s : State) : (bump c n s).free = s.free := rfl
@[simp] theorem bump_tick (c : Counter) (n : Nat) (s : State) : (bump c n s).tick = s.tick := rfl
@[simp] theorem bump_out (c : Counter) (n : Nat) (s : State) : (bump c n s).out = s.out := rfl
@[simp] theorem bump_hostMem (c : Counter) (n : Nat) (s : State) : (bump c n s).hostMem = s.hostMem := rfl
@[simp] theorem bump_hif (c : Counter) (n : Nat) (s : State) : (bump c n s).hif = s.hif := rfl
@[simp] theorem bump_fab (c : Counter) (n : Nat) (s : State) : (bump c n s).fab = s.fab := rfl
@[simp] theorem bump_parts (c : Counter) (n : Nat) (s : State) : (bump c n s).parts = s.parts := rfl
@[simp] theorem bump_quads (c : Counter) (n : Nat) (s : State) : (bump c n s).quads = s.quads := rfl
@[simp] theorem bump_chans (c : Counter) (n : Nat) (s : State) : (bump c n s).chans = s.chans := rfl
@[simp] theorem bump_granary (c : Counter) (n : Nat) (s : State) : (bump c n s).granary = s.granary := rfl
@[simp] theorem bump_tables (c : Counter) (n : Nat) (s : State) : (bump c n s).tables = s.tables := rfl
@[simp] theorem bump_tabPending (c : Counter) (n : Nat) (s : State) : (bump c n s).tabPending = s.tabPending := rfl
@[simp] theorem bump_trig (c : Counter) (n : Nat) (s : State) : (bump c n s).trig = s.trig := rfl
@[simp] theorem bump_det (c : Counter) (n : Nat) (s : State) : (bump c n s).det = s.det := rfl
@[simp] theorem bump_beam (c : Counter) (n : Nat) (s : State) : (bump c n s).beam = s.beam := rfl
@[simp] theorem bump_egr (c : Counter) (n : Nat) (s : State) : (bump c n s).egr = s.egr := rfl
@[simp] theorem bump_rings (c : Counter) (n : Nat) (s : State) : (bump c n s).rings = s.rings := rfl
@[simp] theorem bump_scratch (c : Counter) (n : Nat) (s : State) : (bump c n s).scratch = s.scratch := rfl
@[simp] theorem bump_hbm (c : Counter) (n : Nat) (s : State) : (bump c n s).hbm = s.hbm := rfl
@[simp] theorem bump_time (c : Counter) (n : Nat) (s : State) : (bump c n s).time = s.time := rfl
@[simp] theorem bump_bell (c : Counter) (n : Nat) (s : State) : (bump c n s).bell = s.bell := rfl
@[simp] theorem bump_lanes (c : Counter) (n : Nat) (s : State) : (bump c n s).lanes = s.lanes := rfl
@[simp] theorem bump_stw (c : Counter) (n : Nat) (s : State) : (bump c n s).stw = s.stw := rfl
@[simp] theorem bump_dma (c : Counter) (n : Nat) (s : State) : (bump c n s).dma = s.dma := rfl
@[simp] theorem bump_dep (c : Counter) (n : Nat) (s : State) : (bump c n s).dep = s.dep := rfl
@[simp] theorem bump_mon (c : Counter) (n : Nat) (s : State) : (bump c n s).mon = s.mon := rfl
@[simp] theorem bump_jtag (c : Counter) (n : Nat) (s : State) : (bump c n s).jtag = s.jtag := rfl
@[simp] theorem bump_led (c : Counter) (n : Nat) (s : State) : (bump c n s).led = s.led := rfl
@[simp] theorem bump_fuses (c : Counter) (n : Nat) (s : State) : (bump c n s).fuses = s.fuses := rfl
@[simp] theorem bump_sys (c : Counter) (n : Nat) (s : State) : (bump c n s).sys = s.sys := rfl
@[simp] theorem bump_therm (c : Counter) (n : Nat) (s : State) : (bump c n s).therm = s.therm := rfl

@[simp] theorem emit_pending (o : Out) (s : State) : (emit o s).pending = s.pending := rfl
@[simp] theorem emit_free (o : Out) (s : State) : (emit o s).free = s.free := rfl
@[simp] theorem emit_tick (o : Out) (s : State) : (emit o s).tick = s.tick := rfl
@[simp] theorem emit_regs (o : Out) (s : State) : (emit o s).regs = s.regs := rfl
@[simp] theorem emit_hostMem (o : Out) (s : State) : (emit o s).hostMem = s.hostMem := rfl
@[simp] theorem emit_hif (o : Out) (s : State) : (emit o s).hif = s.hif := rfl
@[simp] theorem emit_fab (o : Out) (s : State) : (emit o s).fab = s.fab := rfl
@[simp] theorem emit_parts (o : Out) (s : State) : (emit o s).parts = s.parts := rfl
@[simp] theorem emit_quads (o : Out) (s : State) : (emit o s).quads = s.quads := rfl
@[simp] theorem emit_chans (o : Out) (s : State) : (emit o s).chans = s.chans := rfl
@[simp] theorem emit_granary (o : Out) (s : State) : (emit o s).granary = s.granary := rfl
@[simp] theorem emit_tables (o : Out) (s : State) : (emit o s).tables = s.tables := rfl
@[simp] theorem emit_tabPending (o : Out) (s : State) : (emit o s).tabPending = s.tabPending := rfl
@[simp] theorem emit_trig (o : Out) (s : State) : (emit o s).trig = s.trig := rfl
@[simp] theorem emit_det (o : Out) (s : State) : (emit o s).det = s.det := rfl
@[simp] theorem emit_beam (o : Out) (s : State) : (emit o s).beam = s.beam := rfl
@[simp] theorem emit_egr (o : Out) (s : State) : (emit o s).egr = s.egr := rfl
@[simp] theorem emit_rings (o : Out) (s : State) : (emit o s).rings = s.rings := rfl
@[simp] theorem emit_scratch (o : Out) (s : State) : (emit o s).scratch = s.scratch := rfl
@[simp] theorem emit_hbm (o : Out) (s : State) : (emit o s).hbm = s.hbm := rfl
@[simp] theorem emit_time (o : Out) (s : State) : (emit o s).time = s.time := rfl
@[simp] theorem emit_bell (o : Out) (s : State) : (emit o s).bell = s.bell := rfl
@[simp] theorem emit_lanes (o : Out) (s : State) : (emit o s).lanes = s.lanes := rfl
@[simp] theorem emit_stw (o : Out) (s : State) : (emit o s).stw = s.stw := rfl
@[simp] theorem emit_dma (o : Out) (s : State) : (emit o s).dma = s.dma := rfl
@[simp] theorem emit_dep (o : Out) (s : State) : (emit o s).dep = s.dep := rfl
@[simp] theorem emit_mon (o : Out) (s : State) : (emit o s).mon = s.mon := rfl
@[simp] theorem emit_jtag (o : Out) (s : State) : (emit o s).jtag = s.jtag := rfl
@[simp] theorem emit_led (o : Out) (s : State) : (emit o s).led = s.led := rfl
@[simp] theorem emit_fuses (o : Out) (s : State) : (emit o s).fuses = s.fuses := rfl
@[simp] theorem emit_sys (o : Out) (s : State) : (emit o s).sys = s.sys := rfl
@[simp] theorem emit_therm (o : Out) (s : State) : (emit o s).therm = s.therm := rfl

@[simp] theorem setRingCtx_pending (n : Nat) (c : RingCtx) (s : State) : (setRingCtx n c s).pending = s.pending := rfl
@[simp] theorem setRingCtx_free (n : Nat) (c : RingCtx) (s : State) : (setRingCtx n c s).free = s.free := rfl
@[simp] theorem setRingCtx_tick (n : Nat) (c : RingCtx) (s : State) : (setRingCtx n c s).tick = s.tick := rfl
@[simp] theorem setRingCtx_regs (n : Nat) (c : RingCtx) (s : State) : (setRingCtx n c s).regs = s.regs := rfl
@[simp] theorem setRingCtx_out (n : Nat) (c : RingCtx) (s : State) : (setRingCtx n c s).out = s.out := rfl
@[simp] theorem setRingCtx_hostMem (n : Nat) (c : RingCtx) (s : State) : (setRingCtx n c s).hostMem = s.hostMem := rfl
@[simp] theorem setRingCtx_fab (n : Nat) (c : RingCtx) (s : State) : (setRingCtx n c s).fab = s.fab := rfl
@[simp] theorem setRingCtx_parts (n : Nat) (c : RingCtx) (s : State) : (setRingCtx n c s).parts = s.parts := rfl
@[simp] theorem setRingCtx_quads (n : Nat) (c : RingCtx) (s : State) : (setRingCtx n c s).quads = s.quads := rfl
@[simp] theorem setRingCtx_chans (n : Nat) (c : RingCtx) (s : State) : (setRingCtx n c s).chans = s.chans := rfl
@[simp] theorem setRingCtx_granary (n : Nat) (c : RingCtx) (s : State) : (setRingCtx n c s).granary = s.granary := rfl
@[simp] theorem setRingCtx_tables (n : Nat) (c : RingCtx) (s : State) : (setRingCtx n c s).tables = s.tables := rfl
@[simp] theorem setRingCtx_tabPending (n : Nat) (c : RingCtx) (s : State) : (setRingCtx n c s).tabPending = s.tabPending := rfl
@[simp] theorem setRingCtx_trig (n : Nat) (c : RingCtx) (s : State) : (setRingCtx n c s).trig = s.trig := rfl
@[simp] theorem setRingCtx_det (n : Nat) (c : RingCtx) (s : State) : (setRingCtx n c s).det = s.det := rfl
@[simp] theorem setRingCtx_beam (n : Nat) (c : RingCtx) (s : State) : (setRingCtx n c s).beam = s.beam := rfl
@[simp] theorem setRingCtx_egr (n : Nat) (c : RingCtx) (s : State) : (setRingCtx n c s).egr = s.egr := rfl
@[simp] theorem setRingCtx_rings (n : Nat) (c : RingCtx) (s : State) : (setRingCtx n c s).rings = s.rings := rfl
@[simp] theorem setRingCtx_scratch (n : Nat) (c : RingCtx) (s : State) : (setRingCtx n c s).scratch = s.scratch := rfl
@[simp] theorem setRingCtx_hbm (n : Nat) (c : RingCtx) (s : State) : (setRingCtx n c s).hbm = s.hbm := rfl
@[simp] theorem setRingCtx_time (n : Nat) (c : RingCtx) (s : State) : (setRingCtx n c s).time = s.time := rfl
@[simp] theorem setRingCtx_bell (n : Nat) (c : RingCtx) (s : State) : (setRingCtx n c s).bell = s.bell := rfl
@[simp] theorem setRingCtx_lanes (n : Nat) (c : RingCtx) (s : State) : (setRingCtx n c s).lanes = s.lanes := rfl
@[simp] theorem setRingCtx_stw (n : Nat) (c : RingCtx) (s : State) : (setRingCtx n c s).stw = s.stw := rfl
@[simp] theorem setRingCtx_dma (n : Nat) (c : RingCtx) (s : State) : (setRingCtx n c s).dma = s.dma := rfl
@[simp] theorem setRingCtx_dep (n : Nat) (c : RingCtx) (s : State) : (setRingCtx n c s).dep = s.dep := rfl
@[simp] theorem setRingCtx_mon (n : Nat) (c : RingCtx) (s : State) : (setRingCtx n c s).mon = s.mon := rfl
@[simp] theorem setRingCtx_jtag (n : Nat) (c : RingCtx) (s : State) : (setRingCtx n c s).jtag = s.jtag := rfl
@[simp] theorem setRingCtx_led (n : Nat) (c : RingCtx) (s : State) : (setRingCtx n c s).led = s.led := rfl
@[simp] theorem setRingCtx_fuses (n : Nat) (c : RingCtx) (s : State) : (setRingCtx n c s).fuses = s.fuses := rfl
@[simp] theorem setRingCtx_sys (n : Nat) (c : RingCtx) (s : State) : (setRingCtx n c s).sys = s.sys := rfl
@[simp] theorem setRingCtx_therm (n : Nat) (c : RingCtx) (s : State) : (setRingCtx n c s).therm = s.therm := rfl

@[simp] theorem setTagRec_pending (t : Nat) (r : TagRec) (s : State) : (setTagRec t r s).pending = s.pending := rfl
@[simp] theorem setTagRec_free (t : Nat) (r : TagRec) (s : State) : (setTagRec t r s).free = s.free := rfl
@[simp] theorem setTagRec_tick (t : Nat) (r : TagRec) (s : State) : (setTagRec t r s).tick = s.tick := rfl
@[simp] theorem setTagRec_regs (t : Nat) (r : TagRec) (s : State) : (setTagRec t r s).regs = s.regs := rfl
@[simp] theorem setTagRec_out (t : Nat) (r : TagRec) (s : State) : (setTagRec t r s).out = s.out := rfl
@[simp] theorem setTagRec_hostMem (t : Nat) (r : TagRec) (s : State) : (setTagRec t r s).hostMem = s.hostMem := rfl
@[simp] theorem setTagRec_fab (t : Nat) (r : TagRec) (s : State) : (setTagRec t r s).fab = s.fab := rfl
@[simp] theorem setTagRec_parts (t : Nat) (r : TagRec) (s : State) : (setTagRec t r s).parts = s.parts := rfl
@[simp] theorem setTagRec_quads (t : Nat) (r : TagRec) (s : State) : (setTagRec t r s).quads = s.quads := rfl
@[simp] theorem setTagRec_chans (t : Nat) (r : TagRec) (s : State) : (setTagRec t r s).chans = s.chans := rfl
@[simp] theorem setTagRec_granary (t : Nat) (r : TagRec) (s : State) : (setTagRec t r s).granary = s.granary := rfl
@[simp] theorem setTagRec_tables (t : Nat) (r : TagRec) (s : State) : (setTagRec t r s).tables = s.tables := rfl
@[simp] theorem setTagRec_tabPending (t : Nat) (r : TagRec) (s : State) : (setTagRec t r s).tabPending = s.tabPending := rfl
@[simp] theorem setTagRec_trig (t : Nat) (r : TagRec) (s : State) : (setTagRec t r s).trig = s.trig := rfl
@[simp] theorem setTagRec_det (t : Nat) (r : TagRec) (s : State) : (setTagRec t r s).det = s.det := rfl
@[simp] theorem setTagRec_beam (t : Nat) (r : TagRec) (s : State) : (setTagRec t r s).beam = s.beam := rfl
@[simp] theorem setTagRec_egr (t : Nat) (r : TagRec) (s : State) : (setTagRec t r s).egr = s.egr := rfl
@[simp] theorem setTagRec_rings (t : Nat) (r : TagRec) (s : State) : (setTagRec t r s).rings = s.rings := rfl
@[simp] theorem setTagRec_scratch (t : Nat) (r : TagRec) (s : State) : (setTagRec t r s).scratch = s.scratch := rfl
@[simp] theorem setTagRec_hbm (t : Nat) (r : TagRec) (s : State) : (setTagRec t r s).hbm = s.hbm := rfl
@[simp] theorem setTagRec_time (t : Nat) (r : TagRec) (s : State) : (setTagRec t r s).time = s.time := rfl
@[simp] theorem setTagRec_bell (t : Nat) (r : TagRec) (s : State) : (setTagRec t r s).bell = s.bell := rfl
@[simp] theorem setTagRec_lanes (t : Nat) (r : TagRec) (s : State) : (setTagRec t r s).lanes = s.lanes := rfl
@[simp] theorem setTagRec_stw (t : Nat) (r : TagRec) (s : State) : (setTagRec t r s).stw = s.stw := rfl
@[simp] theorem setTagRec_dma (t : Nat) (r : TagRec) (s : State) : (setTagRec t r s).dma = s.dma := rfl
@[simp] theorem setTagRec_dep (t : Nat) (r : TagRec) (s : State) : (setTagRec t r s).dep = s.dep := rfl
@[simp] theorem setTagRec_mon (t : Nat) (r : TagRec) (s : State) : (setTagRec t r s).mon = s.mon := rfl
@[simp] theorem setTagRec_jtag (t : Nat) (r : TagRec) (s : State) : (setTagRec t r s).jtag = s.jtag := rfl
@[simp] theorem setTagRec_led (t : Nat) (r : TagRec) (s : State) : (setTagRec t r s).led = s.led := rfl
@[simp] theorem setTagRec_fuses (t : Nat) (r : TagRec) (s : State) : (setTagRec t r s).fuses = s.fuses := rfl
@[simp] theorem setTagRec_sys (t : Nat) (r : TagRec) (s : State) : (setTagRec t r s).sys = s.sys := rfl
@[simp] theorem setTagRec_therm (t : Nat) (r : TagRec) (s : State) : (setTagRec t r s).therm = s.therm := rfl

@[simp] theorem dropDesc_pending (d : Desc) (s : State) : (dropDesc d s).pending = s.pending := rfl
@[simp] theorem dropDesc_free (d : Desc) (s : State) : (dropDesc d s).free = s.free := rfl
@[simp] theorem dropDesc_tick (d : Desc) (s : State) : (dropDesc d s).tick = s.tick := rfl
@[simp] theorem dropDesc_regs (d : Desc) (s : State) : (dropDesc d s).regs = s.regs := rfl
@[simp] theorem dropDesc_out (d : Desc) (s : State) : (dropDesc d s).out = s.out := rfl
@[simp] theorem dropDesc_hostMem (d : Desc) (s : State) : (dropDesc d s).hostMem = s.hostMem := rfl
@[simp] theorem dropDesc_fab (d : Desc) (s : State) : (dropDesc d s).fab = s.fab := rfl
@[simp] theorem dropDesc_parts (d : Desc) (s : State) : (dropDesc d s).parts = s.parts := rfl
@[simp] theorem dropDesc_quads (d : Desc) (s : State) : (dropDesc d s).quads = s.quads := rfl
@[simp] theorem dropDesc_chans (d : Desc) (s : State) : (dropDesc d s).chans = s.chans := rfl
@[simp] theorem dropDesc_granary (d : Desc) (s : State) : (dropDesc d s).granary = s.granary := rfl
@[simp] theorem dropDesc_tables (d : Desc) (s : State) : (dropDesc d s).tables = s.tables := rfl
@[simp] theorem dropDesc_tabPending (d : Desc) (s : State) : (dropDesc d s).tabPending = s.tabPending := rfl
@[simp] theorem dropDesc_trig (d : Desc) (s : State) : (dropDesc d s).trig = s.trig := rfl
@[simp] theorem dropDesc_det (d : Desc) (s : State) : (dropDesc d s).det = s.det := rfl
@[simp] theorem dropDesc_beam (d : Desc) (s : State) : (dropDesc d s).beam = s.beam := rfl
@[simp] theorem dropDesc_egr (d : Desc) (s : State) : (dropDesc d s).egr = s.egr := rfl
@[simp] theorem dropDesc_rings (d : Desc) (s : State) : (dropDesc d s).rings = s.rings := rfl
@[simp] theorem dropDesc_scratch (d : Desc) (s : State) : (dropDesc d s).scratch = s.scratch := rfl
@[simp] theorem dropDesc_hbm (d : Desc) (s : State) : (dropDesc d s).hbm = s.hbm := rfl
@[simp] theorem dropDesc_time (d : Desc) (s : State) : (dropDesc d s).time = s.time := rfl
@[simp] theorem dropDesc_bell (d : Desc) (s : State) : (dropDesc d s).bell = s.bell := rfl
@[simp] theorem dropDesc_lanes (d : Desc) (s : State) : (dropDesc d s).lanes = s.lanes := rfl
@[simp] theorem dropDesc_stw (d : Desc) (s : State) : (dropDesc d s).stw = s.stw := rfl
@[simp] theorem dropDesc_dma (d : Desc) (s : State) : (dropDesc d s).dma = s.dma := rfl
@[simp] theorem dropDesc_dep (d : Desc) (s : State) : (dropDesc d s).dep = s.dep := rfl
@[simp] theorem dropDesc_mon (d : Desc) (s : State) : (dropDesc d s).mon = s.mon := rfl
@[simp] theorem dropDesc_jtag (d : Desc) (s : State) : (dropDesc d s).jtag = s.jtag := rfl
@[simp] theorem dropDesc_led (d : Desc) (s : State) : (dropDesc d s).led = s.led := rfl
@[simp] theorem dropDesc_fuses (d : Desc) (s : State) : (dropDesc d s).fuses = s.fuses := rfl
@[simp] theorem dropDesc_sys (d : Desc) (s : State) : (dropDesc d s).sys = s.sys := rfl
@[simp] theorem dropDesc_therm (d : Desc) (s : State) : (dropDesc d s).therm = s.therm := rfl

@[simp] theorem markBegun_pending (d : Desc) (s : State) : (markBegun d s).pending = s.pending := rfl
@[simp] theorem markBegun_free (d : Desc) (s : State) : (markBegun d s).free = s.free := rfl
@[simp] theorem markBegun_tick (d : Desc) (s : State) : (markBegun d s).tick = s.tick := rfl
@[simp] theorem markBegun_regs (d : Desc) (s : State) : (markBegun d s).regs = s.regs := rfl
@[simp] theorem markBegun_out (d : Desc) (s : State) : (markBegun d s).out = s.out := rfl
@[simp] theorem markBegun_hostMem (d : Desc) (s : State) : (markBegun d s).hostMem = s.hostMem := rfl
@[simp] theorem markBegun_fab (d : Desc) (s : State) : (markBegun d s).fab = s.fab := rfl
@[simp] theorem markBegun_parts (d : Desc) (s : State) : (markBegun d s).parts = s.parts := rfl
@[simp] theorem markBegun_quads (d : Desc) (s : State) : (markBegun d s).quads = s.quads := rfl
@[simp] theorem markBegun_chans (d : Desc) (s : State) : (markBegun d s).chans = s.chans := rfl
@[simp] theorem markBegun_granary (d : Desc) (s : State) : (markBegun d s).granary = s.granary := rfl
@[simp] theorem markBegun_tables (d : Desc) (s : State) : (markBegun d s).tables = s.tables := rfl
@[simp] theorem markBegun_tabPending (d : Desc) (s : State) : (markBegun d s).tabPending = s.tabPending := rfl
@[simp] theorem markBegun_trig (d : Desc) (s : State) : (markBegun d s).trig = s.trig := rfl
@[simp] theorem markBegun_det (d : Desc) (s : State) : (markBegun d s).det = s.det := rfl
@[simp] theorem markBegun_beam (d : Desc) (s : State) : (markBegun d s).beam = s.beam := rfl
@[simp] theorem markBegun_egr (d : Desc) (s : State) : (markBegun d s).egr = s.egr := rfl
@[simp] theorem markBegun_rings (d : Desc) (s : State) : (markBegun d s).rings = s.rings := rfl
@[simp] theorem markBegun_scratch (d : Desc) (s : State) : (markBegun d s).scratch = s.scratch := rfl
@[simp] theorem markBegun_hbm (d : Desc) (s : State) : (markBegun d s).hbm = s.hbm := rfl
@[simp] theorem markBegun_time (d : Desc) (s : State) : (markBegun d s).time = s.time := rfl
@[simp] theorem markBegun_bell (d : Desc) (s : State) : (markBegun d s).bell = s.bell := rfl
@[simp] theorem markBegun_lanes (d : Desc) (s : State) : (markBegun d s).lanes = s.lanes := rfl
@[simp] theorem markBegun_stw (d : Desc) (s : State) : (markBegun d s).stw = s.stw := rfl
@[simp] theorem markBegun_dma (d : Desc) (s : State) : (markBegun d s).dma = s.dma := rfl
@[simp] theorem markBegun_dep (d : Desc) (s : State) : (markBegun d s).dep = s.dep := rfl
@[simp] theorem markBegun_mon (d : Desc) (s : State) : (markBegun d s).mon = s.mon := rfl
@[simp] theorem markBegun_jtag (d : Desc) (s : State) : (markBegun d s).jtag = s.jtag := rfl
@[simp] theorem markBegun_led (d : Desc) (s : State) : (markBegun d s).led = s.led := rfl
@[simp] theorem markBegun_fuses (d : Desc) (s : State) : (markBegun d s).fuses = s.fuses := rfl
@[simp] theorem markBegun_sys (d : Desc) (s : State) : (markBegun d s).sys = s.sys := rfl
@[simp] theorem markBegun_therm (d : Desc) (s : State) : (markBegun d s).therm = s.therm := rfl

@[simp] theorem setPart_pending (p : Fin 8) (x : Part) (s : State) : (setPart p x s).pending = s.pending := rfl
@[simp] theorem setPart_free (p : Fin 8) (x : Part) (s : State) : (setPart p x s).free = s.free := rfl
@[simp] theorem setPart_tick (p : Fin 8) (x : Part) (s : State) : (setPart p x s).tick = s.tick := rfl
@[simp] theorem setPart_regs (p : Fin 8) (x : Part) (s : State) : (setPart p x s).regs = s.regs := rfl
@[simp] theorem setPart_out (p : Fin 8) (x : Part) (s : State) : (setPart p x s).out = s.out := rfl
@[simp] theorem setPart_hostMem (p : Fin 8) (x : Part) (s : State) : (setPart p x s).hostMem = s.hostMem := rfl
@[simp] theorem setPart_hif (p : Fin 8) (x : Part) (s : State) : (setPart p x s).hif = s.hif := rfl
@[simp] theorem setPart_fab (p : Fin 8) (x : Part) (s : State) : (setPart p x s).fab = s.fab := rfl
@[simp] theorem setPart_quads (p : Fin 8) (x : Part) (s : State) : (setPart p x s).quads = s.quads := rfl
@[simp] theorem setPart_chans (p : Fin 8) (x : Part) (s : State) : (setPart p x s).chans = s.chans := rfl
@[simp] theorem setPart_granary (p : Fin 8) (x : Part) (s : State) : (setPart p x s).granary = s.granary := rfl
@[simp] theorem setPart_tables (p : Fin 8) (x : Part) (s : State) : (setPart p x s).tables = s.tables := rfl
@[simp] theorem setPart_tabPending (p : Fin 8) (x : Part) (s : State) : (setPart p x s).tabPending = s.tabPending := rfl
@[simp] theorem setPart_trig (p : Fin 8) (x : Part) (s : State) : (setPart p x s).trig = s.trig := rfl
@[simp] theorem setPart_det (p : Fin 8) (x : Part) (s : State) : (setPart p x s).det = s.det := rfl
@[simp] theorem setPart_beam (p : Fin 8) (x : Part) (s : State) : (setPart p x s).beam = s.beam := rfl
@[simp] theorem setPart_egr (p : Fin 8) (x : Part) (s : State) : (setPart p x s).egr = s.egr := rfl
@[simp] theorem setPart_rings (p : Fin 8) (x : Part) (s : State) : (setPart p x s).rings = s.rings := rfl
@[simp] theorem setPart_scratch (p : Fin 8) (x : Part) (s : State) : (setPart p x s).scratch = s.scratch := rfl
@[simp] theorem setPart_hbm (p : Fin 8) (x : Part) (s : State) : (setPart p x s).hbm = s.hbm := rfl
@[simp] theorem setPart_time (p : Fin 8) (x : Part) (s : State) : (setPart p x s).time = s.time := rfl
@[simp] theorem setPart_bell (p : Fin 8) (x : Part) (s : State) : (setPart p x s).bell = s.bell := rfl
@[simp] theorem setPart_lanes (p : Fin 8) (x : Part) (s : State) : (setPart p x s).lanes = s.lanes := rfl
@[simp] theorem setPart_stw (p : Fin 8) (x : Part) (s : State) : (setPart p x s).stw = s.stw := rfl
@[simp] theorem setPart_dma (p : Fin 8) (x : Part) (s : State) : (setPart p x s).dma = s.dma := rfl
@[simp] theorem setPart_dep (p : Fin 8) (x : Part) (s : State) : (setPart p x s).dep = s.dep := rfl
@[simp] theorem setPart_mon (p : Fin 8) (x : Part) (s : State) : (setPart p x s).mon = s.mon := rfl
@[simp] theorem setPart_jtag (p : Fin 8) (x : Part) (s : State) : (setPart p x s).jtag = s.jtag := rfl
@[simp] theorem setPart_led (p : Fin 8) (x : Part) (s : State) : (setPart p x s).led = s.led := rfl
@[simp] theorem setPart_fuses (p : Fin 8) (x : Part) (s : State) : (setPart p x s).fuses = s.fuses := rfl
@[simp] theorem setPart_sys (p : Fin 8) (x : Part) (s : State) : (setPart p x s).sys = s.sys := rfl
@[simp] theorem setPart_therm (p : Fin 8) (x : Part) (s : State) : (setPart p x s).therm = s.therm := rfl

@[simp] theorem setQuad_pending (q : Nat) (x : Quadrant) (s : State) : (setQuad q x s).pending = s.pending := rfl
@[simp] theorem setQuad_free (q : Nat) (x : Quadrant) (s : State) : (setQuad q x s).free = s.free := rfl
@[simp] theorem setQuad_tick (q : Nat) (x : Quadrant) (s : State) : (setQuad q x s).tick = s.tick := rfl
@[simp] theorem setQuad_regs (q : Nat) (x : Quadrant) (s : State) : (setQuad q x s).regs = s.regs := rfl
@[simp] theorem setQuad_out (q : Nat) (x : Quadrant) (s : State) : (setQuad q x s).out = s.out := rfl
@[simp] theorem setQuad_hostMem (q : Nat) (x : Quadrant) (s : State) : (setQuad q x s).hostMem = s.hostMem := rfl
@[simp] theorem setQuad_hif (q : Nat) (x : Quadrant) (s : State) : (setQuad q x s).hif = s.hif := rfl
@[simp] theorem setQuad_fab (q : Nat) (x : Quadrant) (s : State) : (setQuad q x s).fab = s.fab := rfl
@[simp] theorem setQuad_parts (q : Nat) (x : Quadrant) (s : State) : (setQuad q x s).parts = s.parts := rfl
@[simp] theorem setQuad_chans (q : Nat) (x : Quadrant) (s : State) : (setQuad q x s).chans = s.chans := rfl
@[simp] theorem setQuad_granary (q : Nat) (x : Quadrant) (s : State) : (setQuad q x s).granary = s.granary := rfl
@[simp] theorem setQuad_tables (q : Nat) (x : Quadrant) (s : State) : (setQuad q x s).tables = s.tables := rfl
@[simp] theorem setQuad_tabPending (q : Nat) (x : Quadrant) (s : State) : (setQuad q x s).tabPending = s.tabPending := rfl
@[simp] theorem setQuad_trig (q : Nat) (x : Quadrant) (s : State) : (setQuad q x s).trig = s.trig := rfl
@[simp] theorem setQuad_det (q : Nat) (x : Quadrant) (s : State) : (setQuad q x s).det = s.det := rfl
@[simp] theorem setQuad_beam (q : Nat) (x : Quadrant) (s : State) : (setQuad q x s).beam = s.beam := rfl
@[simp] theorem setQuad_egr (q : Nat) (x : Quadrant) (s : State) : (setQuad q x s).egr = s.egr := rfl
@[simp] theorem setQuad_rings (q : Nat) (x : Quadrant) (s : State) : (setQuad q x s).rings = s.rings := rfl
@[simp] theorem setQuad_scratch (q : Nat) (x : Quadrant) (s : State) : (setQuad q x s).scratch = s.scratch := rfl
@[simp] theorem setQuad_hbm (q : Nat) (x : Quadrant) (s : State) : (setQuad q x s).hbm = s.hbm := rfl
@[simp] theorem setQuad_time (q : Nat) (x : Quadrant) (s : State) : (setQuad q x s).time = s.time := rfl
@[simp] theorem setQuad_bell (q : Nat) (x : Quadrant) (s : State) : (setQuad q x s).bell = s.bell := rfl
@[simp] theorem setQuad_lanes (q : Nat) (x : Quadrant) (s : State) : (setQuad q x s).lanes = s.lanes := rfl
@[simp] theorem setQuad_stw (q : Nat) (x : Quadrant) (s : State) : (setQuad q x s).stw = s.stw := rfl
@[simp] theorem setQuad_dma (q : Nat) (x : Quadrant) (s : State) : (setQuad q x s).dma = s.dma := rfl
@[simp] theorem setQuad_dep (q : Nat) (x : Quadrant) (s : State) : (setQuad q x s).dep = s.dep := rfl
@[simp] theorem setQuad_mon (q : Nat) (x : Quadrant) (s : State) : (setQuad q x s).mon = s.mon := rfl
@[simp] theorem setQuad_jtag (q : Nat) (x : Quadrant) (s : State) : (setQuad q x s).jtag = s.jtag := rfl
@[simp] theorem setQuad_led (q : Nat) (x : Quadrant) (s : State) : (setQuad q x s).led = s.led := rfl
@[simp] theorem setQuad_fuses (q : Nat) (x : Quadrant) (s : State) : (setQuad q x s).fuses = s.fuses := rfl
@[simp] theorem setQuad_sys (q : Nat) (x : Quadrant) (s : State) : (setQuad q x s).sys = s.sys := rfl
@[simp] theorem setQuad_therm (q : Nat) (x : Quadrant) (s : State) : (setQuad q x s).therm = s.therm := rfl

@[simp] theorem setChan_pending (p : Fin 8) (chan : Nat) (c : Option ChanState) (s : State) : (setChan p chan c s).pending = s.pending := rfl
@[simp] theorem setChan_free (p : Fin 8) (chan : Nat) (c : Option ChanState) (s : State) : (setChan p chan c s).free = s.free := rfl
@[simp] theorem setChan_tick (p : Fin 8) (chan : Nat) (c : Option ChanState) (s : State) : (setChan p chan c s).tick = s.tick := rfl
@[simp] theorem setChan_regs (p : Fin 8) (chan : Nat) (c : Option ChanState) (s : State) : (setChan p chan c s).regs = s.regs := rfl
@[simp] theorem setChan_out (p : Fin 8) (chan : Nat) (c : Option ChanState) (s : State) : (setChan p chan c s).out = s.out := rfl
@[simp] theorem setChan_hostMem (p : Fin 8) (chan : Nat) (c : Option ChanState) (s : State) : (setChan p chan c s).hostMem = s.hostMem := rfl
@[simp] theorem setChan_hif (p : Fin 8) (chan : Nat) (c : Option ChanState) (s : State) : (setChan p chan c s).hif = s.hif := rfl
@[simp] theorem setChan_fab (p : Fin 8) (chan : Nat) (c : Option ChanState) (s : State) : (setChan p chan c s).fab = s.fab := rfl
@[simp] theorem setChan_parts (p : Fin 8) (chan : Nat) (c : Option ChanState) (s : State) : (setChan p chan c s).parts = s.parts := rfl
@[simp] theorem setChan_quads (p : Fin 8) (chan : Nat) (c : Option ChanState) (s : State) : (setChan p chan c s).quads = s.quads := rfl
@[simp] theorem setChan_granary (p : Fin 8) (chan : Nat) (c : Option ChanState) (s : State) : (setChan p chan c s).granary = s.granary := rfl
@[simp] theorem setChan_tables (p : Fin 8) (chan : Nat) (c : Option ChanState) (s : State) : (setChan p chan c s).tables = s.tables := rfl
@[simp] theorem setChan_tabPending (p : Fin 8) (chan : Nat) (c : Option ChanState) (s : State) : (setChan p chan c s).tabPending = s.tabPending := rfl
@[simp] theorem setChan_trig (p : Fin 8) (chan : Nat) (c : Option ChanState) (s : State) : (setChan p chan c s).trig = s.trig := rfl
@[simp] theorem setChan_det (p : Fin 8) (chan : Nat) (c : Option ChanState) (s : State) : (setChan p chan c s).det = s.det := rfl
@[simp] theorem setChan_beam (p : Fin 8) (chan : Nat) (c : Option ChanState) (s : State) : (setChan p chan c s).beam = s.beam := rfl
@[simp] theorem setChan_egr (p : Fin 8) (chan : Nat) (c : Option ChanState) (s : State) : (setChan p chan c s).egr = s.egr := rfl
@[simp] theorem setChan_rings (p : Fin 8) (chan : Nat) (c : Option ChanState) (s : State) : (setChan p chan c s).rings = s.rings := rfl
@[simp] theorem setChan_scratch (p : Fin 8) (chan : Nat) (c : Option ChanState) (s : State) : (setChan p chan c s).scratch = s.scratch := rfl
@[simp] theorem setChan_hbm (p : Fin 8) (chan : Nat) (c : Option ChanState) (s : State) : (setChan p chan c s).hbm = s.hbm := rfl
@[simp] theorem setChan_time (p : Fin 8) (chan : Nat) (c : Option ChanState) (s : State) : (setChan p chan c s).time = s.time := rfl
@[simp] theorem setChan_bell (p : Fin 8) (chan : Nat) (c : Option ChanState) (s : State) : (setChan p chan c s).bell = s.bell := rfl
@[simp] theorem setChan_lanes (p : Fin 8) (chan : Nat) (c : Option ChanState) (s : State) : (setChan p chan c s).lanes = s.lanes := rfl
@[simp] theorem setChan_stw (p : Fin 8) (chan : Nat) (c : Option ChanState) (s : State) : (setChan p chan c s).stw = s.stw := rfl
@[simp] theorem setChan_dma (p : Fin 8) (chan : Nat) (c : Option ChanState) (s : State) : (setChan p chan c s).dma = s.dma := rfl
@[simp] theorem setChan_dep (p : Fin 8) (chan : Nat) (c : Option ChanState) (s : State) : (setChan p chan c s).dep = s.dep := rfl
@[simp] theorem setChan_mon (p : Fin 8) (chan : Nat) (c : Option ChanState) (s : State) : (setChan p chan c s).mon = s.mon := rfl
@[simp] theorem setChan_jtag (p : Fin 8) (chan : Nat) (c : Option ChanState) (s : State) : (setChan p chan c s).jtag = s.jtag := rfl
@[simp] theorem setChan_led (p : Fin 8) (chan : Nat) (c : Option ChanState) (s : State) : (setChan p chan c s).led = s.led := rfl
@[simp] theorem setChan_fuses (p : Fin 8) (chan : Nat) (c : Option ChanState) (s : State) : (setChan p chan c s).fuses = s.fuses := rfl
@[simp] theorem setChan_sys (p : Fin 8) (chan : Nat) (c : Option ChanState) (s : State) : (setChan p chan c s).sys = s.sys := rfl
@[simp] theorem setChan_therm (p : Fin 8) (chan : Nat) (c : Option ChanState) (s : State) : (setChan p chan c s).therm = s.therm := rfl

@[simp] theorem granarySet_pending (p : Fin 8) (chan v : Nat) (r : GranRec) (s : State) : (granarySet p chan v r s).pending = s.pending := rfl
@[simp] theorem granarySet_free (p : Fin 8) (chan v : Nat) (r : GranRec) (s : State) : (granarySet p chan v r s).free = s.free := rfl
@[simp] theorem granarySet_tick (p : Fin 8) (chan v : Nat) (r : GranRec) (s : State) : (granarySet p chan v r s).tick = s.tick := rfl
@[simp] theorem granarySet_regs (p : Fin 8) (chan v : Nat) (r : GranRec) (s : State) : (granarySet p chan v r s).regs = s.regs := rfl
@[simp] theorem granarySet_out (p : Fin 8) (chan v : Nat) (r : GranRec) (s : State) : (granarySet p chan v r s).out = s.out := rfl
@[simp] theorem granarySet_hostMem (p : Fin 8) (chan v : Nat) (r : GranRec) (s : State) : (granarySet p chan v r s).hostMem = s.hostMem := rfl
@[simp] theorem granarySet_hif (p : Fin 8) (chan v : Nat) (r : GranRec) (s : State) : (granarySet p chan v r s).hif = s.hif := rfl
@[simp] theorem granarySet_fab (p : Fin 8) (chan v : Nat) (r : GranRec) (s : State) : (granarySet p chan v r s).fab = s.fab := rfl
@[simp] theorem granarySet_parts (p : Fin 8) (chan v : Nat) (r : GranRec) (s : State) : (granarySet p chan v r s).parts = s.parts := rfl
@[simp] theorem granarySet_quads (p : Fin 8) (chan v : Nat) (r : GranRec) (s : State) : (granarySet p chan v r s).quads = s.quads := rfl
@[simp] theorem granarySet_chans (p : Fin 8) (chan v : Nat) (r : GranRec) (s : State) : (granarySet p chan v r s).chans = s.chans := rfl
@[simp] theorem granarySet_tables (p : Fin 8) (chan v : Nat) (r : GranRec) (s : State) : (granarySet p chan v r s).tables = s.tables := rfl
@[simp] theorem granarySet_tabPending (p : Fin 8) (chan v : Nat) (r : GranRec) (s : State) : (granarySet p chan v r s).tabPending = s.tabPending := rfl
@[simp] theorem granarySet_trig (p : Fin 8) (chan v : Nat) (r : GranRec) (s : State) : (granarySet p chan v r s).trig = s.trig := rfl
@[simp] theorem granarySet_det (p : Fin 8) (chan v : Nat) (r : GranRec) (s : State) : (granarySet p chan v r s).det = s.det := rfl
@[simp] theorem granarySet_beam (p : Fin 8) (chan v : Nat) (r : GranRec) (s : State) : (granarySet p chan v r s).beam = s.beam := rfl
@[simp] theorem granarySet_egr (p : Fin 8) (chan v : Nat) (r : GranRec) (s : State) : (granarySet p chan v r s).egr = s.egr := rfl
@[simp] theorem granarySet_rings (p : Fin 8) (chan v : Nat) (r : GranRec) (s : State) : (granarySet p chan v r s).rings = s.rings := rfl
@[simp] theorem granarySet_scratch (p : Fin 8) (chan v : Nat) (r : GranRec) (s : State) : (granarySet p chan v r s).scratch = s.scratch := rfl
@[simp] theorem granarySet_hbm (p : Fin 8) (chan v : Nat) (r : GranRec) (s : State) : (granarySet p chan v r s).hbm = s.hbm := rfl
@[simp] theorem granarySet_time (p : Fin 8) (chan v : Nat) (r : GranRec) (s : State) : (granarySet p chan v r s).time = s.time := rfl
@[simp] theorem granarySet_bell (p : Fin 8) (chan v : Nat) (r : GranRec) (s : State) : (granarySet p chan v r s).bell = s.bell := rfl
@[simp] theorem granarySet_lanes (p : Fin 8) (chan v : Nat) (r : GranRec) (s : State) : (granarySet p chan v r s).lanes = s.lanes := rfl
@[simp] theorem granarySet_stw (p : Fin 8) (chan v : Nat) (r : GranRec) (s : State) : (granarySet p chan v r s).stw = s.stw := rfl
@[simp] theorem granarySet_dma (p : Fin 8) (chan v : Nat) (r : GranRec) (s : State) : (granarySet p chan v r s).dma = s.dma := rfl
@[simp] theorem granarySet_dep (p : Fin 8) (chan v : Nat) (r : GranRec) (s : State) : (granarySet p chan v r s).dep = s.dep := rfl
@[simp] theorem granarySet_mon (p : Fin 8) (chan v : Nat) (r : GranRec) (s : State) : (granarySet p chan v r s).mon = s.mon := rfl
@[simp] theorem granarySet_jtag (p : Fin 8) (chan v : Nat) (r : GranRec) (s : State) : (granarySet p chan v r s).jtag = s.jtag := rfl
@[simp] theorem granarySet_led (p : Fin 8) (chan v : Nat) (r : GranRec) (s : State) : (granarySet p chan v r s).led = s.led := rfl
@[simp] theorem granarySet_fuses (p : Fin 8) (chan v : Nat) (r : GranRec) (s : State) : (granarySet p chan v r s).fuses = s.fuses := rfl
@[simp] theorem granarySet_sys (p : Fin 8) (chan v : Nat) (r : GranRec) (s : State) : (granarySet p chan v r s).sys = s.sys := rfl
@[simp] theorem granarySet_therm (p : Fin 8) (chan v : Nat) (r : GranRec) (s : State) : (granarySet p chan v r s).therm = s.therm := rfl

@[simp] theorem tabSet_pending (table bank i v : Nat) (s : State) : (tabSet table bank i v s).pending = s.pending := rfl
@[simp] theorem tabSet_free (table bank i v : Nat) (s : State) : (tabSet table bank i v s).free = s.free := rfl
@[simp] theorem tabSet_tick (table bank i v : Nat) (s : State) : (tabSet table bank i v s).tick = s.tick := rfl
@[simp] theorem tabSet_regs (table bank i v : Nat) (s : State) : (tabSet table bank i v s).regs = s.regs := rfl
@[simp] theorem tabSet_out (table bank i v : Nat) (s : State) : (tabSet table bank i v s).out = s.out := rfl
@[simp] theorem tabSet_hostMem (table bank i v : Nat) (s : State) : (tabSet table bank i v s).hostMem = s.hostMem := rfl
@[simp] theorem tabSet_hif (table bank i v : Nat) (s : State) : (tabSet table bank i v s).hif = s.hif := rfl
@[simp] theorem tabSet_fab (table bank i v : Nat) (s : State) : (tabSet table bank i v s).fab = s.fab := rfl
@[simp] theorem tabSet_parts (table bank i v : Nat) (s : State) : (tabSet table bank i v s).parts = s.parts := rfl
@[simp] theorem tabSet_quads (table bank i v : Nat) (s : State) : (tabSet table bank i v s).quads = s.quads := rfl
@[simp] theorem tabSet_chans (table bank i v : Nat) (s : State) : (tabSet table bank i v s).chans = s.chans := rfl
@[simp] theorem tabSet_granary (table bank i v : Nat) (s : State) : (tabSet table bank i v s).granary = s.granary := rfl
@[simp] theorem tabSet_tabPending (table bank i v : Nat) (s : State) : (tabSet table bank i v s).tabPending = s.tabPending := rfl
@[simp] theorem tabSet_trig (table bank i v : Nat) (s : State) : (tabSet table bank i v s).trig = s.trig := rfl
@[simp] theorem tabSet_det (table bank i v : Nat) (s : State) : (tabSet table bank i v s).det = s.det := rfl
@[simp] theorem tabSet_beam (table bank i v : Nat) (s : State) : (tabSet table bank i v s).beam = s.beam := rfl
@[simp] theorem tabSet_egr (table bank i v : Nat) (s : State) : (tabSet table bank i v s).egr = s.egr := rfl
@[simp] theorem tabSet_rings (table bank i v : Nat) (s : State) : (tabSet table bank i v s).rings = s.rings := rfl
@[simp] theorem tabSet_scratch (table bank i v : Nat) (s : State) : (tabSet table bank i v s).scratch = s.scratch := rfl
@[simp] theorem tabSet_hbm (table bank i v : Nat) (s : State) : (tabSet table bank i v s).hbm = s.hbm := rfl
@[simp] theorem tabSet_time (table bank i v : Nat) (s : State) : (tabSet table bank i v s).time = s.time := rfl
@[simp] theorem tabSet_bell (table bank i v : Nat) (s : State) : (tabSet table bank i v s).bell = s.bell := rfl
@[simp] theorem tabSet_lanes (table bank i v : Nat) (s : State) : (tabSet table bank i v s).lanes = s.lanes := rfl
@[simp] theorem tabSet_stw (table bank i v : Nat) (s : State) : (tabSet table bank i v s).stw = s.stw := rfl
@[simp] theorem tabSet_dma (table bank i v : Nat) (s : State) : (tabSet table bank i v s).dma = s.dma := rfl
@[simp] theorem tabSet_dep (table bank i v : Nat) (s : State) : (tabSet table bank i v s).dep = s.dep := rfl
@[simp] theorem tabSet_mon (table bank i v : Nat) (s : State) : (tabSet table bank i v s).mon = s.mon := rfl
@[simp] theorem tabSet_jtag (table bank i v : Nat) (s : State) : (tabSet table bank i v s).jtag = s.jtag := rfl
@[simp] theorem tabSet_led (table bank i v : Nat) (s : State) : (tabSet table bank i v s).led = s.led := rfl
@[simp] theorem tabSet_fuses (table bank i v : Nat) (s : State) : (tabSet table bank i v s).fuses = s.fuses := rfl
@[simp] theorem tabSet_sys (table bank i v : Nat) (s : State) : (tabSet table bank i v s).sys = s.sys := rfl
@[simp] theorem tabSet_therm (table bank i v : Nat) (s : State) : (tabSet table bank i v s).therm = s.therm := rfl

@[simp] theorem setSysRing_pending (k : Nat) (r : SysRing) (s : State) : (setSysRing k r s).pending = s.pending := rfl
@[simp] theorem setSysRing_free (k : Nat) (r : SysRing) (s : State) : (setSysRing k r s).free = s.free := rfl
@[simp] theorem setSysRing_tick (k : Nat) (r : SysRing) (s : State) : (setSysRing k r s).tick = s.tick := rfl
@[simp] theorem setSysRing_regs (k : Nat) (r : SysRing) (s : State) : (setSysRing k r s).regs = s.regs := rfl
@[simp] theorem setSysRing_out (k : Nat) (r : SysRing) (s : State) : (setSysRing k r s).out = s.out := rfl
@[simp] theorem setSysRing_hostMem (k : Nat) (r : SysRing) (s : State) : (setSysRing k r s).hostMem = s.hostMem := rfl
@[simp] theorem setSysRing_hif (k : Nat) (r : SysRing) (s : State) : (setSysRing k r s).hif = s.hif := rfl
@[simp] theorem setSysRing_fab (k : Nat) (r : SysRing) (s : State) : (setSysRing k r s).fab = s.fab := rfl
@[simp] theorem setSysRing_parts (k : Nat) (r : SysRing) (s : State) : (setSysRing k r s).parts = s.parts := rfl
@[simp] theorem setSysRing_quads (k : Nat) (r : SysRing) (s : State) : (setSysRing k r s).quads = s.quads := rfl
@[simp] theorem setSysRing_chans (k : Nat) (r : SysRing) (s : State) : (setSysRing k r s).chans = s.chans := rfl
@[simp] theorem setSysRing_granary (k : Nat) (r : SysRing) (s : State) : (setSysRing k r s).granary = s.granary := rfl
@[simp] theorem setSysRing_tables (k : Nat) (r : SysRing) (s : State) : (setSysRing k r s).tables = s.tables := rfl
@[simp] theorem setSysRing_tabPending (k : Nat) (r : SysRing) (s : State) : (setSysRing k r s).tabPending = s.tabPending := rfl
@[simp] theorem setSysRing_trig (k : Nat) (r : SysRing) (s : State) : (setSysRing k r s).trig = s.trig := rfl
@[simp] theorem setSysRing_det (k : Nat) (r : SysRing) (s : State) : (setSysRing k r s).det = s.det := rfl
@[simp] theorem setSysRing_beam (k : Nat) (r : SysRing) (s : State) : (setSysRing k r s).beam = s.beam := rfl
@[simp] theorem setSysRing_egr (k : Nat) (r : SysRing) (s : State) : (setSysRing k r s).egr = s.egr := rfl
@[simp] theorem setSysRing_scratch (k : Nat) (r : SysRing) (s : State) : (setSysRing k r s).scratch = s.scratch := rfl
@[simp] theorem setSysRing_hbm (k : Nat) (r : SysRing) (s : State) : (setSysRing k r s).hbm = s.hbm := rfl
@[simp] theorem setSysRing_time (k : Nat) (r : SysRing) (s : State) : (setSysRing k r s).time = s.time := rfl
@[simp] theorem setSysRing_bell (k : Nat) (r : SysRing) (s : State) : (setSysRing k r s).bell = s.bell := rfl
@[simp] theorem setSysRing_lanes (k : Nat) (r : SysRing) (s : State) : (setSysRing k r s).lanes = s.lanes := rfl
@[simp] theorem setSysRing_stw (k : Nat) (r : SysRing) (s : State) : (setSysRing k r s).stw = s.stw := rfl
@[simp] theorem setSysRing_dma (k : Nat) (r : SysRing) (s : State) : (setSysRing k r s).dma = s.dma := rfl
@[simp] theorem setSysRing_dep (k : Nat) (r : SysRing) (s : State) : (setSysRing k r s).dep = s.dep := rfl
@[simp] theorem setSysRing_mon (k : Nat) (r : SysRing) (s : State) : (setSysRing k r s).mon = s.mon := rfl
@[simp] theorem setSysRing_jtag (k : Nat) (r : SysRing) (s : State) : (setSysRing k r s).jtag = s.jtag := rfl
@[simp] theorem setSysRing_led (k : Nat) (r : SysRing) (s : State) : (setSysRing k r s).led = s.led := rfl
@[simp] theorem setSysRing_fuses (k : Nat) (r : SysRing) (s : State) : (setSysRing k r s).fuses = s.fuses := rfl
@[simp] theorem setSysRing_sys (k : Nat) (r : SysRing) (s : State) : (setSysRing k r s).sys = s.sys := rfl
@[simp] theorem setSysRing_therm (k : Nat) (r : SysRing) (s : State) : (setSysRing k r s).therm = s.therm := rfl

@[simp] theorem setCrib_pending (c : Nat) (x : Crib) (s : State) : (setCrib c x s).pending = s.pending := rfl
@[simp] theorem setCrib_free (c : Nat) (x : Crib) (s : State) : (setCrib c x s).free = s.free := rfl
@[simp] theorem setCrib_tick (c : Nat) (x : Crib) (s : State) : (setCrib c x s).tick = s.tick := rfl
@[simp] theorem setCrib_regs (c : Nat) (x : Crib) (s : State) : (setCrib c x s).regs = s.regs := rfl
@[simp] theorem setCrib_out (c : Nat) (x : Crib) (s : State) : (setCrib c x s).out = s.out := rfl
@[simp] theorem setCrib_hostMem (c : Nat) (x : Crib) (s : State) : (setCrib c x s).hostMem = s.hostMem := rfl
@[simp] theorem setCrib_hif (c : Nat) (x : Crib) (s : State) : (setCrib c x s).hif = s.hif := rfl
@[simp] theorem setCrib_fab (c : Nat) (x : Crib) (s : State) : (setCrib c x s).fab = s.fab := rfl
@[simp] theorem setCrib_parts (c : Nat) (x : Crib) (s : State) : (setCrib c x s).parts = s.parts := rfl
@[simp] theorem setCrib_quads (c : Nat) (x : Crib) (s : State) : (setCrib c x s).quads = s.quads := rfl
@[simp] theorem setCrib_chans (c : Nat) (x : Crib) (s : State) : (setCrib c x s).chans = s.chans := rfl
@[simp] theorem setCrib_granary (c : Nat) (x : Crib) (s : State) : (setCrib c x s).granary = s.granary := rfl
@[simp] theorem setCrib_tables (c : Nat) (x : Crib) (s : State) : (setCrib c x s).tables = s.tables := rfl
@[simp] theorem setCrib_tabPending (c : Nat) (x : Crib) (s : State) : (setCrib c x s).tabPending = s.tabPending := rfl
@[simp] theorem setCrib_det (c : Nat) (x : Crib) (s : State) : (setCrib c x s).det = s.det := rfl
@[simp] theorem setCrib_beam (c : Nat) (x : Crib) (s : State) : (setCrib c x s).beam = s.beam := rfl
@[simp] theorem setCrib_egr (c : Nat) (x : Crib) (s : State) : (setCrib c x s).egr = s.egr := rfl
@[simp] theorem setCrib_rings (c : Nat) (x : Crib) (s : State) : (setCrib c x s).rings = s.rings := rfl
@[simp] theorem setCrib_scratch (c : Nat) (x : Crib) (s : State) : (setCrib c x s).scratch = s.scratch := rfl
@[simp] theorem setCrib_hbm (c : Nat) (x : Crib) (s : State) : (setCrib c x s).hbm = s.hbm := rfl
@[simp] theorem setCrib_time (c : Nat) (x : Crib) (s : State) : (setCrib c x s).time = s.time := rfl
@[simp] theorem setCrib_bell (c : Nat) (x : Crib) (s : State) : (setCrib c x s).bell = s.bell := rfl
@[simp] theorem setCrib_lanes (c : Nat) (x : Crib) (s : State) : (setCrib c x s).lanes = s.lanes := rfl
@[simp] theorem setCrib_stw (c : Nat) (x : Crib) (s : State) : (setCrib c x s).stw = s.stw := rfl
@[simp] theorem setCrib_dma (c : Nat) (x : Crib) (s : State) : (setCrib c x s).dma = s.dma := rfl
@[simp] theorem setCrib_dep (c : Nat) (x : Crib) (s : State) : (setCrib c x s).dep = s.dep := rfl
@[simp] theorem setCrib_mon (c : Nat) (x : Crib) (s : State) : (setCrib c x s).mon = s.mon := rfl
@[simp] theorem setCrib_jtag (c : Nat) (x : Crib) (s : State) : (setCrib c x s).jtag = s.jtag := rfl
@[simp] theorem setCrib_led (c : Nat) (x : Crib) (s : State) : (setCrib c x s).led = s.led := rfl
@[simp] theorem setCrib_fuses (c : Nat) (x : Crib) (s : State) : (setCrib c x s).fuses = s.fuses := rfl
@[simp] theorem setCrib_sys (c : Nat) (x : Crib) (s : State) : (setCrib c x s).sys = s.sys := rfl
@[simp] theorem setCrib_therm (c : Nat) (x : Crib) (s : State) : (setCrib c x s).therm = s.therm := rfl

@[simp] theorem setCore_pending (c : Nat) (x : Core) (s : State) : (setCore c x s).pending = s.pending := rfl
@[simp] theorem setCore_free (c : Nat) (x : Core) (s : State) : (setCore c x s).free = s.free := rfl
@[simp] theorem setCore_tick (c : Nat) (x : Core) (s : State) : (setCore c x s).tick = s.tick := rfl
@[simp] theorem setCore_regs (c : Nat) (x : Core) (s : State) : (setCore c x s).regs = s.regs := rfl
@[simp] theorem setCore_out (c : Nat) (x : Core) (s : State) : (setCore c x s).out = s.out := rfl
@[simp] theorem setCore_hostMem (c : Nat) (x : Core) (s : State) : (setCore c x s).hostMem = s.hostMem := rfl
@[simp] theorem setCore_hif (c : Nat) (x : Core) (s : State) : (setCore c x s).hif = s.hif := rfl
@[simp] theorem setCore_fab (c : Nat) (x : Core) (s : State) : (setCore c x s).fab = s.fab := rfl
@[simp] theorem setCore_parts (c : Nat) (x : Core) (s : State) : (setCore c x s).parts = s.parts := rfl
@[simp] theorem setCore_quads (c : Nat) (x : Core) (s : State) : (setCore c x s).quads = s.quads := rfl
@[simp] theorem setCore_chans (c : Nat) (x : Core) (s : State) : (setCore c x s).chans = s.chans := rfl
@[simp] theorem setCore_granary (c : Nat) (x : Core) (s : State) : (setCore c x s).granary = s.granary := rfl
@[simp] theorem setCore_tables (c : Nat) (x : Core) (s : State) : (setCore c x s).tables = s.tables := rfl
@[simp] theorem setCore_tabPending (c : Nat) (x : Core) (s : State) : (setCore c x s).tabPending = s.tabPending := rfl
@[simp] theorem setCore_trig (c : Nat) (x : Core) (s : State) : (setCore c x s).trig = s.trig := rfl
@[simp] theorem setCore_det (c : Nat) (x : Core) (s : State) : (setCore c x s).det = s.det := rfl
@[simp] theorem setCore_beam (c : Nat) (x : Core) (s : State) : (setCore c x s).beam = s.beam := rfl
@[simp] theorem setCore_egr (c : Nat) (x : Core) (s : State) : (setCore c x s).egr = s.egr := rfl
@[simp] theorem setCore_rings (c : Nat) (x : Core) (s : State) : (setCore c x s).rings = s.rings := rfl
@[simp] theorem setCore_scratch (c : Nat) (x : Core) (s : State) : (setCore c x s).scratch = s.scratch := rfl
@[simp] theorem setCore_hbm (c : Nat) (x : Core) (s : State) : (setCore c x s).hbm = s.hbm := rfl
@[simp] theorem setCore_time (c : Nat) (x : Core) (s : State) : (setCore c x s).time = s.time := rfl
@[simp] theorem setCore_bell (c : Nat) (x : Core) (s : State) : (setCore c x s).bell = s.bell := rfl
@[simp] theorem setCore_lanes (c : Nat) (x : Core) (s : State) : (setCore c x s).lanes = s.lanes := rfl
@[simp] theorem setCore_dma (c : Nat) (x : Core) (s : State) : (setCore c x s).dma = s.dma := rfl
@[simp] theorem setCore_dep (c : Nat) (x : Core) (s : State) : (setCore c x s).dep = s.dep := rfl
@[simp] theorem setCore_mon (c : Nat) (x : Core) (s : State) : (setCore c x s).mon = s.mon := rfl
@[simp] theorem setCore_jtag (c : Nat) (x : Core) (s : State) : (setCore c x s).jtag = s.jtag := rfl
@[simp] theorem setCore_led (c : Nat) (x : Core) (s : State) : (setCore c x s).led = s.led := rfl
@[simp] theorem setCore_fuses (c : Nat) (x : Core) (s : State) : (setCore c x s).fuses = s.fuses := rfl
@[simp] theorem setCore_sys (c : Nat) (x : Core) (s : State) : (setCore c x s).sys = s.sys := rfl
@[simp] theorem setCore_therm (c : Nat) (x : Core) (s : State) : (setCore c x s).therm = s.therm := rfl

@[simp] theorem onCore_pending (c : Nat) (f : Core → Core) (s : State) : (onCore c f s).pending = s.pending := rfl
@[simp] theorem onCore_free (c : Nat) (f : Core → Core) (s : State) : (onCore c f s).free = s.free := rfl
@[simp] theorem onCore_tick (c : Nat) (f : Core → Core) (s : State) : (onCore c f s).tick = s.tick := rfl
@[simp] theorem onCore_regs (c : Nat) (f : Core → Core) (s : State) : (onCore c f s).regs = s.regs := rfl
@[simp] theorem onCore_out (c : Nat) (f : Core → Core) (s : State) : (onCore c f s).out = s.out := rfl
@[simp] theorem onCore_hostMem (c : Nat) (f : Core → Core) (s : State) : (onCore c f s).hostMem = s.hostMem := rfl
@[simp] theorem onCore_hif (c : Nat) (f : Core → Core) (s : State) : (onCore c f s).hif = s.hif := rfl
@[simp] theorem onCore_fab (c : Nat) (f : Core → Core) (s : State) : (onCore c f s).fab = s.fab := rfl
@[simp] theorem onCore_parts (c : Nat) (f : Core → Core) (s : State) : (onCore c f s).parts = s.parts := rfl
@[simp] theorem onCore_quads (c : Nat) (f : Core → Core) (s : State) : (onCore c f s).quads = s.quads := rfl
@[simp] theorem onCore_chans (c : Nat) (f : Core → Core) (s : State) : (onCore c f s).chans = s.chans := rfl
@[simp] theorem onCore_granary (c : Nat) (f : Core → Core) (s : State) : (onCore c f s).granary = s.granary := rfl
@[simp] theorem onCore_tables (c : Nat) (f : Core → Core) (s : State) : (onCore c f s).tables = s.tables := rfl
@[simp] theorem onCore_tabPending (c : Nat) (f : Core → Core) (s : State) : (onCore c f s).tabPending = s.tabPending := rfl
@[simp] theorem onCore_trig (c : Nat) (f : Core → Core) (s : State) : (onCore c f s).trig = s.trig := rfl
@[simp] theorem onCore_det (c : Nat) (f : Core → Core) (s : State) : (onCore c f s).det = s.det := rfl
@[simp] theorem onCore_beam (c : Nat) (f : Core → Core) (s : State) : (onCore c f s).beam = s.beam := rfl
@[simp] theorem onCore_egr (c : Nat) (f : Core → Core) (s : State) : (onCore c f s).egr = s.egr := rfl
@[simp] theorem onCore_rings (c : Nat) (f : Core → Core) (s : State) : (onCore c f s).rings = s.rings := rfl
@[simp] theorem onCore_scratch (c : Nat) (f : Core → Core) (s : State) : (onCore c f s).scratch = s.scratch := rfl
@[simp] theorem onCore_hbm (c : Nat) (f : Core → Core) (s : State) : (onCore c f s).hbm = s.hbm := rfl
@[simp] theorem onCore_time (c : Nat) (f : Core → Core) (s : State) : (onCore c f s).time = s.time := rfl
@[simp] theorem onCore_bell (c : Nat) (f : Core → Core) (s : State) : (onCore c f s).bell = s.bell := rfl
@[simp] theorem onCore_lanes (c : Nat) (f : Core → Core) (s : State) : (onCore c f s).lanes = s.lanes := rfl
@[simp] theorem onCore_dma (c : Nat) (f : Core → Core) (s : State) : (onCore c f s).dma = s.dma := rfl
@[simp] theorem onCore_dep (c : Nat) (f : Core → Core) (s : State) : (onCore c f s).dep = s.dep := rfl
@[simp] theorem onCore_mon (c : Nat) (f : Core → Core) (s : State) : (onCore c f s).mon = s.mon := rfl
@[simp] theorem onCore_jtag (c : Nat) (f : Core → Core) (s : State) : (onCore c f s).jtag = s.jtag := rfl
@[simp] theorem onCore_led (c : Nat) (f : Core → Core) (s : State) : (onCore c f s).led = s.led := rfl
@[simp] theorem onCore_fuses (c : Nat) (f : Core → Core) (s : State) : (onCore c f s).fuses = s.fuses := rfl
@[simp] theorem onCore_sys (c : Nat) (f : Core → Core) (s : State) : (onCore c f s).sys = s.sys := rfl
@[simp] theorem onCore_therm (c : Nat) (f : Core → Core) (s : State) : (onCore c f s).therm = s.therm := rfl

@[simp] theorem setDma_pending (ch : Nat) (c : Option DmaChan) (s : State) : (setDma ch c s).pending = s.pending := rfl
@[simp] theorem setDma_free (ch : Nat) (c : Option DmaChan) (s : State) : (setDma ch c s).free = s.free := rfl
@[simp] theorem setDma_tick (ch : Nat) (c : Option DmaChan) (s : State) : (setDma ch c s).tick = s.tick := rfl
@[simp] theorem setDma_regs (ch : Nat) (c : Option DmaChan) (s : State) : (setDma ch c s).regs = s.regs := rfl
@[simp] theorem setDma_out (ch : Nat) (c : Option DmaChan) (s : State) : (setDma ch c s).out = s.out := rfl
@[simp] theorem setDma_hostMem (ch : Nat) (c : Option DmaChan) (s : State) : (setDma ch c s).hostMem = s.hostMem := rfl
@[simp] theorem setDma_hif (ch : Nat) (c : Option DmaChan) (s : State) : (setDma ch c s).hif = s.hif := rfl
@[simp] theorem setDma_fab (ch : Nat) (c : Option DmaChan) (s : State) : (setDma ch c s).fab = s.fab := rfl
@[simp] theorem setDma_parts (ch : Nat) (c : Option DmaChan) (s : State) : (setDma ch c s).parts = s.parts := rfl
@[simp] theorem setDma_quads (ch : Nat) (c : Option DmaChan) (s : State) : (setDma ch c s).quads = s.quads := rfl
@[simp] theorem setDma_chans (ch : Nat) (c : Option DmaChan) (s : State) : (setDma ch c s).chans = s.chans := rfl
@[simp] theorem setDma_granary (ch : Nat) (c : Option DmaChan) (s : State) : (setDma ch c s).granary = s.granary := rfl
@[simp] theorem setDma_tables (ch : Nat) (c : Option DmaChan) (s : State) : (setDma ch c s).tables = s.tables := rfl
@[simp] theorem setDma_tabPending (ch : Nat) (c : Option DmaChan) (s : State) : (setDma ch c s).tabPending = s.tabPending := rfl
@[simp] theorem setDma_trig (ch : Nat) (c : Option DmaChan) (s : State) : (setDma ch c s).trig = s.trig := rfl
@[simp] theorem setDma_det (ch : Nat) (c : Option DmaChan) (s : State) : (setDma ch c s).det = s.det := rfl
@[simp] theorem setDma_beam (ch : Nat) (c : Option DmaChan) (s : State) : (setDma ch c s).beam = s.beam := rfl
@[simp] theorem setDma_egr (ch : Nat) (c : Option DmaChan) (s : State) : (setDma ch c s).egr = s.egr := rfl
@[simp] theorem setDma_rings (ch : Nat) (c : Option DmaChan) (s : State) : (setDma ch c s).rings = s.rings := rfl
@[simp] theorem setDma_scratch (ch : Nat) (c : Option DmaChan) (s : State) : (setDma ch c s).scratch = s.scratch := rfl
@[simp] theorem setDma_hbm (ch : Nat) (c : Option DmaChan) (s : State) : (setDma ch c s).hbm = s.hbm := rfl
@[simp] theorem setDma_time (ch : Nat) (c : Option DmaChan) (s : State) : (setDma ch c s).time = s.time := rfl
@[simp] theorem setDma_bell (ch : Nat) (c : Option DmaChan) (s : State) : (setDma ch c s).bell = s.bell := rfl
@[simp] theorem setDma_lanes (ch : Nat) (c : Option DmaChan) (s : State) : (setDma ch c s).lanes = s.lanes := rfl
@[simp] theorem setDma_stw (ch : Nat) (c : Option DmaChan) (s : State) : (setDma ch c s).stw = s.stw := rfl
@[simp] theorem setDma_dep (ch : Nat) (c : Option DmaChan) (s : State) : (setDma ch c s).dep = s.dep := rfl
@[simp] theorem setDma_mon (ch : Nat) (c : Option DmaChan) (s : State) : (setDma ch c s).mon = s.mon := rfl
@[simp] theorem setDma_jtag (ch : Nat) (c : Option DmaChan) (s : State) : (setDma ch c s).jtag = s.jtag := rfl
@[simp] theorem setDma_led (ch : Nat) (c : Option DmaChan) (s : State) : (setDma ch c s).led = s.led := rfl
@[simp] theorem setDma_fuses (ch : Nat) (c : Option DmaChan) (s : State) : (setDma ch c s).fuses = s.fuses := rfl
@[simp] theorem setDma_sys (ch : Nat) (c : Option DmaChan) (s : State) : (setDma ch c s).sys = s.sys := rfl
@[simp] theorem setDma_therm (ch : Nat) (c : Option DmaChan) (s : State) : (setDma ch c s).therm = s.therm := rfl

@[simp] theorem setTarget_pending (k : Nat) (p : TargetPort) (s : State) : (setTarget k p s).pending = s.pending := rfl
@[simp] theorem setTarget_free (k : Nat) (p : TargetPort) (s : State) : (setTarget k p s).free = s.free := rfl
@[simp] theorem setTarget_tick (k : Nat) (p : TargetPort) (s : State) : (setTarget k p s).tick = s.tick := rfl
@[simp] theorem setTarget_regs (k : Nat) (p : TargetPort) (s : State) : (setTarget k p s).regs = s.regs := rfl
@[simp] theorem setTarget_out (k : Nat) (p : TargetPort) (s : State) : (setTarget k p s).out = s.out := rfl
@[simp] theorem setTarget_hostMem (k : Nat) (p : TargetPort) (s : State) : (setTarget k p s).hostMem = s.hostMem := rfl
@[simp] theorem setTarget_hif (k : Nat) (p : TargetPort) (s : State) : (setTarget k p s).hif = s.hif := rfl
@[simp] theorem setTarget_parts (k : Nat) (p : TargetPort) (s : State) : (setTarget k p s).parts = s.parts := rfl
@[simp] theorem setTarget_quads (k : Nat) (p : TargetPort) (s : State) : (setTarget k p s).quads = s.quads := rfl
@[simp] theorem setTarget_chans (k : Nat) (p : TargetPort) (s : State) : (setTarget k p s).chans = s.chans := rfl
@[simp] theorem setTarget_granary (k : Nat) (p : TargetPort) (s : State) : (setTarget k p s).granary = s.granary := rfl
@[simp] theorem setTarget_tables (k : Nat) (p : TargetPort) (s : State) : (setTarget k p s).tables = s.tables := rfl
@[simp] theorem setTarget_tabPending (k : Nat) (p : TargetPort) (s : State) : (setTarget k p s).tabPending = s.tabPending := rfl
@[simp] theorem setTarget_trig (k : Nat) (p : TargetPort) (s : State) : (setTarget k p s).trig = s.trig := rfl
@[simp] theorem setTarget_det (k : Nat) (p : TargetPort) (s : State) : (setTarget k p s).det = s.det := rfl
@[simp] theorem setTarget_beam (k : Nat) (p : TargetPort) (s : State) : (setTarget k p s).beam = s.beam := rfl
@[simp] theorem setTarget_egr (k : Nat) (p : TargetPort) (s : State) : (setTarget k p s).egr = s.egr := rfl
@[simp] theorem setTarget_rings (k : Nat) (p : TargetPort) (s : State) : (setTarget k p s).rings = s.rings := rfl
@[simp] theorem setTarget_scratch (k : Nat) (p : TargetPort) (s : State) : (setTarget k p s).scratch = s.scratch := rfl
@[simp] theorem setTarget_hbm (k : Nat) (p : TargetPort) (s : State) : (setTarget k p s).hbm = s.hbm := rfl
@[simp] theorem setTarget_time (k : Nat) (p : TargetPort) (s : State) : (setTarget k p s).time = s.time := rfl
@[simp] theorem setTarget_bell (k : Nat) (p : TargetPort) (s : State) : (setTarget k p s).bell = s.bell := rfl
@[simp] theorem setTarget_lanes (k : Nat) (p : TargetPort) (s : State) : (setTarget k p s).lanes = s.lanes := rfl
@[simp] theorem setTarget_stw (k : Nat) (p : TargetPort) (s : State) : (setTarget k p s).stw = s.stw := rfl
@[simp] theorem setTarget_dma (k : Nat) (p : TargetPort) (s : State) : (setTarget k p s).dma = s.dma := rfl
@[simp] theorem setTarget_dep (k : Nat) (p : TargetPort) (s : State) : (setTarget k p s).dep = s.dep := rfl
@[simp] theorem setTarget_mon (k : Nat) (p : TargetPort) (s : State) : (setTarget k p s).mon = s.mon := rfl
@[simp] theorem setTarget_jtag (k : Nat) (p : TargetPort) (s : State) : (setTarget k p s).jtag = s.jtag := rfl
@[simp] theorem setTarget_led (k : Nat) (p : TargetPort) (s : State) : (setTarget k p s).led = s.led := rfl
@[simp] theorem setTarget_fuses (k : Nat) (p : TargetPort) (s : State) : (setTarget k p s).fuses = s.fuses := rfl
@[simp] theorem setTarget_sys (k : Nat) (p : TargetPort) (s : State) : (setTarget k p s).sys = s.sys := rfl
@[simp] theorem setTarget_therm (k : Nat) (p : TargetPort) (s : State) : (setTarget k p s).therm = s.therm := rfl

@[simp] theorem setTokens_pending (m n : Nat) (s : State) : (setTokens m n s).pending = s.pending := rfl
@[simp] theorem setTokens_free (m n : Nat) (s : State) : (setTokens m n s).free = s.free := rfl
@[simp] theorem setTokens_tick (m n : Nat) (s : State) : (setTokens m n s).tick = s.tick := rfl
@[simp] theorem setTokens_regs (m n : Nat) (s : State) : (setTokens m n s).regs = s.regs := rfl
@[simp] theorem setTokens_out (m n : Nat) (s : State) : (setTokens m n s).out = s.out := rfl
@[simp] theorem setTokens_hostMem (m n : Nat) (s : State) : (setTokens m n s).hostMem = s.hostMem := rfl
@[simp] theorem setTokens_hif (m n : Nat) (s : State) : (setTokens m n s).hif = s.hif := rfl
@[simp] theorem setTokens_parts (m n : Nat) (s : State) : (setTokens m n s).parts = s.parts := rfl
@[simp] theorem setTokens_quads (m n : Nat) (s : State) : (setTokens m n s).quads = s.quads := rfl
@[simp] theorem setTokens_chans (m n : Nat) (s : State) : (setTokens m n s).chans = s.chans := rfl
@[simp] theorem setTokens_granary (m n : Nat) (s : State) : (setTokens m n s).granary = s.granary := rfl
@[simp] theorem setTokens_tables (m n : Nat) (s : State) : (setTokens m n s).tables = s.tables := rfl
@[simp] theorem setTokens_tabPending (m n : Nat) (s : State) : (setTokens m n s).tabPending = s.tabPending := rfl
@[simp] theorem setTokens_trig (m n : Nat) (s : State) : (setTokens m n s).trig = s.trig := rfl
@[simp] theorem setTokens_det (m n : Nat) (s : State) : (setTokens m n s).det = s.det := rfl
@[simp] theorem setTokens_beam (m n : Nat) (s : State) : (setTokens m n s).beam = s.beam := rfl
@[simp] theorem setTokens_egr (m n : Nat) (s : State) : (setTokens m n s).egr = s.egr := rfl
@[simp] theorem setTokens_rings (m n : Nat) (s : State) : (setTokens m n s).rings = s.rings := rfl
@[simp] theorem setTokens_scratch (m n : Nat) (s : State) : (setTokens m n s).scratch = s.scratch := rfl
@[simp] theorem setTokens_hbm (m n : Nat) (s : State) : (setTokens m n s).hbm = s.hbm := rfl
@[simp] theorem setTokens_time (m n : Nat) (s : State) : (setTokens m n s).time = s.time := rfl
@[simp] theorem setTokens_bell (m n : Nat) (s : State) : (setTokens m n s).bell = s.bell := rfl
@[simp] theorem setTokens_lanes (m n : Nat) (s : State) : (setTokens m n s).lanes = s.lanes := rfl
@[simp] theorem setTokens_stw (m n : Nat) (s : State) : (setTokens m n s).stw = s.stw := rfl
@[simp] theorem setTokens_dma (m n : Nat) (s : State) : (setTokens m n s).dma = s.dma := rfl
@[simp] theorem setTokens_dep (m n : Nat) (s : State) : (setTokens m n s).dep = s.dep := rfl
@[simp] theorem setTokens_mon (m n : Nat) (s : State) : (setTokens m n s).mon = s.mon := rfl
@[simp] theorem setTokens_jtag (m n : Nat) (s : State) : (setTokens m n s).jtag = s.jtag := rfl
@[simp] theorem setTokens_led (m n : Nat) (s : State) : (setTokens m n s).led = s.led := rfl
@[simp] theorem setTokens_fuses (m n : Nat) (s : State) : (setTokens m n s).fuses = s.fuses := rfl
@[simp] theorem setTokens_sys (m n : Nat) (s : State) : (setTokens m n s).sys = s.sys := rfl
@[simp] theorem setTokens_therm (m n : Nat) (s : State) : (setTokens m n s).therm = s.therm := rfl

@[simp] theorem onLane_pending (n : Nat) (f : LaneSt → LaneSt) (s : State) : (onLane n f s).pending = s.pending := rfl
@[simp] theorem onLane_free (n : Nat) (f : LaneSt → LaneSt) (s : State) : (onLane n f s).free = s.free := rfl
@[simp] theorem onLane_tick (n : Nat) (f : LaneSt → LaneSt) (s : State) : (onLane n f s).tick = s.tick := rfl
@[simp] theorem onLane_regs (n : Nat) (f : LaneSt → LaneSt) (s : State) : (onLane n f s).regs = s.regs := rfl
@[simp] theorem onLane_out (n : Nat) (f : LaneSt → LaneSt) (s : State) : (onLane n f s).out = s.out := rfl
@[simp] theorem onLane_hostMem (n : Nat) (f : LaneSt → LaneSt) (s : State) : (onLane n f s).hostMem = s.hostMem := rfl
@[simp] theorem onLane_hif (n : Nat) (f : LaneSt → LaneSt) (s : State) : (onLane n f s).hif = s.hif := rfl
@[simp] theorem onLane_fab (n : Nat) (f : LaneSt → LaneSt) (s : State) : (onLane n f s).fab = s.fab := rfl
@[simp] theorem onLane_parts (n : Nat) (f : LaneSt → LaneSt) (s : State) : (onLane n f s).parts = s.parts := rfl
@[simp] theorem onLane_quads (n : Nat) (f : LaneSt → LaneSt) (s : State) : (onLane n f s).quads = s.quads := rfl
@[simp] theorem onLane_chans (n : Nat) (f : LaneSt → LaneSt) (s : State) : (onLane n f s).chans = s.chans := rfl
@[simp] theorem onLane_granary (n : Nat) (f : LaneSt → LaneSt) (s : State) : (onLane n f s).granary = s.granary := rfl
@[simp] theorem onLane_tables (n : Nat) (f : LaneSt → LaneSt) (s : State) : (onLane n f s).tables = s.tables := rfl
@[simp] theorem onLane_tabPending (n : Nat) (f : LaneSt → LaneSt) (s : State) : (onLane n f s).tabPending = s.tabPending := rfl
@[simp] theorem onLane_trig (n : Nat) (f : LaneSt → LaneSt) (s : State) : (onLane n f s).trig = s.trig := rfl
@[simp] theorem onLane_det (n : Nat) (f : LaneSt → LaneSt) (s : State) : (onLane n f s).det = s.det := rfl
@[simp] theorem onLane_beam (n : Nat) (f : LaneSt → LaneSt) (s : State) : (onLane n f s).beam = s.beam := rfl
@[simp] theorem onLane_egr (n : Nat) (f : LaneSt → LaneSt) (s : State) : (onLane n f s).egr = s.egr := rfl
@[simp] theorem onLane_rings (n : Nat) (f : LaneSt → LaneSt) (s : State) : (onLane n f s).rings = s.rings := rfl
@[simp] theorem onLane_scratch (n : Nat) (f : LaneSt → LaneSt) (s : State) : (onLane n f s).scratch = s.scratch := rfl
@[simp] theorem onLane_hbm (n : Nat) (f : LaneSt → LaneSt) (s : State) : (onLane n f s).hbm = s.hbm := rfl
@[simp] theorem onLane_time (n : Nat) (f : LaneSt → LaneSt) (s : State) : (onLane n f s).time = s.time := rfl
@[simp] theorem onLane_bell (n : Nat) (f : LaneSt → LaneSt) (s : State) : (onLane n f s).bell = s.bell := rfl
@[simp] theorem onLane_stw (n : Nat) (f : LaneSt → LaneSt) (s : State) : (onLane n f s).stw = s.stw := rfl
@[simp] theorem onLane_dma (n : Nat) (f : LaneSt → LaneSt) (s : State) : (onLane n f s).dma = s.dma := rfl
@[simp] theorem onLane_dep (n : Nat) (f : LaneSt → LaneSt) (s : State) : (onLane n f s).dep = s.dep := rfl
@[simp] theorem onLane_mon (n : Nat) (f : LaneSt → LaneSt) (s : State) : (onLane n f s).mon = s.mon := rfl
@[simp] theorem onLane_jtag (n : Nat) (f : LaneSt → LaneSt) (s : State) : (onLane n f s).jtag = s.jtag := rfl
@[simp] theorem onLane_led (n : Nat) (f : LaneSt → LaneSt) (s : State) : (onLane n f s).led = s.led := rfl
@[simp] theorem onLane_fuses (n : Nat) (f : LaneSt → LaneSt) (s : State) : (onLane n f s).fuses = s.fuses := rfl
@[simp] theorem onLane_sys (n : Nat) (f : LaneSt → LaneSt) (s : State) : (onLane n f s).sys = s.sys := rfl
@[simp] theorem onLane_therm (n : Nat) (f : LaneSt → LaneSt) (s : State) : (onLane n f s).therm = s.therm := rfl

@[simp] theorem onPort_pending (g : Nat) (f : PortSt → PortSt) (s : State) : (onPort g f s).pending = s.pending := rfl
@[simp] theorem onPort_free (g : Nat) (f : PortSt → PortSt) (s : State) : (onPort g f s).free = s.free := rfl
@[simp] theorem onPort_tick (g : Nat) (f : PortSt → PortSt) (s : State) : (onPort g f s).tick = s.tick := rfl
@[simp] theorem onPort_regs (g : Nat) (f : PortSt → PortSt) (s : State) : (onPort g f s).regs = s.regs := rfl
@[simp] theorem onPort_out (g : Nat) (f : PortSt → PortSt) (s : State) : (onPort g f s).out = s.out := rfl
@[simp] theorem onPort_hostMem (g : Nat) (f : PortSt → PortSt) (s : State) : (onPort g f s).hostMem = s.hostMem := rfl
@[simp] theorem onPort_hif (g : Nat) (f : PortSt → PortSt) (s : State) : (onPort g f s).hif = s.hif := rfl
@[simp] theorem onPort_fab (g : Nat) (f : PortSt → PortSt) (s : State) : (onPort g f s).fab = s.fab := rfl
@[simp] theorem onPort_parts (g : Nat) (f : PortSt → PortSt) (s : State) : (onPort g f s).parts = s.parts := rfl
@[simp] theorem onPort_quads (g : Nat) (f : PortSt → PortSt) (s : State) : (onPort g f s).quads = s.quads := rfl
@[simp] theorem onPort_chans (g : Nat) (f : PortSt → PortSt) (s : State) : (onPort g f s).chans = s.chans := rfl
@[simp] theorem onPort_granary (g : Nat) (f : PortSt → PortSt) (s : State) : (onPort g f s).granary = s.granary := rfl
@[simp] theorem onPort_tables (g : Nat) (f : PortSt → PortSt) (s : State) : (onPort g f s).tables = s.tables := rfl
@[simp] theorem onPort_tabPending (g : Nat) (f : PortSt → PortSt) (s : State) : (onPort g f s).tabPending = s.tabPending := rfl
@[simp] theorem onPort_trig (g : Nat) (f : PortSt → PortSt) (s : State) : (onPort g f s).trig = s.trig := rfl
@[simp] theorem onPort_det (g : Nat) (f : PortSt → PortSt) (s : State) : (onPort g f s).det = s.det := rfl
@[simp] theorem onPort_beam (g : Nat) (f : PortSt → PortSt) (s : State) : (onPort g f s).beam = s.beam := rfl
@[simp] theorem onPort_egr (g : Nat) (f : PortSt → PortSt) (s : State) : (onPort g f s).egr = s.egr := rfl
@[simp] theorem onPort_rings (g : Nat) (f : PortSt → PortSt) (s : State) : (onPort g f s).rings = s.rings := rfl
@[simp] theorem onPort_scratch (g : Nat) (f : PortSt → PortSt) (s : State) : (onPort g f s).scratch = s.scratch := rfl
@[simp] theorem onPort_hbm (g : Nat) (f : PortSt → PortSt) (s : State) : (onPort g f s).hbm = s.hbm := rfl
@[simp] theorem onPort_time (g : Nat) (f : PortSt → PortSt) (s : State) : (onPort g f s).time = s.time := rfl
@[simp] theorem onPort_bell (g : Nat) (f : PortSt → PortSt) (s : State) : (onPort g f s).bell = s.bell := rfl
@[simp] theorem onPort_stw (g : Nat) (f : PortSt → PortSt) (s : State) : (onPort g f s).stw = s.stw := rfl
@[simp] theorem onPort_dma (g : Nat) (f : PortSt → PortSt) (s : State) : (onPort g f s).dma = s.dma := rfl
@[simp] theorem onPort_dep (g : Nat) (f : PortSt → PortSt) (s : State) : (onPort g f s).dep = s.dep := rfl
@[simp] theorem onPort_mon (g : Nat) (f : PortSt → PortSt) (s : State) : (onPort g f s).mon = s.mon := rfl
@[simp] theorem onPort_jtag (g : Nat) (f : PortSt → PortSt) (s : State) : (onPort g f s).jtag = s.jtag := rfl
@[simp] theorem onPort_led (g : Nat) (f : PortSt → PortSt) (s : State) : (onPort g f s).led = s.led := rfl
@[simp] theorem onPort_fuses (g : Nat) (f : PortSt → PortSt) (s : State) : (onPort g f s).fuses = s.fuses := rfl
@[simp] theorem onPort_sys (g : Nat) (f : PortSt → PortSt) (s : State) : (onPort g f s).sys = s.sys := rfl
@[simp] theorem onPort_therm (g : Nat) (f : PortSt → PortSt) (s : State) : (onPort g f s).therm = s.therm := rfl

@[simp] theorem onRing_pending (k : Nat) (f : BellRingSt → BellRingSt) (s : State) : (onRing k f s).pending = s.pending := rfl
@[simp] theorem onRing_free (k : Nat) (f : BellRingSt → BellRingSt) (s : State) : (onRing k f s).free = s.free := rfl
@[simp] theorem onRing_tick (k : Nat) (f : BellRingSt → BellRingSt) (s : State) : (onRing k f s).tick = s.tick := rfl
@[simp] theorem onRing_regs (k : Nat) (f : BellRingSt → BellRingSt) (s : State) : (onRing k f s).regs = s.regs := rfl
@[simp] theorem onRing_out (k : Nat) (f : BellRingSt → BellRingSt) (s : State) : (onRing k f s).out = s.out := rfl
@[simp] theorem onRing_hostMem (k : Nat) (f : BellRingSt → BellRingSt) (s : State) : (onRing k f s).hostMem = s.hostMem := rfl
@[simp] theorem onRing_hif (k : Nat) (f : BellRingSt → BellRingSt) (s : State) : (onRing k f s).hif = s.hif := rfl
@[simp] theorem onRing_fab (k : Nat) (f : BellRingSt → BellRingSt) (s : State) : (onRing k f s).fab = s.fab := rfl
@[simp] theorem onRing_parts (k : Nat) (f : BellRingSt → BellRingSt) (s : State) : (onRing k f s).parts = s.parts := rfl
@[simp] theorem onRing_quads (k : Nat) (f : BellRingSt → BellRingSt) (s : State) : (onRing k f s).quads = s.quads := rfl
@[simp] theorem onRing_chans (k : Nat) (f : BellRingSt → BellRingSt) (s : State) : (onRing k f s).chans = s.chans := rfl
@[simp] theorem onRing_granary (k : Nat) (f : BellRingSt → BellRingSt) (s : State) : (onRing k f s).granary = s.granary := rfl
@[simp] theorem onRing_tables (k : Nat) (f : BellRingSt → BellRingSt) (s : State) : (onRing k f s).tables = s.tables := rfl
@[simp] theorem onRing_tabPending (k : Nat) (f : BellRingSt → BellRingSt) (s : State) : (onRing k f s).tabPending = s.tabPending := rfl
@[simp] theorem onRing_trig (k : Nat) (f : BellRingSt → BellRingSt) (s : State) : (onRing k f s).trig = s.trig := rfl
@[simp] theorem onRing_det (k : Nat) (f : BellRingSt → BellRingSt) (s : State) : (onRing k f s).det = s.det := rfl
@[simp] theorem onRing_beam (k : Nat) (f : BellRingSt → BellRingSt) (s : State) : (onRing k f s).beam = s.beam := rfl
@[simp] theorem onRing_egr (k : Nat) (f : BellRingSt → BellRingSt) (s : State) : (onRing k f s).egr = s.egr := rfl
@[simp] theorem onRing_rings (k : Nat) (f : BellRingSt → BellRingSt) (s : State) : (onRing k f s).rings = s.rings := rfl
@[simp] theorem onRing_scratch (k : Nat) (f : BellRingSt → BellRingSt) (s : State) : (onRing k f s).scratch = s.scratch := rfl
@[simp] theorem onRing_hbm (k : Nat) (f : BellRingSt → BellRingSt) (s : State) : (onRing k f s).hbm = s.hbm := rfl
@[simp] theorem onRing_time (k : Nat) (f : BellRingSt → BellRingSt) (s : State) : (onRing k f s).time = s.time := rfl
@[simp] theorem onRing_lanes (k : Nat) (f : BellRingSt → BellRingSt) (s : State) : (onRing k f s).lanes = s.lanes := rfl
@[simp] theorem onRing_stw (k : Nat) (f : BellRingSt → BellRingSt) (s : State) : (onRing k f s).stw = s.stw := rfl
@[simp] theorem onRing_dma (k : Nat) (f : BellRingSt → BellRingSt) (s : State) : (onRing k f s).dma = s.dma := rfl
@[simp] theorem onRing_dep (k : Nat) (f : BellRingSt → BellRingSt) (s : State) : (onRing k f s).dep = s.dep := rfl
@[simp] theorem onRing_mon (k : Nat) (f : BellRingSt → BellRingSt) (s : State) : (onRing k f s).mon = s.mon := rfl
@[simp] theorem onRing_jtag (k : Nat) (f : BellRingSt → BellRingSt) (s : State) : (onRing k f s).jtag = s.jtag := rfl
@[simp] theorem onRing_led (k : Nat) (f : BellRingSt → BellRingSt) (s : State) : (onRing k f s).led = s.led := rfl
@[simp] theorem onRing_fuses (k : Nat) (f : BellRingSt → BellRingSt) (s : State) : (onRing k f s).fuses = s.fuses := rfl
@[simp] theorem onRing_sys (k : Nat) (f : BellRingSt → BellRingSt) (s : State) : (onRing k f s).sys = s.sys := rfl
@[simp] theorem onRing_therm (k : Nat) (f : BellRingSt → BellRingSt) (s : State) : (onRing k f s).therm = s.therm := rfl

@[simp] theorem onLink_pending (l : Nat) (f : BellLink → BellLink) (s : State) : (onLink l f s).pending = s.pending := rfl
@[simp] theorem onLink_free (l : Nat) (f : BellLink → BellLink) (s : State) : (onLink l f s).free = s.free := rfl
@[simp] theorem onLink_tick (l : Nat) (f : BellLink → BellLink) (s : State) : (onLink l f s).tick = s.tick := rfl
@[simp] theorem onLink_regs (l : Nat) (f : BellLink → BellLink) (s : State) : (onLink l f s).regs = s.regs := rfl
@[simp] theorem onLink_out (l : Nat) (f : BellLink → BellLink) (s : State) : (onLink l f s).out = s.out := rfl
@[simp] theorem onLink_hostMem (l : Nat) (f : BellLink → BellLink) (s : State) : (onLink l f s).hostMem = s.hostMem := rfl
@[simp] theorem onLink_hif (l : Nat) (f : BellLink → BellLink) (s : State) : (onLink l f s).hif = s.hif := rfl
@[simp] theorem onLink_fab (l : Nat) (f : BellLink → BellLink) (s : State) : (onLink l f s).fab = s.fab := rfl
@[simp] theorem onLink_parts (l : Nat) (f : BellLink → BellLink) (s : State) : (onLink l f s).parts = s.parts := rfl
@[simp] theorem onLink_quads (l : Nat) (f : BellLink → BellLink) (s : State) : (onLink l f s).quads = s.quads := rfl
@[simp] theorem onLink_chans (l : Nat) (f : BellLink → BellLink) (s : State) : (onLink l f s).chans = s.chans := rfl
@[simp] theorem onLink_granary (l : Nat) (f : BellLink → BellLink) (s : State) : (onLink l f s).granary = s.granary := rfl
@[simp] theorem onLink_tables (l : Nat) (f : BellLink → BellLink) (s : State) : (onLink l f s).tables = s.tables := rfl
@[simp] theorem onLink_tabPending (l : Nat) (f : BellLink → BellLink) (s : State) : (onLink l f s).tabPending = s.tabPending := rfl
@[simp] theorem onLink_trig (l : Nat) (f : BellLink → BellLink) (s : State) : (onLink l f s).trig = s.trig := rfl
@[simp] theorem onLink_det (l : Nat) (f : BellLink → BellLink) (s : State) : (onLink l f s).det = s.det := rfl
@[simp] theorem onLink_beam (l : Nat) (f : BellLink → BellLink) (s : State) : (onLink l f s).beam = s.beam := rfl
@[simp] theorem onLink_egr (l : Nat) (f : BellLink → BellLink) (s : State) : (onLink l f s).egr = s.egr := rfl
@[simp] theorem onLink_rings (l : Nat) (f : BellLink → BellLink) (s : State) : (onLink l f s).rings = s.rings := rfl
@[simp] theorem onLink_scratch (l : Nat) (f : BellLink → BellLink) (s : State) : (onLink l f s).scratch = s.scratch := rfl
@[simp] theorem onLink_hbm (l : Nat) (f : BellLink → BellLink) (s : State) : (onLink l f s).hbm = s.hbm := rfl
@[simp] theorem onLink_time (l : Nat) (f : BellLink → BellLink) (s : State) : (onLink l f s).time = s.time := rfl
@[simp] theorem onLink_lanes (l : Nat) (f : BellLink → BellLink) (s : State) : (onLink l f s).lanes = s.lanes := rfl
@[simp] theorem onLink_stw (l : Nat) (f : BellLink → BellLink) (s : State) : (onLink l f s).stw = s.stw := rfl
@[simp] theorem onLink_dma (l : Nat) (f : BellLink → BellLink) (s : State) : (onLink l f s).dma = s.dma := rfl
@[simp] theorem onLink_dep (l : Nat) (f : BellLink → BellLink) (s : State) : (onLink l f s).dep = s.dep := rfl
@[simp] theorem onLink_mon (l : Nat) (f : BellLink → BellLink) (s : State) : (onLink l f s).mon = s.mon := rfl
@[simp] theorem onLink_jtag (l : Nat) (f : BellLink → BellLink) (s : State) : (onLink l f s).jtag = s.jtag := rfl
@[simp] theorem onLink_led (l : Nat) (f : BellLink → BellLink) (s : State) : (onLink l f s).led = s.led := rfl
@[simp] theorem onLink_fuses (l : Nat) (f : BellLink → BellLink) (s : State) : (onLink l f s).fuses = s.fuses := rfl
@[simp] theorem onLink_sys (l : Nat) (f : BellLink → BellLink) (s : State) : (onLink l f s).sys = s.sys := rfl
@[simp] theorem onLink_therm (l : Nat) (f : BellLink → BellLink) (s : State) : (onLink l f s).therm = s.therm := rfl

@[simp] theorem onPtp_pending (f : PtpClock → PtpClock) (s : State) : (onPtp f s).pending = s.pending := rfl
@[simp] theorem onPtp_free (f : PtpClock → PtpClock) (s : State) : (onPtp f s).free = s.free := rfl
@[simp] theorem onPtp_tick (f : PtpClock → PtpClock) (s : State) : (onPtp f s).tick = s.tick := rfl
@[simp] theorem onPtp_regs (f : PtpClock → PtpClock) (s : State) : (onPtp f s).regs = s.regs := rfl
@[simp] theorem onPtp_out (f : PtpClock → PtpClock) (s : State) : (onPtp f s).out = s.out := rfl
@[simp] theorem onPtp_hostMem (f : PtpClock → PtpClock) (s : State) : (onPtp f s).hostMem = s.hostMem := rfl
@[simp] theorem onPtp_hif (f : PtpClock → PtpClock) (s : State) : (onPtp f s).hif = s.hif := rfl
@[simp] theorem onPtp_fab (f : PtpClock → PtpClock) (s : State) : (onPtp f s).fab = s.fab := rfl
@[simp] theorem onPtp_parts (f : PtpClock → PtpClock) (s : State) : (onPtp f s).parts = s.parts := rfl
@[simp] theorem onPtp_quads (f : PtpClock → PtpClock) (s : State) : (onPtp f s).quads = s.quads := rfl
@[simp] theorem onPtp_chans (f : PtpClock → PtpClock) (s : State) : (onPtp f s).chans = s.chans := rfl
@[simp] theorem onPtp_granary (f : PtpClock → PtpClock) (s : State) : (onPtp f s).granary = s.granary := rfl
@[simp] theorem onPtp_tables (f : PtpClock → PtpClock) (s : State) : (onPtp f s).tables = s.tables := rfl
@[simp] theorem onPtp_tabPending (f : PtpClock → PtpClock) (s : State) : (onPtp f s).tabPending = s.tabPending := rfl
@[simp] theorem onPtp_trig (f : PtpClock → PtpClock) (s : State) : (onPtp f s).trig = s.trig := rfl
@[simp] theorem onPtp_det (f : PtpClock → PtpClock) (s : State) : (onPtp f s).det = s.det := rfl
@[simp] theorem onPtp_beam (f : PtpClock → PtpClock) (s : State) : (onPtp f s).beam = s.beam := rfl
@[simp] theorem onPtp_egr (f : PtpClock → PtpClock) (s : State) : (onPtp f s).egr = s.egr := rfl
@[simp] theorem onPtp_rings (f : PtpClock → PtpClock) (s : State) : (onPtp f s).rings = s.rings := rfl
@[simp] theorem onPtp_scratch (f : PtpClock → PtpClock) (s : State) : (onPtp f s).scratch = s.scratch := rfl
@[simp] theorem onPtp_hbm (f : PtpClock → PtpClock) (s : State) : (onPtp f s).hbm = s.hbm := rfl
@[simp] theorem onPtp_bell (f : PtpClock → PtpClock) (s : State) : (onPtp f s).bell = s.bell := rfl
@[simp] theorem onPtp_lanes (f : PtpClock → PtpClock) (s : State) : (onPtp f s).lanes = s.lanes := rfl
@[simp] theorem onPtp_stw (f : PtpClock → PtpClock) (s : State) : (onPtp f s).stw = s.stw := rfl
@[simp] theorem onPtp_dma (f : PtpClock → PtpClock) (s : State) : (onPtp f s).dma = s.dma := rfl
@[simp] theorem onPtp_dep (f : PtpClock → PtpClock) (s : State) : (onPtp f s).dep = s.dep := rfl
@[simp] theorem onPtp_mon (f : PtpClock → PtpClock) (s : State) : (onPtp f s).mon = s.mon := rfl
@[simp] theorem onPtp_jtag (f : PtpClock → PtpClock) (s : State) : (onPtp f s).jtag = s.jtag := rfl
@[simp] theorem onPtp_led (f : PtpClock → PtpClock) (s : State) : (onPtp f s).led = s.led := rfl
@[simp] theorem onPtp_fuses (f : PtpClock → PtpClock) (s : State) : (onPtp f s).fuses = s.fuses := rfl
@[simp] theorem onPtp_sys (f : PtpClock → PtpClock) (s : State) : (onPtp f s).sys = s.sys := rfl
@[simp] theorem onPtp_therm (f : PtpClock → PtpClock) (s : State) : (onPtp f s).therm = s.therm := rfl

@[simp] theorem setLocalQ_pending (q : Int) (s : State) : (setLocalQ q s).pending = s.pending := rfl
@[simp] theorem setLocalQ_free (q : Int) (s : State) : (setLocalQ q s).free = s.free := rfl
@[simp] theorem setLocalQ_tick (q : Int) (s : State) : (setLocalQ q s).tick = s.tick := rfl
@[simp] theorem setLocalQ_regs (q : Int) (s : State) : (setLocalQ q s).regs = s.regs := rfl
@[simp] theorem setLocalQ_out (q : Int) (s : State) : (setLocalQ q s).out = s.out := rfl
@[simp] theorem setLocalQ_hostMem (q : Int) (s : State) : (setLocalQ q s).hostMem = s.hostMem := rfl
@[simp] theorem setLocalQ_hif (q : Int) (s : State) : (setLocalQ q s).hif = s.hif := rfl
@[simp] theorem setLocalQ_fab (q : Int) (s : State) : (setLocalQ q s).fab = s.fab := rfl
@[simp] theorem setLocalQ_parts (q : Int) (s : State) : (setLocalQ q s).parts = s.parts := rfl
@[simp] theorem setLocalQ_quads (q : Int) (s : State) : (setLocalQ q s).quads = s.quads := rfl
@[simp] theorem setLocalQ_chans (q : Int) (s : State) : (setLocalQ q s).chans = s.chans := rfl
@[simp] theorem setLocalQ_granary (q : Int) (s : State) : (setLocalQ q s).granary = s.granary := rfl
@[simp] theorem setLocalQ_tables (q : Int) (s : State) : (setLocalQ q s).tables = s.tables := rfl
@[simp] theorem setLocalQ_tabPending (q : Int) (s : State) : (setLocalQ q s).tabPending = s.tabPending := rfl
@[simp] theorem setLocalQ_trig (q : Int) (s : State) : (setLocalQ q s).trig = s.trig := rfl
@[simp] theorem setLocalQ_det (q : Int) (s : State) : (setLocalQ q s).det = s.det := rfl
@[simp] theorem setLocalQ_beam (q : Int) (s : State) : (setLocalQ q s).beam = s.beam := rfl
@[simp] theorem setLocalQ_egr (q : Int) (s : State) : (setLocalQ q s).egr = s.egr := rfl
@[simp] theorem setLocalQ_rings (q : Int) (s : State) : (setLocalQ q s).rings = s.rings := rfl
@[simp] theorem setLocalQ_scratch (q : Int) (s : State) : (setLocalQ q s).scratch = s.scratch := rfl
@[simp] theorem setLocalQ_hbm (q : Int) (s : State) : (setLocalQ q s).hbm = s.hbm := rfl
@[simp] theorem setLocalQ_bell (q : Int) (s : State) : (setLocalQ q s).bell = s.bell := rfl
@[simp] theorem setLocalQ_lanes (q : Int) (s : State) : (setLocalQ q s).lanes = s.lanes := rfl
@[simp] theorem setLocalQ_stw (q : Int) (s : State) : (setLocalQ q s).stw = s.stw := rfl
@[simp] theorem setLocalQ_dma (q : Int) (s : State) : (setLocalQ q s).dma = s.dma := rfl
@[simp] theorem setLocalQ_dep (q : Int) (s : State) : (setLocalQ q s).dep = s.dep := rfl
@[simp] theorem setLocalQ_mon (q : Int) (s : State) : (setLocalQ q s).mon = s.mon := rfl
@[simp] theorem setLocalQ_jtag (q : Int) (s : State) : (setLocalQ q s).jtag = s.jtag := rfl
@[simp] theorem setLocalQ_led (q : Int) (s : State) : (setLocalQ q s).led = s.led := rfl
@[simp] theorem setLocalQ_fuses (q : Int) (s : State) : (setLocalQ q s).fuses = s.fuses := rfl
@[simp] theorem setLocalQ_sys (q : Int) (s : State) : (setLocalQ q s).sys = s.sys := rfl
@[simp] theorem setLocalQ_therm (q : Int) (s : State) : (setLocalQ q s).therm = s.therm := rfl

@[simp] theorem onBank_pending (b : Nat) (f : LedBank → LedBank) (s : State) : (onBank b f s).pending = s.pending := rfl
@[simp] theorem onBank_free (b : Nat) (f : LedBank → LedBank) (s : State) : (onBank b f s).free = s.free := rfl
@[simp] theorem onBank_tick (b : Nat) (f : LedBank → LedBank) (s : State) : (onBank b f s).tick = s.tick := rfl
@[simp] theorem onBank_regs (b : Nat) (f : LedBank → LedBank) (s : State) : (onBank b f s).regs = s.regs := rfl
@[simp] theorem onBank_out (b : Nat) (f : LedBank → LedBank) (s : State) : (onBank b f s).out = s.out := rfl
@[simp] theorem onBank_hostMem (b : Nat) (f : LedBank → LedBank) (s : State) : (onBank b f s).hostMem = s.hostMem := rfl
@[simp] theorem onBank_hif (b : Nat) (f : LedBank → LedBank) (s : State) : (onBank b f s).hif = s.hif := rfl
@[simp] theorem onBank_fab (b : Nat) (f : LedBank → LedBank) (s : State) : (onBank b f s).fab = s.fab := rfl
@[simp] theorem onBank_parts (b : Nat) (f : LedBank → LedBank) (s : State) : (onBank b f s).parts = s.parts := rfl
@[simp] theorem onBank_quads (b : Nat) (f : LedBank → LedBank) (s : State) : (onBank b f s).quads = s.quads := rfl
@[simp] theorem onBank_chans (b : Nat) (f : LedBank → LedBank) (s : State) : (onBank b f s).chans = s.chans := rfl
@[simp] theorem onBank_granary (b : Nat) (f : LedBank → LedBank) (s : State) : (onBank b f s).granary = s.granary := rfl
@[simp] theorem onBank_tables (b : Nat) (f : LedBank → LedBank) (s : State) : (onBank b f s).tables = s.tables := rfl
@[simp] theorem onBank_tabPending (b : Nat) (f : LedBank → LedBank) (s : State) : (onBank b f s).tabPending = s.tabPending := rfl
@[simp] theorem onBank_trig (b : Nat) (f : LedBank → LedBank) (s : State) : (onBank b f s).trig = s.trig := rfl
@[simp] theorem onBank_det (b : Nat) (f : LedBank → LedBank) (s : State) : (onBank b f s).det = s.det := rfl
@[simp] theorem onBank_beam (b : Nat) (f : LedBank → LedBank) (s : State) : (onBank b f s).beam = s.beam := rfl
@[simp] theorem onBank_egr (b : Nat) (f : LedBank → LedBank) (s : State) : (onBank b f s).egr = s.egr := rfl
@[simp] theorem onBank_rings (b : Nat) (f : LedBank → LedBank) (s : State) : (onBank b f s).rings = s.rings := rfl
@[simp] theorem onBank_scratch (b : Nat) (f : LedBank → LedBank) (s : State) : (onBank b f s).scratch = s.scratch := rfl
@[simp] theorem onBank_hbm (b : Nat) (f : LedBank → LedBank) (s : State) : (onBank b f s).hbm = s.hbm := rfl
@[simp] theorem onBank_time (b : Nat) (f : LedBank → LedBank) (s : State) : (onBank b f s).time = s.time := rfl
@[simp] theorem onBank_bell (b : Nat) (f : LedBank → LedBank) (s : State) : (onBank b f s).bell = s.bell := rfl
@[simp] theorem onBank_lanes (b : Nat) (f : LedBank → LedBank) (s : State) : (onBank b f s).lanes = s.lanes := rfl
@[simp] theorem onBank_stw (b : Nat) (f : LedBank → LedBank) (s : State) : (onBank b f s).stw = s.stw := rfl
@[simp] theorem onBank_dma (b : Nat) (f : LedBank → LedBank) (s : State) : (onBank b f s).dma = s.dma := rfl
@[simp] theorem onBank_dep (b : Nat) (f : LedBank → LedBank) (s : State) : (onBank b f s).dep = s.dep := rfl
@[simp] theorem onBank_mon (b : Nat) (f : LedBank → LedBank) (s : State) : (onBank b f s).mon = s.mon := rfl
@[simp] theorem onBank_jtag (b : Nat) (f : LedBank → LedBank) (s : State) : (onBank b f s).jtag = s.jtag := rfl
@[simp] theorem onBank_fuses (b : Nat) (f : LedBank → LedBank) (s : State) : (onBank b f s).fuses = s.fuses := rfl
@[simp] theorem onBank_sys (b : Nat) (f : LedBank → LedBank) (s : State) : (onBank b f s).sys = s.sys := rfl
@[simp] theorem onBank_therm (b : Nat) (f : LedBank → LedBank) (s : State) : (onBank b f s).therm = s.therm := rfl

@[simp] theorem setSlot_pending (n : Nat) (x : ImgSlot) (s : State) : (setSlot n x s).pending = s.pending := rfl
@[simp] theorem setSlot_free (n : Nat) (x : ImgSlot) (s : State) : (setSlot n x s).free = s.free := rfl
@[simp] theorem setSlot_tick (n : Nat) (x : ImgSlot) (s : State) : (setSlot n x s).tick = s.tick := rfl
@[simp] theorem setSlot_regs (n : Nat) (x : ImgSlot) (s : State) : (setSlot n x s).regs = s.regs := rfl
@[simp] theorem setSlot_out (n : Nat) (x : ImgSlot) (s : State) : (setSlot n x s).out = s.out := rfl
@[simp] theorem setSlot_hostMem (n : Nat) (x : ImgSlot) (s : State) : (setSlot n x s).hostMem = s.hostMem := rfl
@[simp] theorem setSlot_hif (n : Nat) (x : ImgSlot) (s : State) : (setSlot n x s).hif = s.hif := rfl
@[simp] theorem setSlot_fab (n : Nat) (x : ImgSlot) (s : State) : (setSlot n x s).fab = s.fab := rfl
@[simp] theorem setSlot_parts (n : Nat) (x : ImgSlot) (s : State) : (setSlot n x s).parts = s.parts := rfl
@[simp] theorem setSlot_quads (n : Nat) (x : ImgSlot) (s : State) : (setSlot n x s).quads = s.quads := rfl
@[simp] theorem setSlot_chans (n : Nat) (x : ImgSlot) (s : State) : (setSlot n x s).chans = s.chans := rfl
@[simp] theorem setSlot_granary (n : Nat) (x : ImgSlot) (s : State) : (setSlot n x s).granary = s.granary := rfl
@[simp] theorem setSlot_tables (n : Nat) (x : ImgSlot) (s : State) : (setSlot n x s).tables = s.tables := rfl
@[simp] theorem setSlot_tabPending (n : Nat) (x : ImgSlot) (s : State) : (setSlot n x s).tabPending = s.tabPending := rfl
@[simp] theorem setSlot_trig (n : Nat) (x : ImgSlot) (s : State) : (setSlot n x s).trig = s.trig := rfl
@[simp] theorem setSlot_det (n : Nat) (x : ImgSlot) (s : State) : (setSlot n x s).det = s.det := rfl
@[simp] theorem setSlot_beam (n : Nat) (x : ImgSlot) (s : State) : (setSlot n x s).beam = s.beam := rfl
@[simp] theorem setSlot_egr (n : Nat) (x : ImgSlot) (s : State) : (setSlot n x s).egr = s.egr := rfl
@[simp] theorem setSlot_rings (n : Nat) (x : ImgSlot) (s : State) : (setSlot n x s).rings = s.rings := rfl
@[simp] theorem setSlot_scratch (n : Nat) (x : ImgSlot) (s : State) : (setSlot n x s).scratch = s.scratch := rfl
@[simp] theorem setSlot_hbm (n : Nat) (x : ImgSlot) (s : State) : (setSlot n x s).hbm = s.hbm := rfl
@[simp] theorem setSlot_time (n : Nat) (x : ImgSlot) (s : State) : (setSlot n x s).time = s.time := rfl
@[simp] theorem setSlot_bell (n : Nat) (x : ImgSlot) (s : State) : (setSlot n x s).bell = s.bell := rfl
@[simp] theorem setSlot_lanes (n : Nat) (x : ImgSlot) (s : State) : (setSlot n x s).lanes = s.lanes := rfl
@[simp] theorem setSlot_stw (n : Nat) (x : ImgSlot) (s : State) : (setSlot n x s).stw = s.stw := rfl
@[simp] theorem setSlot_dma (n : Nat) (x : ImgSlot) (s : State) : (setSlot n x s).dma = s.dma := rfl
@[simp] theorem setSlot_dep (n : Nat) (x : ImgSlot) (s : State) : (setSlot n x s).dep = s.dep := rfl
@[simp] theorem setSlot_mon (n : Nat) (x : ImgSlot) (s : State) : (setSlot n x s).mon = s.mon := rfl
@[simp] theorem setSlot_jtag (n : Nat) (x : ImgSlot) (s : State) : (setSlot n x s).jtag = s.jtag := rfl
@[simp] theorem setSlot_fuses (n : Nat) (x : ImgSlot) (s : State) : (setSlot n x s).fuses = s.fuses := rfl
@[simp] theorem setSlot_sys (n : Nat) (x : ImgSlot) (s : State) : (setSlot n x s).sys = s.sys := rfl
@[simp] theorem setSlot_therm (n : Nat) (x : ImgSlot) (s : State) : (setSlot n x s).therm = s.therm := rfl

@[simp] theorem setIssue_pending (m pc : Nat) (l : List FabRequest) (s : State) : (setIssue m pc l s).pending = s.pending := rfl
@[simp] theorem setIssue_free (m pc : Nat) (l : List FabRequest) (s : State) : (setIssue m pc l s).free = s.free := rfl
@[simp] theorem setIssue_tick (m pc : Nat) (l : List FabRequest) (s : State) : (setIssue m pc l s).tick = s.tick := rfl
@[simp] theorem setIssue_regs (m pc : Nat) (l : List FabRequest) (s : State) : (setIssue m pc l s).regs = s.regs := rfl
@[simp] theorem setIssue_out (m pc : Nat) (l : List FabRequest) (s : State) : (setIssue m pc l s).out = s.out := rfl
@[simp] theorem setIssue_hostMem (m pc : Nat) (l : List FabRequest) (s : State) : (setIssue m pc l s).hostMem = s.hostMem := rfl
@[simp] theorem setIssue_hif (m pc : Nat) (l : List FabRequest) (s : State) : (setIssue m pc l s).hif = s.hif := rfl
@[simp] theorem setIssue_parts (m pc : Nat) (l : List FabRequest) (s : State) : (setIssue m pc l s).parts = s.parts := rfl
@[simp] theorem setIssue_quads (m pc : Nat) (l : List FabRequest) (s : State) : (setIssue m pc l s).quads = s.quads := rfl
@[simp] theorem setIssue_chans (m pc : Nat) (l : List FabRequest) (s : State) : (setIssue m pc l s).chans = s.chans := rfl
@[simp] theorem setIssue_granary (m pc : Nat) (l : List FabRequest) (s : State) : (setIssue m pc l s).granary = s.granary := rfl
@[simp] theorem setIssue_tables (m pc : Nat) (l : List FabRequest) (s : State) : (setIssue m pc l s).tables = s.tables := rfl
@[simp] theorem setIssue_tabPending (m pc : Nat) (l : List FabRequest) (s : State) : (setIssue m pc l s).tabPending = s.tabPending := rfl
@[simp] theorem setIssue_trig (m pc : Nat) (l : List FabRequest) (s : State) : (setIssue m pc l s).trig = s.trig := rfl
@[simp] theorem setIssue_det (m pc : Nat) (l : List FabRequest) (s : State) : (setIssue m pc l s).det = s.det := rfl
@[simp] theorem setIssue_beam (m pc : Nat) (l : List FabRequest) (s : State) : (setIssue m pc l s).beam = s.beam := rfl
@[simp] theorem setIssue_egr (m pc : Nat) (l : List FabRequest) (s : State) : (setIssue m pc l s).egr = s.egr := rfl
@[simp] theorem setIssue_rings (m pc : Nat) (l : List FabRequest) (s : State) : (setIssue m pc l s).rings = s.rings := rfl
@[simp] theorem setIssue_scratch (m pc : Nat) (l : List FabRequest) (s : State) : (setIssue m pc l s).scratch = s.scratch := rfl
@[simp] theorem setIssue_hbm (m pc : Nat) (l : List FabRequest) (s : State) : (setIssue m pc l s).hbm = s.hbm := rfl
@[simp] theorem setIssue_time (m pc : Nat) (l : List FabRequest) (s : State) : (setIssue m pc l s).time = s.time := rfl
@[simp] theorem setIssue_bell (m pc : Nat) (l : List FabRequest) (s : State) : (setIssue m pc l s).bell = s.bell := rfl
@[simp] theorem setIssue_lanes (m pc : Nat) (l : List FabRequest) (s : State) : (setIssue m pc l s).lanes = s.lanes := rfl
@[simp] theorem setIssue_stw (m pc : Nat) (l : List FabRequest) (s : State) : (setIssue m pc l s).stw = s.stw := rfl
@[simp] theorem setIssue_dma (m pc : Nat) (l : List FabRequest) (s : State) : (setIssue m pc l s).dma = s.dma := rfl
@[simp] theorem setIssue_dep (m pc : Nat) (l : List FabRequest) (s : State) : (setIssue m pc l s).dep = s.dep := rfl
@[simp] theorem setIssue_mon (m pc : Nat) (l : List FabRequest) (s : State) : (setIssue m pc l s).mon = s.mon := rfl
@[simp] theorem setIssue_jtag (m pc : Nat) (l : List FabRequest) (s : State) : (setIssue m pc l s).jtag = s.jtag := rfl
@[simp] theorem setIssue_led (m pc : Nat) (l : List FabRequest) (s : State) : (setIssue m pc l s).led = s.led := rfl
@[simp] theorem setIssue_fuses (m pc : Nat) (l : List FabRequest) (s : State) : (setIssue m pc l s).fuses = s.fuses := rfl
@[simp] theorem setIssue_sys (m pc : Nat) (l : List FabRequest) (s : State) : (setIssue m pc l s).sys = s.sys := rfl
@[simp] theorem setIssue_therm (m pc : Nat) (l : List FabRequest) (s : State) : (setIssue m pc l s).therm = s.therm := rfl

@[simp] theorem takeReply_pending (n : Nat) (s : State) : (takeReply n s).pending = s.pending := rfl
@[simp] theorem takeReply_free (n : Nat) (s : State) : (takeReply n s).free = s.free := rfl
@[simp] theorem takeReply_tick (n : Nat) (s : State) : (takeReply n s).tick = s.tick := rfl
@[simp] theorem takeReply_regs (n : Nat) (s : State) : (takeReply n s).regs = s.regs := rfl
@[simp] theorem takeReply_out (n : Nat) (s : State) : (takeReply n s).out = s.out := rfl
@[simp] theorem takeReply_hostMem (n : Nat) (s : State) : (takeReply n s).hostMem = s.hostMem := rfl
@[simp] theorem takeReply_hif (n : Nat) (s : State) : (takeReply n s).hif = s.hif := rfl
@[simp] theorem takeReply_parts (n : Nat) (s : State) : (takeReply n s).parts = s.parts := rfl
@[simp] theorem takeReply_quads (n : Nat) (s : State) : (takeReply n s).quads = s.quads := rfl
@[simp] theorem takeReply_chans (n : Nat) (s : State) : (takeReply n s).chans = s.chans := rfl
@[simp] theorem takeReply_granary (n : Nat) (s : State) : (takeReply n s).granary = s.granary := rfl
@[simp] theorem takeReply_tables (n : Nat) (s : State) : (takeReply n s).tables = s.tables := rfl
@[simp] theorem takeReply_tabPending (n : Nat) (s : State) : (takeReply n s).tabPending = s.tabPending := rfl
@[simp] theorem takeReply_trig (n : Nat) (s : State) : (takeReply n s).trig = s.trig := rfl
@[simp] theorem takeReply_det (n : Nat) (s : State) : (takeReply n s).det = s.det := rfl
@[simp] theorem takeReply_beam (n : Nat) (s : State) : (takeReply n s).beam = s.beam := rfl
@[simp] theorem takeReply_egr (n : Nat) (s : State) : (takeReply n s).egr = s.egr := rfl
@[simp] theorem takeReply_rings (n : Nat) (s : State) : (takeReply n s).rings = s.rings := rfl
@[simp] theorem takeReply_scratch (n : Nat) (s : State) : (takeReply n s).scratch = s.scratch := rfl
@[simp] theorem takeReply_hbm (n : Nat) (s : State) : (takeReply n s).hbm = s.hbm := rfl
@[simp] theorem takeReply_time (n : Nat) (s : State) : (takeReply n s).time = s.time := rfl
@[simp] theorem takeReply_bell (n : Nat) (s : State) : (takeReply n s).bell = s.bell := rfl
@[simp] theorem takeReply_lanes (n : Nat) (s : State) : (takeReply n s).lanes = s.lanes := rfl
@[simp] theorem takeReply_stw (n : Nat) (s : State) : (takeReply n s).stw = s.stw := rfl
@[simp] theorem takeReply_dma (n : Nat) (s : State) : (takeReply n s).dma = s.dma := rfl
@[simp] theorem takeReply_dep (n : Nat) (s : State) : (takeReply n s).dep = s.dep := rfl
@[simp] theorem takeReply_mon (n : Nat) (s : State) : (takeReply n s).mon = s.mon := rfl
@[simp] theorem takeReply_jtag (n : Nat) (s : State) : (takeReply n s).jtag = s.jtag := rfl
@[simp] theorem takeReply_led (n : Nat) (s : State) : (takeReply n s).led = s.led := rfl
@[simp] theorem takeReply_fuses (n : Nat) (s : State) : (takeReply n s).fuses = s.fuses := rfl
@[simp] theorem takeReply_sys (n : Nat) (s : State) : (takeReply n s).sys = s.sys := rfl
@[simp] theorem takeReply_therm (n : Nat) (s : State) : (takeReply n s).therm = s.therm := rfl

@[simp] theorem setCtlQueue_pending (pc : Nat) (l : List CtlReq) (s : State) : (setCtlQueue pc l s).pending = s.pending := rfl
@[simp] theorem setCtlQueue_free (pc : Nat) (l : List CtlReq) (s : State) : (setCtlQueue pc l s).free = s.free := rfl
@[simp] theorem setCtlQueue_tick (pc : Nat) (l : List CtlReq) (s : State) : (setCtlQueue pc l s).tick = s.tick := rfl
@[simp] theorem setCtlQueue_regs (pc : Nat) (l : List CtlReq) (s : State) : (setCtlQueue pc l s).regs = s.regs := rfl
@[simp] theorem setCtlQueue_out (pc : Nat) (l : List CtlReq) (s : State) : (setCtlQueue pc l s).out = s.out := rfl
@[simp] theorem setCtlQueue_hostMem (pc : Nat) (l : List CtlReq) (s : State) : (setCtlQueue pc l s).hostMem = s.hostMem := rfl
@[simp] theorem setCtlQueue_hif (pc : Nat) (l : List CtlReq) (s : State) : (setCtlQueue pc l s).hif = s.hif := rfl
@[simp] theorem setCtlQueue_fab (pc : Nat) (l : List CtlReq) (s : State) : (setCtlQueue pc l s).fab = s.fab := rfl
@[simp] theorem setCtlQueue_parts (pc : Nat) (l : List CtlReq) (s : State) : (setCtlQueue pc l s).parts = s.parts := rfl
@[simp] theorem setCtlQueue_quads (pc : Nat) (l : List CtlReq) (s : State) : (setCtlQueue pc l s).quads = s.quads := rfl
@[simp] theorem setCtlQueue_chans (pc : Nat) (l : List CtlReq) (s : State) : (setCtlQueue pc l s).chans = s.chans := rfl
@[simp] theorem setCtlQueue_granary (pc : Nat) (l : List CtlReq) (s : State) : (setCtlQueue pc l s).granary = s.granary := rfl
@[simp] theorem setCtlQueue_tables (pc : Nat) (l : List CtlReq) (s : State) : (setCtlQueue pc l s).tables = s.tables := rfl
@[simp] theorem setCtlQueue_tabPending (pc : Nat) (l : List CtlReq) (s : State) : (setCtlQueue pc l s).tabPending = s.tabPending := rfl
@[simp] theorem setCtlQueue_trig (pc : Nat) (l : List CtlReq) (s : State) : (setCtlQueue pc l s).trig = s.trig := rfl
@[simp] theorem setCtlQueue_det (pc : Nat) (l : List CtlReq) (s : State) : (setCtlQueue pc l s).det = s.det := rfl
@[simp] theorem setCtlQueue_beam (pc : Nat) (l : List CtlReq) (s : State) : (setCtlQueue pc l s).beam = s.beam := rfl
@[simp] theorem setCtlQueue_egr (pc : Nat) (l : List CtlReq) (s : State) : (setCtlQueue pc l s).egr = s.egr := rfl
@[simp] theorem setCtlQueue_rings (pc : Nat) (l : List CtlReq) (s : State) : (setCtlQueue pc l s).rings = s.rings := rfl
@[simp] theorem setCtlQueue_scratch (pc : Nat) (l : List CtlReq) (s : State) : (setCtlQueue pc l s).scratch = s.scratch := rfl
@[simp] theorem setCtlQueue_time (pc : Nat) (l : List CtlReq) (s : State) : (setCtlQueue pc l s).time = s.time := rfl
@[simp] theorem setCtlQueue_bell (pc : Nat) (l : List CtlReq) (s : State) : (setCtlQueue pc l s).bell = s.bell := rfl
@[simp] theorem setCtlQueue_lanes (pc : Nat) (l : List CtlReq) (s : State) : (setCtlQueue pc l s).lanes = s.lanes := rfl
@[simp] theorem setCtlQueue_stw (pc : Nat) (l : List CtlReq) (s : State) : (setCtlQueue pc l s).stw = s.stw := rfl
@[simp] theorem setCtlQueue_dma (pc : Nat) (l : List CtlReq) (s : State) : (setCtlQueue pc l s).dma = s.dma := rfl
@[simp] theorem setCtlQueue_dep (pc : Nat) (l : List CtlReq) (s : State) : (setCtlQueue pc l s).dep = s.dep := rfl
@[simp] theorem setCtlQueue_mon (pc : Nat) (l : List CtlReq) (s : State) : (setCtlQueue pc l s).mon = s.mon := rfl
@[simp] theorem setCtlQueue_jtag (pc : Nat) (l : List CtlReq) (s : State) : (setCtlQueue pc l s).jtag = s.jtag := rfl
@[simp] theorem setCtlQueue_led (pc : Nat) (l : List CtlReq) (s : State) : (setCtlQueue pc l s).led = s.led := rfl
@[simp] theorem setCtlQueue_fuses (pc : Nat) (l : List CtlReq) (s : State) : (setCtlQueue pc l s).fuses = s.fuses := rfl
@[simp] theorem setCtlQueue_sys (pc : Nat) (l : List CtlReq) (s : State) : (setCtlQueue pc l s).sys = s.sys := rfl
@[simp] theorem setCtlQueue_therm (pc : Nat) (l : List CtlReq) (s : State) : (setCtlQueue pc l s).therm = s.therm := rfl

@[simp] theorem openRow_pending (pc addr : Nat) (s : State) : (openRow pc addr s).pending = s.pending := rfl
@[simp] theorem openRow_free (pc addr : Nat) (s : State) : (openRow pc addr s).free = s.free := rfl
@[simp] theorem openRow_tick (pc addr : Nat) (s : State) : (openRow pc addr s).tick = s.tick := rfl
@[simp] theorem openRow_regs (pc addr : Nat) (s : State) : (openRow pc addr s).regs = s.regs := rfl
@[simp] theorem openRow_out (pc addr : Nat) (s : State) : (openRow pc addr s).out = s.out := rfl
@[simp] theorem openRow_hostMem (pc addr : Nat) (s : State) : (openRow pc addr s).hostMem = s.hostMem := rfl
@[simp] theorem openRow_hif (pc addr : Nat) (s : State) : (openRow pc addr s).hif = s.hif := rfl
@[simp] theorem openRow_fab (pc addr : Nat) (s : State) : (openRow pc addr s).fab = s.fab := rfl
@[simp] theorem openRow_parts (pc addr : Nat) (s : State) : (openRow pc addr s).parts = s.parts := rfl
@[simp] theorem openRow_quads (pc addr : Nat) (s : State) : (openRow pc addr s).quads = s.quads := rfl
@[simp] theorem openRow_chans (pc addr : Nat) (s : State) : (openRow pc addr s).chans = s.chans := rfl
@[simp] theorem openRow_granary (pc addr : Nat) (s : State) : (openRow pc addr s).granary = s.granary := rfl
@[simp] theorem openRow_tables (pc addr : Nat) (s : State) : (openRow pc addr s).tables = s.tables := rfl
@[simp] theorem openRow_tabPending (pc addr : Nat) (s : State) : (openRow pc addr s).tabPending = s.tabPending := rfl
@[simp] theorem openRow_trig (pc addr : Nat) (s : State) : (openRow pc addr s).trig = s.trig := rfl
@[simp] theorem openRow_det (pc addr : Nat) (s : State) : (openRow pc addr s).det = s.det := rfl
@[simp] theorem openRow_beam (pc addr : Nat) (s : State) : (openRow pc addr s).beam = s.beam := rfl
@[simp] theorem openRow_egr (pc addr : Nat) (s : State) : (openRow pc addr s).egr = s.egr := rfl
@[simp] theorem openRow_rings (pc addr : Nat) (s : State) : (openRow pc addr s).rings = s.rings := rfl
@[simp] theorem openRow_scratch (pc addr : Nat) (s : State) : (openRow pc addr s).scratch = s.scratch := rfl
@[simp] theorem openRow_time (pc addr : Nat) (s : State) : (openRow pc addr s).time = s.time := rfl
@[simp] theorem openRow_bell (pc addr : Nat) (s : State) : (openRow pc addr s).bell = s.bell := rfl
@[simp] theorem openRow_lanes (pc addr : Nat) (s : State) : (openRow pc addr s).lanes = s.lanes := rfl
@[simp] theorem openRow_stw (pc addr : Nat) (s : State) : (openRow pc addr s).stw = s.stw := rfl
@[simp] theorem openRow_dma (pc addr : Nat) (s : State) : (openRow pc addr s).dma = s.dma := rfl
@[simp] theorem openRow_dep (pc addr : Nat) (s : State) : (openRow pc addr s).dep = s.dep := rfl
@[simp] theorem openRow_mon (pc addr : Nat) (s : State) : (openRow pc addr s).mon = s.mon := rfl
@[simp] theorem openRow_jtag (pc addr : Nat) (s : State) : (openRow pc addr s).jtag = s.jtag := rfl
@[simp] theorem openRow_led (pc addr : Nat) (s : State) : (openRow pc addr s).led = s.led := rfl
@[simp] theorem openRow_fuses (pc addr : Nat) (s : State) : (openRow pc addr s).fuses = s.fuses := rfl
@[simp] theorem openRow_sys (pc addr : Nat) (s : State) : (openRow pc addr s).sys = s.sys := rfl
@[simp] theorem openRow_therm (pc addr : Nat) (s : State) : (openRow pc addr s).therm = s.therm := rfl

@[simp] theorem busServe_pending (pc : Nat) (dir : Bool) (s : State) : (busServe pc dir s).pending = s.pending := rfl
@[simp] theorem busServe_free (pc : Nat) (dir : Bool) (s : State) : (busServe pc dir s).free = s.free := rfl
@[simp] theorem busServe_tick (pc : Nat) (dir : Bool) (s : State) : (busServe pc dir s).tick = s.tick := rfl
@[simp] theorem busServe_regs (pc : Nat) (dir : Bool) (s : State) : (busServe pc dir s).regs = s.regs := rfl
@[simp] theorem busServe_out (pc : Nat) (dir : Bool) (s : State) : (busServe pc dir s).out = s.out := rfl
@[simp] theorem busServe_hostMem (pc : Nat) (dir : Bool) (s : State) : (busServe pc dir s).hostMem = s.hostMem := rfl
@[simp] theorem busServe_hif (pc : Nat) (dir : Bool) (s : State) : (busServe pc dir s).hif = s.hif := rfl
@[simp] theorem busServe_fab (pc : Nat) (dir : Bool) (s : State) : (busServe pc dir s).fab = s.fab := rfl
@[simp] theorem busServe_parts (pc : Nat) (dir : Bool) (s : State) : (busServe pc dir s).parts = s.parts := rfl
@[simp] theorem busServe_quads (pc : Nat) (dir : Bool) (s : State) : (busServe pc dir s).quads = s.quads := rfl
@[simp] theorem busServe_chans (pc : Nat) (dir : Bool) (s : State) : (busServe pc dir s).chans = s.chans := rfl
@[simp] theorem busServe_granary (pc : Nat) (dir : Bool) (s : State) : (busServe pc dir s).granary = s.granary := rfl
@[simp] theorem busServe_tables (pc : Nat) (dir : Bool) (s : State) : (busServe pc dir s).tables = s.tables := rfl
@[simp] theorem busServe_tabPending (pc : Nat) (dir : Bool) (s : State) : (busServe pc dir s).tabPending = s.tabPending := rfl
@[simp] theorem busServe_trig (pc : Nat) (dir : Bool) (s : State) : (busServe pc dir s).trig = s.trig := rfl
@[simp] theorem busServe_det (pc : Nat) (dir : Bool) (s : State) : (busServe pc dir s).det = s.det := rfl
@[simp] theorem busServe_beam (pc : Nat) (dir : Bool) (s : State) : (busServe pc dir s).beam = s.beam := rfl
@[simp] theorem busServe_egr (pc : Nat) (dir : Bool) (s : State) : (busServe pc dir s).egr = s.egr := rfl
@[simp] theorem busServe_rings (pc : Nat) (dir : Bool) (s : State) : (busServe pc dir s).rings = s.rings := rfl
@[simp] theorem busServe_scratch (pc : Nat) (dir : Bool) (s : State) : (busServe pc dir s).scratch = s.scratch := rfl
@[simp] theorem busServe_time (pc : Nat) (dir : Bool) (s : State) : (busServe pc dir s).time = s.time := rfl
@[simp] theorem busServe_bell (pc : Nat) (dir : Bool) (s : State) : (busServe pc dir s).bell = s.bell := rfl
@[simp] theorem busServe_lanes (pc : Nat) (dir : Bool) (s : State) : (busServe pc dir s).lanes = s.lanes := rfl
@[simp] theorem busServe_stw (pc : Nat) (dir : Bool) (s : State) : (busServe pc dir s).stw = s.stw := rfl
@[simp] theorem busServe_dma (pc : Nat) (dir : Bool) (s : State) : (busServe pc dir s).dma = s.dma := rfl
@[simp] theorem busServe_dep (pc : Nat) (dir : Bool) (s : State) : (busServe pc dir s).dep = s.dep := rfl
@[simp] theorem busServe_mon (pc : Nat) (dir : Bool) (s : State) : (busServe pc dir s).mon = s.mon := rfl
@[simp] theorem busServe_jtag (pc : Nat) (dir : Bool) (s : State) : (busServe pc dir s).jtag = s.jtag := rfl
@[simp] theorem busServe_led (pc : Nat) (dir : Bool) (s : State) : (busServe pc dir s).led = s.led := rfl
@[simp] theorem busServe_fuses (pc : Nat) (dir : Bool) (s : State) : (busServe pc dir s).fuses = s.fuses := rfl
@[simp] theorem busServe_sys (pc : Nat) (dir : Bool) (s : State) : (busServe pc dir s).sys = s.sys := rfl
@[simp] theorem busServe_therm (pc : Nat) (dir : Bool) (s : State) : (busServe pc dir s).therm = s.therm := rfl

@[simp] theorem refreshes_pending (pc n : Nat) (s : State) : (refreshes pc n s).pending = s.pending := rfl
@[simp] theorem refreshes_free (pc n : Nat) (s : State) : (refreshes pc n s).free = s.free := rfl
@[simp] theorem refreshes_tick (pc n : Nat) (s : State) : (refreshes pc n s).tick = s.tick := rfl
@[simp] theorem refreshes_regs (pc n : Nat) (s : State) : (refreshes pc n s).regs = s.regs := rfl
@[simp] theorem refreshes_out (pc n : Nat) (s : State) : (refreshes pc n s).out = s.out := rfl
@[simp] theorem refreshes_hostMem (pc n : Nat) (s : State) : (refreshes pc n s).hostMem = s.hostMem := rfl
@[simp] theorem refreshes_hif (pc n : Nat) (s : State) : (refreshes pc n s).hif = s.hif := rfl
@[simp] theorem refreshes_fab (pc n : Nat) (s : State) : (refreshes pc n s).fab = s.fab := rfl
@[simp] theorem refreshes_parts (pc n : Nat) (s : State) : (refreshes pc n s).parts = s.parts := rfl
@[simp] theorem refreshes_quads (pc n : Nat) (s : State) : (refreshes pc n s).quads = s.quads := rfl
@[simp] theorem refreshes_chans (pc n : Nat) (s : State) : (refreshes pc n s).chans = s.chans := rfl
@[simp] theorem refreshes_granary (pc n : Nat) (s : State) : (refreshes pc n s).granary = s.granary := rfl
@[simp] theorem refreshes_tables (pc n : Nat) (s : State) : (refreshes pc n s).tables = s.tables := rfl
@[simp] theorem refreshes_tabPending (pc n : Nat) (s : State) : (refreshes pc n s).tabPending = s.tabPending := rfl
@[simp] theorem refreshes_trig (pc n : Nat) (s : State) : (refreshes pc n s).trig = s.trig := rfl
@[simp] theorem refreshes_det (pc n : Nat) (s : State) : (refreshes pc n s).det = s.det := rfl
@[simp] theorem refreshes_beam (pc n : Nat) (s : State) : (refreshes pc n s).beam = s.beam := rfl
@[simp] theorem refreshes_egr (pc n : Nat) (s : State) : (refreshes pc n s).egr = s.egr := rfl
@[simp] theorem refreshes_rings (pc n : Nat) (s : State) : (refreshes pc n s).rings = s.rings := rfl
@[simp] theorem refreshes_scratch (pc n : Nat) (s : State) : (refreshes pc n s).scratch = s.scratch := rfl
@[simp] theorem refreshes_time (pc n : Nat) (s : State) : (refreshes pc n s).time = s.time := rfl
@[simp] theorem refreshes_bell (pc n : Nat) (s : State) : (refreshes pc n s).bell = s.bell := rfl
@[simp] theorem refreshes_lanes (pc n : Nat) (s : State) : (refreshes pc n s).lanes = s.lanes := rfl
@[simp] theorem refreshes_stw (pc n : Nat) (s : State) : (refreshes pc n s).stw = s.stw := rfl
@[simp] theorem refreshes_dma (pc n : Nat) (s : State) : (refreshes pc n s).dma = s.dma := rfl
@[simp] theorem refreshes_dep (pc n : Nat) (s : State) : (refreshes pc n s).dep = s.dep := rfl
@[simp] theorem refreshes_mon (pc n : Nat) (s : State) : (refreshes pc n s).mon = s.mon := rfl
@[simp] theorem refreshes_jtag (pc n : Nat) (s : State) : (refreshes pc n s).jtag = s.jtag := rfl
@[simp] theorem refreshes_led (pc n : Nat) (s : State) : (refreshes pc n s).led = s.led := rfl
@[simp] theorem refreshes_fuses (pc n : Nat) (s : State) : (refreshes pc n s).fuses = s.fuses := rfl
@[simp] theorem refreshes_sys (pc n : Nat) (s : State) : (refreshes pc n s).sys = s.sys := rfl
@[simp] theorem refreshes_therm (pc n : Nat) (s : State) : (refreshes pc n s).therm = s.therm := rfl

@[simp] theorem noteRead_pending (p : Fin 8) (sub t : Nat) (s : State) : (noteRead p sub t s).pending = s.pending := rfl
@[simp] theorem noteRead_free (p : Fin 8) (sub t : Nat) (s : State) : (noteRead p sub t s).free = s.free := rfl
@[simp] theorem noteRead_tick (p : Fin 8) (sub t : Nat) (s : State) : (noteRead p sub t s).tick = s.tick := rfl
@[simp] theorem noteRead_regs (p : Fin 8) (sub t : Nat) (s : State) : (noteRead p sub t s).regs = s.regs := rfl
@[simp] theorem noteRead_out (p : Fin 8) (sub t : Nat) (s : State) : (noteRead p sub t s).out = s.out := rfl
@[simp] theorem noteRead_hostMem (p : Fin 8) (sub t : Nat) (s : State) : (noteRead p sub t s).hostMem = s.hostMem := rfl
@[simp] theorem noteRead_hif (p : Fin 8) (sub t : Nat) (s : State) : (noteRead p sub t s).hif = s.hif := rfl
@[simp] theorem noteRead_fab (p : Fin 8) (sub t : Nat) (s : State) : (noteRead p sub t s).fab = s.fab := rfl
@[simp] theorem noteRead_parts (p : Fin 8) (sub t : Nat) (s : State) : (noteRead p sub t s).parts = s.parts := rfl
@[simp] theorem noteRead_quads (p : Fin 8) (sub t : Nat) (s : State) : (noteRead p sub t s).quads = s.quads := rfl
@[simp] theorem noteRead_chans (p : Fin 8) (sub t : Nat) (s : State) : (noteRead p sub t s).chans = s.chans := rfl
@[simp] theorem noteRead_granary (p : Fin 8) (sub t : Nat) (s : State) : (noteRead p sub t s).granary = s.granary := rfl
@[simp] theorem noteRead_tables (p : Fin 8) (sub t : Nat) (s : State) : (noteRead p sub t s).tables = s.tables := rfl
@[simp] theorem noteRead_tabPending (p : Fin 8) (sub t : Nat) (s : State) : (noteRead p sub t s).tabPending = s.tabPending := rfl
@[simp] theorem noteRead_trig (p : Fin 8) (sub t : Nat) (s : State) : (noteRead p sub t s).trig = s.trig := rfl
@[simp] theorem noteRead_det (p : Fin 8) (sub t : Nat) (s : State) : (noteRead p sub t s).det = s.det := rfl
@[simp] theorem noteRead_egr (p : Fin 8) (sub t : Nat) (s : State) : (noteRead p sub t s).egr = s.egr := rfl
@[simp] theorem noteRead_rings (p : Fin 8) (sub t : Nat) (s : State) : (noteRead p sub t s).rings = s.rings := rfl
@[simp] theorem noteRead_scratch (p : Fin 8) (sub t : Nat) (s : State) : (noteRead p sub t s).scratch = s.scratch := rfl
@[simp] theorem noteRead_hbm (p : Fin 8) (sub t : Nat) (s : State) : (noteRead p sub t s).hbm = s.hbm := rfl
@[simp] theorem noteRead_time (p : Fin 8) (sub t : Nat) (s : State) : (noteRead p sub t s).time = s.time := rfl
@[simp] theorem noteRead_bell (p : Fin 8) (sub t : Nat) (s : State) : (noteRead p sub t s).bell = s.bell := rfl
@[simp] theorem noteRead_lanes (p : Fin 8) (sub t : Nat) (s : State) : (noteRead p sub t s).lanes = s.lanes := rfl
@[simp] theorem noteRead_stw (p : Fin 8) (sub t : Nat) (s : State) : (noteRead p sub t s).stw = s.stw := rfl
@[simp] theorem noteRead_dma (p : Fin 8) (sub t : Nat) (s : State) : (noteRead p sub t s).dma = s.dma := rfl
@[simp] theorem noteRead_dep (p : Fin 8) (sub t : Nat) (s : State) : (noteRead p sub t s).dep = s.dep := rfl
@[simp] theorem noteRead_mon (p : Fin 8) (sub t : Nat) (s : State) : (noteRead p sub t s).mon = s.mon := rfl
@[simp] theorem noteRead_jtag (p : Fin 8) (sub t : Nat) (s : State) : (noteRead p sub t s).jtag = s.jtag := rfl
@[simp] theorem noteRead_led (p : Fin 8) (sub t : Nat) (s : State) : (noteRead p sub t s).led = s.led := rfl
@[simp] theorem noteRead_fuses (p : Fin 8) (sub t : Nat) (s : State) : (noteRead p sub t s).fuses = s.fuses := rfl
@[simp] theorem noteRead_sys (p : Fin 8) (sub t : Nat) (s : State) : (noteRead p sub t s).sys = s.sys := rfl
@[simp] theorem noteRead_therm (p : Fin 8) (sub t : Nat) (s : State) : (noteRead p sub t s).therm = s.therm := rfl

@[simp] theorem setDelayPoison_pending (i : Nat) (on : Bool) (s : State) : (setDelayPoison i on s).pending = s.pending := rfl
@[simp] theorem setDelayPoison_free (i : Nat) (on : Bool) (s : State) : (setDelayPoison i on s).free = s.free := rfl
@[simp] theorem setDelayPoison_tick (i : Nat) (on : Bool) (s : State) : (setDelayPoison i on s).tick = s.tick := rfl
@[simp] theorem setDelayPoison_regs (i : Nat) (on : Bool) (s : State) : (setDelayPoison i on s).regs = s.regs := rfl
@[simp] theorem setDelayPoison_out (i : Nat) (on : Bool) (s : State) : (setDelayPoison i on s).out = s.out := rfl
@[simp] theorem setDelayPoison_hostMem (i : Nat) (on : Bool) (s : State) : (setDelayPoison i on s).hostMem = s.hostMem := rfl
@[simp] theorem setDelayPoison_hif (i : Nat) (on : Bool) (s : State) : (setDelayPoison i on s).hif = s.hif := rfl
@[simp] theorem setDelayPoison_fab (i : Nat) (on : Bool) (s : State) : (setDelayPoison i on s).fab = s.fab := rfl
@[simp] theorem setDelayPoison_parts (i : Nat) (on : Bool) (s : State) : (setDelayPoison i on s).parts = s.parts := rfl
@[simp] theorem setDelayPoison_quads (i : Nat) (on : Bool) (s : State) : (setDelayPoison i on s).quads = s.quads := rfl
@[simp] theorem setDelayPoison_chans (i : Nat) (on : Bool) (s : State) : (setDelayPoison i on s).chans = s.chans := rfl
@[simp] theorem setDelayPoison_granary (i : Nat) (on : Bool) (s : State) : (setDelayPoison i on s).granary = s.granary := rfl
@[simp] theorem setDelayPoison_tabPending (i : Nat) (on : Bool) (s : State) : (setDelayPoison i on s).tabPending = s.tabPending := rfl
@[simp] theorem setDelayPoison_trig (i : Nat) (on : Bool) (s : State) : (setDelayPoison i on s).trig = s.trig := rfl
@[simp] theorem setDelayPoison_det (i : Nat) (on : Bool) (s : State) : (setDelayPoison i on s).det = s.det := rfl
@[simp] theorem setDelayPoison_beam (i : Nat) (on : Bool) (s : State) : (setDelayPoison i on s).beam = s.beam := rfl
@[simp] theorem setDelayPoison_egr (i : Nat) (on : Bool) (s : State) : (setDelayPoison i on s).egr = s.egr := rfl
@[simp] theorem setDelayPoison_rings (i : Nat) (on : Bool) (s : State) : (setDelayPoison i on s).rings = s.rings := rfl
@[simp] theorem setDelayPoison_scratch (i : Nat) (on : Bool) (s : State) : (setDelayPoison i on s).scratch = s.scratch := rfl
@[simp] theorem setDelayPoison_hbm (i : Nat) (on : Bool) (s : State) : (setDelayPoison i on s).hbm = s.hbm := rfl
@[simp] theorem setDelayPoison_time (i : Nat) (on : Bool) (s : State) : (setDelayPoison i on s).time = s.time := rfl
@[simp] theorem setDelayPoison_bell (i : Nat) (on : Bool) (s : State) : (setDelayPoison i on s).bell = s.bell := rfl
@[simp] theorem setDelayPoison_lanes (i : Nat) (on : Bool) (s : State) : (setDelayPoison i on s).lanes = s.lanes := rfl
@[simp] theorem setDelayPoison_stw (i : Nat) (on : Bool) (s : State) : (setDelayPoison i on s).stw = s.stw := rfl
@[simp] theorem setDelayPoison_dma (i : Nat) (on : Bool) (s : State) : (setDelayPoison i on s).dma = s.dma := rfl
@[simp] theorem setDelayPoison_dep (i : Nat) (on : Bool) (s : State) : (setDelayPoison i on s).dep = s.dep := rfl
@[simp] theorem setDelayPoison_mon (i : Nat) (on : Bool) (s : State) : (setDelayPoison i on s).mon = s.mon := rfl
@[simp] theorem setDelayPoison_jtag (i : Nat) (on : Bool) (s : State) : (setDelayPoison i on s).jtag = s.jtag := rfl
@[simp] theorem setDelayPoison_led (i : Nat) (on : Bool) (s : State) : (setDelayPoison i on s).led = s.led := rfl
@[simp] theorem setDelayPoison_fuses (i : Nat) (on : Bool) (s : State) : (setDelayPoison i on s).fuses = s.fuses := rfl
@[simp] theorem setDelayPoison_sys (i : Nat) (on : Bool) (s : State) : (setDelayPoison i on s).sys = s.sys := rfl
@[simp] theorem setDelayPoison_therm (i : Nat) (on : Bool) (s : State) : (setDelayPoison i on s).therm = s.therm := rfl

@[simp] theorem raise_pending (e : Event) (part : Option (Fin 8)) (a0 a1 : Nat) (s : State) : (raise e part a0 a1 s).pending = s.pending := by
  obtain ⟨_, _, _, _, _, h⟩ := raise_frame e part a0 a1 s
  rw [h]
@[simp] theorem raise_free (e : Event) (part : Option (Fin 8)) (a0 a1 : Nat) (s : State) : (raise e part a0 a1 s).free = s.free := by
  obtain ⟨_, _, _, _, _, h⟩ := raise_frame e part a0 a1 s
  rw [h]
@[simp] theorem raise_tick (e : Event) (part : Option (Fin 8)) (a0 a1 : Nat) (s : State) : (raise e part a0 a1 s).tick = s.tick := by
  obtain ⟨_, _, _, _, _, h⟩ := raise_frame e part a0 a1 s
  rw [h]
@[simp] theorem raise_fab (e : Event) (part : Option (Fin 8)) (a0 a1 : Nat) (s : State) : (raise e part a0 a1 s).fab = s.fab := by
  obtain ⟨_, _, _, _, _, h⟩ := raise_frame e part a0 a1 s
  rw [h]
@[simp] theorem raise_parts (e : Event) (part : Option (Fin 8)) (a0 a1 : Nat) (s : State) : (raise e part a0 a1 s).parts = s.parts := by
  obtain ⟨_, _, _, _, _, h⟩ := raise_frame e part a0 a1 s
  rw [h]
@[simp] theorem raise_quads (e : Event) (part : Option (Fin 8)) (a0 a1 : Nat) (s : State) : (raise e part a0 a1 s).quads = s.quads := by
  obtain ⟨_, _, _, _, _, h⟩ := raise_frame e part a0 a1 s
  rw [h]
@[simp] theorem raise_chans (e : Event) (part : Option (Fin 8)) (a0 a1 : Nat) (s : State) : (raise e part a0 a1 s).chans = s.chans := by
  obtain ⟨_, _, _, _, _, h⟩ := raise_frame e part a0 a1 s
  rw [h]
@[simp] theorem raise_granary (e : Event) (part : Option (Fin 8)) (a0 a1 : Nat) (s : State) : (raise e part a0 a1 s).granary = s.granary := by
  obtain ⟨_, _, _, _, _, h⟩ := raise_frame e part a0 a1 s
  rw [h]
@[simp] theorem raise_tables (e : Event) (part : Option (Fin 8)) (a0 a1 : Nat) (s : State) : (raise e part a0 a1 s).tables = s.tables := by
  obtain ⟨_, _, _, _, _, h⟩ := raise_frame e part a0 a1 s
  rw [h]
@[simp] theorem raise_tabPending (e : Event) (part : Option (Fin 8)) (a0 a1 : Nat) (s : State) : (raise e part a0 a1 s).tabPending = s.tabPending := by
  obtain ⟨_, _, _, _, _, h⟩ := raise_frame e part a0 a1 s
  rw [h]
@[simp] theorem raise_trig (e : Event) (part : Option (Fin 8)) (a0 a1 : Nat) (s : State) : (raise e part a0 a1 s).trig = s.trig := by
  obtain ⟨_, _, _, _, _, h⟩ := raise_frame e part a0 a1 s
  rw [h]
@[simp] theorem raise_det (e : Event) (part : Option (Fin 8)) (a0 a1 : Nat) (s : State) : (raise e part a0 a1 s).det = s.det := by
  obtain ⟨_, _, _, _, _, h⟩ := raise_frame e part a0 a1 s
  rw [h]
@[simp] theorem raise_beam (e : Event) (part : Option (Fin 8)) (a0 a1 : Nat) (s : State) : (raise e part a0 a1 s).beam = s.beam := by
  obtain ⟨_, _, _, _, _, h⟩ := raise_frame e part a0 a1 s
  rw [h]
@[simp] theorem raise_egr (e : Event) (part : Option (Fin 8)) (a0 a1 : Nat) (s : State) : (raise e part a0 a1 s).egr = s.egr := by
  obtain ⟨_, _, _, _, _, h⟩ := raise_frame e part a0 a1 s
  rw [h]
@[simp] theorem raise_rings (e : Event) (part : Option (Fin 8)) (a0 a1 : Nat) (s : State) : (raise e part a0 a1 s).rings = s.rings := by
  obtain ⟨_, _, _, _, _, h⟩ := raise_frame e part a0 a1 s
  rw [h]
@[simp] theorem raise_scratch (e : Event) (part : Option (Fin 8)) (a0 a1 : Nat) (s : State) : (raise e part a0 a1 s).scratch = s.scratch := by
  obtain ⟨_, _, _, _, _, h⟩ := raise_frame e part a0 a1 s
  rw [h]
@[simp] theorem raise_hbm (e : Event) (part : Option (Fin 8)) (a0 a1 : Nat) (s : State) : (raise e part a0 a1 s).hbm = s.hbm := by
  obtain ⟨_, _, _, _, _, h⟩ := raise_frame e part a0 a1 s
  rw [h]
@[simp] theorem raise_time (e : Event) (part : Option (Fin 8)) (a0 a1 : Nat) (s : State) : (raise e part a0 a1 s).time = s.time := by
  obtain ⟨_, _, _, _, _, h⟩ := raise_frame e part a0 a1 s
  rw [h]
@[simp] theorem raise_bell (e : Event) (part : Option (Fin 8)) (a0 a1 : Nat) (s : State) : (raise e part a0 a1 s).bell = s.bell := by
  obtain ⟨_, _, _, _, _, h⟩ := raise_frame e part a0 a1 s
  rw [h]
@[simp] theorem raise_lanes (e : Event) (part : Option (Fin 8)) (a0 a1 : Nat) (s : State) : (raise e part a0 a1 s).lanes = s.lanes := by
  obtain ⟨_, _, _, _, _, h⟩ := raise_frame e part a0 a1 s
  rw [h]
@[simp] theorem raise_stw (e : Event) (part : Option (Fin 8)) (a0 a1 : Nat) (s : State) : (raise e part a0 a1 s).stw = s.stw := by
  obtain ⟨_, _, _, _, _, h⟩ := raise_frame e part a0 a1 s
  rw [h]
@[simp] theorem raise_dma (e : Event) (part : Option (Fin 8)) (a0 a1 : Nat) (s : State) : (raise e part a0 a1 s).dma = s.dma := by
  obtain ⟨_, _, _, _, _, h⟩ := raise_frame e part a0 a1 s
  rw [h]
@[simp] theorem raise_dep (e : Event) (part : Option (Fin 8)) (a0 a1 : Nat) (s : State) : (raise e part a0 a1 s).dep = s.dep := by
  obtain ⟨_, _, _, _, _, h⟩ := raise_frame e part a0 a1 s
  rw [h]
@[simp] theorem raise_mon (e : Event) (part : Option (Fin 8)) (a0 a1 : Nat) (s : State) : (raise e part a0 a1 s).mon = s.mon := by
  obtain ⟨_, _, _, _, _, h⟩ := raise_frame e part a0 a1 s
  rw [h]
@[simp] theorem raise_jtag (e : Event) (part : Option (Fin 8)) (a0 a1 : Nat) (s : State) : (raise e part a0 a1 s).jtag = s.jtag := by
  obtain ⟨_, _, _, _, _, h⟩ := raise_frame e part a0 a1 s
  rw [h]
@[simp] theorem raise_fuses (e : Event) (part : Option (Fin 8)) (a0 a1 : Nat) (s : State) : (raise e part a0 a1 s).fuses = s.fuses := by
  obtain ⟨_, _, _, _, _, h⟩ := raise_frame e part a0 a1 s
  rw [h]
@[simp] theorem raise_sys (e : Event) (part : Option (Fin 8)) (a0 a1 : Nat) (s : State) : (raise e part a0 a1 s).sys = s.sys := by
  obtain ⟨_, _, _, _, _, h⟩ := raise_frame e part a0 a1 s
  rw [h]
@[simp] theorem raise_therm (e : Event) (part : Option (Fin 8)) (a0 a1 : Nat) (s : State) : (raise e part a0 a1 s).therm = s.therm := by
  obtain ⟨_, _, _, _, _, h⟩ := raise_frame e part a0 a1 s
  rw [h]

@[simp] theorem dropLatch_pending (s : State) : (dropLatch s).pending = s.pending := by
  obtain ⟨_, _, _, _, _, h⟩ := dropLatch_frame s
  rw [h]
@[simp] theorem dropLatch_free (s : State) : (dropLatch s).free = s.free := by
  obtain ⟨_, _, _, _, _, h⟩ := dropLatch_frame s
  rw [h]
@[simp] theorem dropLatch_tick (s : State) : (dropLatch s).tick = s.tick := by
  obtain ⟨_, _, _, _, _, h⟩ := dropLatch_frame s
  rw [h]
@[simp] theorem dropLatch_fab (s : State) : (dropLatch s).fab = s.fab := by
  obtain ⟨_, _, _, _, _, h⟩ := dropLatch_frame s
  rw [h]
@[simp] theorem dropLatch_parts (s : State) : (dropLatch s).parts = s.parts := by
  obtain ⟨_, _, _, _, _, h⟩ := dropLatch_frame s
  rw [h]
@[simp] theorem dropLatch_quads (s : State) : (dropLatch s).quads = s.quads := by
  obtain ⟨_, _, _, _, _, h⟩ := dropLatch_frame s
  rw [h]
@[simp] theorem dropLatch_chans (s : State) : (dropLatch s).chans = s.chans := by
  obtain ⟨_, _, _, _, _, h⟩ := dropLatch_frame s
  rw [h]
@[simp] theorem dropLatch_granary (s : State) : (dropLatch s).granary = s.granary := by
  obtain ⟨_, _, _, _, _, h⟩ := dropLatch_frame s
  rw [h]
@[simp] theorem dropLatch_tables (s : State) : (dropLatch s).tables = s.tables := by
  obtain ⟨_, _, _, _, _, h⟩ := dropLatch_frame s
  rw [h]
@[simp] theorem dropLatch_tabPending (s : State) : (dropLatch s).tabPending = s.tabPending := by
  obtain ⟨_, _, _, _, _, h⟩ := dropLatch_frame s
  rw [h]
@[simp] theorem dropLatch_trig (s : State) : (dropLatch s).trig = s.trig := by
  obtain ⟨_, _, _, _, _, h⟩ := dropLatch_frame s
  rw [h]
@[simp] theorem dropLatch_det (s : State) : (dropLatch s).det = s.det := by
  obtain ⟨_, _, _, _, _, h⟩ := dropLatch_frame s
  rw [h]
@[simp] theorem dropLatch_beam (s : State) : (dropLatch s).beam = s.beam := by
  obtain ⟨_, _, _, _, _, h⟩ := dropLatch_frame s
  rw [h]
@[simp] theorem dropLatch_egr (s : State) : (dropLatch s).egr = s.egr := by
  obtain ⟨_, _, _, _, _, h⟩ := dropLatch_frame s
  rw [h]
@[simp] theorem dropLatch_rings (s : State) : (dropLatch s).rings = s.rings := by
  obtain ⟨_, _, _, _, _, h⟩ := dropLatch_frame s
  rw [h]
@[simp] theorem dropLatch_scratch (s : State) : (dropLatch s).scratch = s.scratch := by
  obtain ⟨_, _, _, _, _, h⟩ := dropLatch_frame s
  rw [h]
@[simp] theorem dropLatch_hbm (s : State) : (dropLatch s).hbm = s.hbm := by
  obtain ⟨_, _, _, _, _, h⟩ := dropLatch_frame s
  rw [h]
@[simp] theorem dropLatch_time (s : State) : (dropLatch s).time = s.time := by
  obtain ⟨_, _, _, _, _, h⟩ := dropLatch_frame s
  rw [h]
@[simp] theorem dropLatch_bell (s : State) : (dropLatch s).bell = s.bell := by
  obtain ⟨_, _, _, _, _, h⟩ := dropLatch_frame s
  rw [h]
@[simp] theorem dropLatch_lanes (s : State) : (dropLatch s).lanes = s.lanes := by
  obtain ⟨_, _, _, _, _, h⟩ := dropLatch_frame s
  rw [h]
@[simp] theorem dropLatch_stw (s : State) : (dropLatch s).stw = s.stw := by
  obtain ⟨_, _, _, _, _, h⟩ := dropLatch_frame s
  rw [h]
@[simp] theorem dropLatch_dma (s : State) : (dropLatch s).dma = s.dma := by
  obtain ⟨_, _, _, _, _, h⟩ := dropLatch_frame s
  rw [h]
@[simp] theorem dropLatch_dep (s : State) : (dropLatch s).dep = s.dep := by
  obtain ⟨_, _, _, _, _, h⟩ := dropLatch_frame s
  rw [h]
@[simp] theorem dropLatch_mon (s : State) : (dropLatch s).mon = s.mon := by
  obtain ⟨_, _, _, _, _, h⟩ := dropLatch_frame s
  rw [h]
@[simp] theorem dropLatch_jtag (s : State) : (dropLatch s).jtag = s.jtag := by
  obtain ⟨_, _, _, _, _, h⟩ := dropLatch_frame s
  rw [h]
@[simp] theorem dropLatch_fuses (s : State) : (dropLatch s).fuses = s.fuses := by
  obtain ⟨_, _, _, _, _, h⟩ := dropLatch_frame s
  rw [h]
@[simp] theorem dropLatch_sys (s : State) : (dropLatch s).sys = s.sys := by
  obtain ⟨_, _, _, _, _, h⟩ := dropLatch_frame s
  rw [h]
@[simp] theorem dropLatch_therm (s : State) : (dropLatch s).therm = s.therm := by
  obtain ⟨_, _, _, _, _, h⟩ := dropLatch_frame s
  rw [h]

end Sys2Proof.Machine
end

