-- ==== Sys2Proof/Tests/Slice0.lean ====
section
/-!
SUPPORT. Tests of the model: commands that are not well formed, the worked examples of the spec, and for every statement with hypotheses a
state and operands that meet them. A witness that joins several facts gives them clause by clause, in the statement's order.
-/
namespace Sys2Proof.Machine

set_option Elab.async false

/-- The state after reset one tick on. -/
def base : State := { State.reset with tick := 1 }

theorem base_kept : StateInv base :=
  ⟨⟨rfl, rfl, rfl, rfl, rfl, rfl, rfl, rfl, rfl, rfl⟩, ⟨rfl, rfl, rfl⟩,
    State.reset_cores, by decide +kernel, by decide +kernel⟩

/-- A device without power. -/
def dark : State := { base with sys := { base.sys with powered := false } }

/-- Boot is done and the host's link is up. -/
def booted : State := { setF fSysBootStatusStage .sysBootStatus 4 base with hif := { base.hif with linkUp := true } }

/-- A device in THROTTLE. -/
def hot (s : State) : State := setF fSysThermStatusState .sysThermStatus 2 s

/-- Ring 1 for completions, ring 2 for submissions on it, ring 3 for events of the device. -/
def ringed : State :=
  let cfg := fun (t g : Nat) => setFld fRingCfgEn 1 (setFld fRingCfgType t (setFld fRingCfgLog2 4 (setFld fRingCfgGroup g 0)))
  setReg (.ringBase 2) 2 (setReg (.ringBase 3) 1 (setReg (.ringCfg 3) (cfg 2 8)
    (setReg (.ringCfg 2) (setFld fRingCfgCplRing 1 (cfg 0 8)) (setReg (.ringCfg 1) (cfg 1 0) booted))))

/-- Its rings of completions and events are full. -/
def ringedFull : State := setF fRingIdxIdx (.ringIdx 1) 16 (setF fRingIdxIdx (.ringIdx 3) 16 ringed)

/-- Port 0 set to Ethernet and up. -/
def portUp0 : State :=
  setF fLaneStatusState (.laneStatus 0) 4 (setF fLaneGroupCfgGmode (.laneGroupCfg 0) 1 (onPort 0 (fun p => { p with ethUp := true }) booted))

/-- A partition of one input, one channel and batches of 256 samples. -/
def small : PartCfg := { PartCfg.none with inputs := 1, t := 256, g := 1, declRate := 1000, nInt := 1, chanCount := 1, period := 1 }

/-- Its batch, whose one granule has come. -/
def batch : Batch := ⟨0, 0, 0, [], false, some 0, false, false, [], [], [], [], false, [], []⟩

/-- A copy of it with no input map entry, and with work for the first tile. -/
def copy : Copy := ⟨1, [batch], [], [0], 10, [(0, ⟨[(0, 1)], none, []⟩)], [0, 2, 2, 2, 2], false, (0, 1048576), 0⟩

/-- The partition started. -/
def started : Part := { Part.idle with started := true, cfg := small, epochs := [⟨1, 0, 0, small, none⟩], serial := 1, partAnchor := ⟨1, 0, 0⟩ }

/-- A capture configuration of the small partition, and an ARM of every source from sample 4. -/
def kept : CaptCfg := ⟨true, 0, 2, 0, 1, 1, 0⟩

/-- The ARM. -/
def arm : Arm := ⟨7, false, 7, true, 16, 4, 0, 16⟩

/-- The partition started with capture configured and the trigger armed. -/
def armed : State := { setPart 0 started base with trig := { base.trig with capt := some kept, armed := some arm, placedMax := 5 } }

/-! ### Commands that are not well formed, one for each check -/

theorem test_illformed_burst_place : Machine.exec (.hbmAccess ⟨0, 33, false, .symbols [], .unused⟩) base = .fault .malformed := rfl

theorem test_illformed_burst_end : Machine.exec (.hbmAccess ⟨0, 1152 * 1048576, false, .symbols [], .unused⟩) base = .fault .malformed := rfl

theorem test_illformed_records : (∀ c ∈ [Instr.bellFireRecord 0 [], .bellArmRecord 0 [], .bellRoleRecord 0 [], .bellDeadRecord 0 [], .bellMsgRecord 0 []],
    c.wellFormed = false) := by decide +kernel

theorem test_illformed_record : Machine.exec (.bellFireRecord 0 []) base = .fault .malformed := rfl

theorem test_illformed_rails : Machine.exec (.voltageSample [1, 2]) base = .fault .malformed := rfl

theorem test_illformed_sensors : Machine.exec (.thermSample []) base = .fault .malformed := rfl

theorem test_illformed_pins : Machine.exec (.jtagSamplePreload [] []) base = .fault .malformed := rfl

theorem test_illformed_bins : Machine.exec (.tdcCalDone [1, 2]) base = .fault .malformed := rfl

theorem test_illformed_hits : fits (.tdcCalDone (List.replicate 256 1)) base = false := by decide +kernel

/-! ### Worked examples of the spec -/

/-- The partition of the example of 03_correlation_engine.md. -/
def wide : PartCfg := { PartCfg.none with inputs := 4096, t := 4096, g := 1, declRate := 47692307, nInt := 16, chanCount := 1000, visRoute := 3 }

/-- 03_correlation_engine.md: X, the staging region, U and the records of a batch. -/
theorem test_mill_sizes : wide.xCount = 4160 ∧ wide.region = 33554432 ∧ wide.xCount * wide.segs = 66560 ∧ wide.vis = 8390656 := by decide +kernel

/-- 03_correlation_engine.md: the quadrants' boundaries, and the first tiles' segments. -/
theorem test_dealing : (List.range 5).map (fun q => quadBound 4160 q base) = [0, 1040, 2080, 3120, 4160] ∧
    (dealTiles 16640 (List.range 32)).take 2 = [(0, 0, 520), (1, 520, 1040)] := by decide +kernel

/-- 04_accumulation_and_harvest.md: 1,000 channel blocks of COMPACT and of EXACT. -/
theorem test_granary_bytes : 1000 * { wide with compact := true }.block = 83906560000 ∧ wide.block = 134250496 := by decide +kernel

/-- 08_hbm_memory.md: Granary offset 5,000,000. -/
theorem test_interleave : interleave (List.range 128) 4 32 5000000 = ⟨68, 33594176, 26, 2, 1, 1, 683⟩ := by decide +kernel

/-- 08_hbm_memory.md, 12_host_rings.md: T = 4,096 is admitted at 226,044 units, T = 2,048 refused at 421,487 against 240,625. -/
theorem test_admission :
    let s := { base with trig := { base.trig with capt := some ⟨true, 0, 1, 0, 1000, 4096, 0⟩ } }
    admitHbm ((planNow s).withPart 0 wide) s = ⟨false, 0x44, 226044, 240625⟩ ∧
    admitHbm ((planNow s).withPart 0 { wide with t := 2048 }) s = ⟨true, 0x44, 421487, 240625⟩ := by decide +kernel

/-- 12_host_rings.md: the CONFIGURE of the example. -/
theorem test_configure_body :
    decodeCfg ⟨5, 0, 0x10203, [0x102030002, 0, 0x18020001000, 0x1002D7BA13, 0, 0, 0, 0], false, false⟩ =
      { PartCfg.none with inputs := 4096, t := 2048, g := 1, visRoute := 3, declRate := 47692307, nInt := 16 } := by decide +kernel

/-- 09_time_and_measurement.md: a TRIG_IN edge at 781,250 Hz. -/
theorem test_sample_position :
    samplePos { wide with originS := 1700000000, period := 0x050000000000 } ((1700000123 * 1000000000 + 456789012) * 2 ^ 32 + 0x8000 * 2 ^ 16) =
      some 24691357802 ∧ 24691357802 / 256 = 96450616 ∧ 24691357802 % 256 = 106 := by decide +kernel

/-- 05_beamforming.md: requantising one sample. -/
theorem test_requantise : requant 0x100 20 1234567 = (127, true) ∧ requant 0x100 20 (-98765) = (-24, false) := by decide +kernel

/-- 17_register_map.md: the address of lane 37's CRC error count. -/
theorem test_address : (Reg.cnt (.laneCrcErr 37)).offset = 0x0C2128 := by decide +kernel

/-- The check values of the CRCs that the spec names by their standards, over "123456789". -/
theorem test_crc : crc32 ((List.range 9).map fun i => BitVec.ofNat 8 (0x31 + i)) = 0xCBF43926 := by decide +kernel

/-! ### Witnesses: the step, events, registers and the fabric -/

theorem witness_EmptyQueueTicks : base.pending = [] ∧ Runs base ∧ dark.pending = [] ∧ held dark = true := by unfold Runs; decide +kernel

theorem witness_StepKeepsInv : StateInv base ∧ ∃ t, Machine.step base = .next t := ⟨base_kept, _, rfl⟩

theorem witness_CommandsKeepQueueAndFuses : StateInv base ∧ ∃ t, Machine.exec .syncOutPulse base = .next t := ⟨base_kept, _, rfl⟩

theorem witness_StopsOnlyMalformed : fits (.remapSwap []) base = true ∧ fits (.bellFireRecord 0 []) base = false := by decide +kernel

theorem witness_HeldDeviceIgnores : held dark = true ∧ fits (.remapSwap []) dark = true := by decide +kernel

/-- What evtRingFor answers while the link is up, with room and without, and the severities on either side of 2. -/
theorem witness_RaiseTakesEffect :
    StateInv base ∧ Event.sysBootDone.sev < 2 ∧ 2 ≤ Event.hifEstop.sev ∧ hostOpen base = false ∧
    hostOpen ringed = true ∧ evtRingFor none ringed = some 3 ∧ ringUsed 3 ringed < ringSize 3 ringed ∧
    hostOpen ringedFull = true ∧ evtRingFor (some 0) ringedFull = some 3 ∧ ringSize 3 ringedFull ≤ ringUsed 3 ringedFull :=
  ⟨base_kept, by decide +kernel⟩

theorem witness_HostMemoryReadsBack : StateInv base ∧ hostOpen base = false ∧ hostOpen booted = true ∧ [(7 : Byte)][0]? = some 7 ∧
    (0 < 1 ∨ 1 + [(7 : Byte)].length ≤ 0) ∧ (2 < 1 ∨ 1 + [(7 : Byte)].length ≤ 2) := ⟨base_kept, by decide +kernel⟩

/-- Addresses on each side of the clauses: misaligned, the window's first and last place, beside it, a register and no register. -/
theorem witness_RegisterWrite :
    Accepts .host base ∧ Accepts .reeve base ∧ Accepts .monitor base ∧ 1 % 8 ≠ 0 ∧ (0x1000000 % 8 = 0 ∧ 0x1000000 < 0x1080000) ∧ (0x107FFF8 % 8 = 0 ∧ 0x107FFF8 < 0x1080000) ∧
    (0xFFFFF8 % 8 = 0 ∧ 0xFFFFF8 < 0x1000000 ∧ Reg.ofOffset 0xFFFFF8 = none) ∧ (0x1080000 ≤ 0x1080000 ∧ Reg.ofOffset 0x1080000 = none) ∧
    (Reg.hifDbBase.offset % 8 = 0 ∧ Reg.hifDbBase.offset < 0x1000000 ∧ Reg.ofOffset Reg.hifDbBase.offset = some .hifDbBase) ∧
    Reg.hifSumBase.offset ≠ Reg.hifDbBase.offset := by unfold Accepts Runs; decide +kernel

theorem witness_SplitWrite :
    let o := Reg.hifDbBase.offset
    let s : State := { base with hif := { base.hif with latch := some (o, 5) } }
    Accepts .host base ∧ Accepts .host s ∧ Reg.ofOffset (o / 8 * 8) = some .hifDbBase ∧ s.hif.latch = some (o / 8 * 8, 5) ∧
    (s.hif.latch = some (o, 5) ∧ o ≠ Reg.hifSumBase.offset / 8 * 8) ∧ base.hif.latch = none := by unfold Accepts Runs; decide +kernel

/-- One access for each of its three grounds, and window accesses aligned and not, in and out of RECOVERY. -/
theorem witness_OtherAccesses :
    Accepts .host base ∧ (BarAccess.mk false false 0 8 true).toReeve = true ∧ (2 ≠ 4 ∧ 2 ≠ 8) ∧ 4 % 8 ≠ 0 ∧ 8 % 8 = 0 ∧ bootStage base ≠ 6 ∧
    bootStage (setF fSysBootStatusStage .sysBootStatus 6 base) = 6 ∧ Accepts .host (setF fSysBootStatusStage .sysBootStatus 6 base) := by unfold Accepts Runs; decide +kernel

/-- A port whose queue is empty, one with transactions below and at level 15, one after seven grants in a row to level 15, and the memory
of a core that repeats. -/
theorem witness_FabricGrant :
    let t := fun (n q : Nat) => Txn.mk n ⟨.dma, 0, false, 0, 4, []⟩ q
    let k := targetKey .sysSram
    let s := fun n : Nat => setTarget k ⟨[t 1 3, t 2 15, t 3 3], [], n, 0⟩ base
    let u := fun (k : Nat) (s : State) => let a := issueAll ([].foldl (fun s x => arrive k x s) s)
      fillQueue k (targetOf k a).waiting.length a
    let q := fun s : State => targetOf k (u k s)
    let rep := setTarget (targetKey (.stwMem 0)) ⟨[t 1 3], [], 0, 0⟩ (setCore 0 { Core.idle with rep := some 1 } base)
    Runs base ∧ (q base).queue = [] ∧ Runs (s 6) ∧ (q (s 6)).queue = [t 1 3, t 2 15, t 3 3] ∧ portShut .sysSram (u k (s 6)) = false ∧ (q (s 6)).streak < 7 ∧
    7 ≤ (q (s 7)).streak ∧ ((q (s 7)).queue.filter fun x => x.qos ≠ 15) ≠ [] ∧ Runs rep ∧ portShut (.stwMem 0) (u (targetKey (.stwMem 0)) rep) = true := by
  unfold Runs; decide +kernel

/-- A class that drains with nothing outstanding and one that does not drain; the windows' swap asked for and not; no access of the Reeve's. -/
theorem witness_FabricHousekeeping :
    let s : State := setF fReeveCtlRemap .reeveCtl 1 { base with fab := { base.fab with draining := [.dma] } }
    let u := fun s : State => ([] : List ReeveAccess).foldl (fun s x => reeveAccess x s) s
    Runs s ∧ MasterClass.dma ∈ s.fab.draining ∧ outstanding .dma s = false ∧ MasterClass.hostIn ∉ s.fab.draining ∧ storeSorted none s.fab.tokens = true ∧
    getF fReeveCtlRemap .reeveCtl (u s) = 1 ∧ outstanding .reeve (u s) = false ∧ getF fReeveCtlRemap .reeveCtl (u base) = 0 := by unfold Runs; decide +kernel

/-- A port up and one that is not; frames it gets: a good one of 18 bytes and one of 17, one with a wrong FCS; a frame that is neither PTP, ARP nor
neighbour discovery, a PTP message, and an ARP request for the port's address. -/
theorem witness_EthernetFrame :
    let body := List.replicate 14 (0 : Byte)
    let good := fun f : List Byte => 18 ≤ f.length ∧ f.length ≤ 9216 ∧ leAt f (f.length - 4) 4 = crc32 (f.take (f.length - 4))
    let ptp := beBytes 6 0x011B19000000 ++ beBytes 6 1 ++ beBytes 2 0x88F7 ++ beBytes 34 0
    let arp := beBytes 6 0xFFFFFFFFFFFF ++ beBytes 6 1 ++ beBytes 2 0x0806 ++ beBytes 8 0x0001080006040001 ++ beBytes 6 1 ++ beBytes 4 9 ++ beBytes 6 0 ++ beBytes 4 0
    Runs portUp0 ∧ portUp 0 portUp0 = true ∧ Runs base ∧ portUp 0 base = false ∧
    good (body ++ leBytes 4 (crc32 body)) ∧ ¬good (body.drop 1 ++ leBytes 4 (crc32 (body.drop 1))) ∧
    ¬good (body ++ leBytes 4 (crc32 body + 1)) ∧ ethClass body 0 = .other ∧
    ptpOf body = none ∧ arpReply 0 body base = none ∧ neighbourReply 0 body base = none ∧ (ptpOf ptp).isSome ∧
    ptpOf arp = none ∧ (arpReply 0 arp base).isSome := by unfold Runs; decide +kernel

/-! ### Witnesses: ingress, staging, the Mill, Harvest and the chains -/

/-- The clock on port 0 over IEEE 802.3 frames, in a role. -/
def ptpAs (role state : Nat) : State := setF fTimePtpCfgRole .timePtpCfg role (onPtp (fun c => { c with state := state }) portUp0)

theorem witness_PtpTransmit :
    let u := fun role state => ptpExpire (ptpAs role state)
    let up := fun s => portUp (ptpPort s) s
    let c := fun (s : State) => s.time.ptp.state
    Runs (ptpAs 2 1) ∧ (up (u 2 1) = true ∧ ptpRole (u 2 1) = 2 ∧ c (u 2 1) = 1) ∧
    (up (u 1 2) = true ∧ ptpRole (u 1 2) ≠ 0 ∧ c (u 1 2) = 2) ∧ (up (u 2 0) = true ∧ ptpRole (u 2 0) = 2 ∧ c (u 2 0) ≠ 2) ∧
    up (ptpExpire base) = false ∧ ptpRole (u 1 1) ≠ 2 ∧ c (u 2 0) ≠ 1 ∧ c (u 2 2) = 2 ∧ ptpRole (u 0 2) = 0 ∧ c (u 1 1) ≠ 2 := by
  unfold Runs; decide +kernel

/-- A batch of the filling copy and a granule parked for the next, neither marked ready, and both marked; the entries and sets at their bounds. -/
theorem witness_IngressMarks :
    let x : Part := { started with fill := some copy, parked := [⟨0, 256, 0, false, false, [], false⟩] }
    let s := fun x => setPart 0 x base
    let keys := fun (x : Part) (ord : Nat) => (match x.fill with
        | some c => if c.batches.any fun b => b.ord = ord && b.firstAt.isSome then [(x.stage, ord)] else []
        | none => []) ++
      (x.parked.filter fun pk => (pk.ord (x.cfgAt pk.sample)) = ord).map fun pk => (x.stageAt pk.sample, ord)
    let v : BitVec 48 := setFld fIngTableInvalIndex 255 0
    let w := setFld fIngTableInvalTable 1 v
    Runs (s x) ∧ partOf 0 (s x) = x ∧ keys x 0 = [(x.stage, 0)] ∧ keys x 1 = [(x.stage, 1)] ∧ x.readyOrds = [] ∧
    (∀ k ∈ keys { x with readyOrds := [(x.stage, 0)] } 0, k ∈ [(x.stage, 0)]) ∧
    Accepts .host base ∧ (fld fIngTableInvalTable v = 0 ∧ fld fIngTableInvalAll v = 0) ∧
    (fld fIngTableInvalTable (setFld fIngTableInvalAll 1 v) = 0 ∧ fld fIngTableInvalAll (setFld fIngTableInvalAll 1 v) = 1) ∧
    (fld fIngTableInvalTable w = 1 ∧ fld fIngTableInvalAll w = 0 ∧ fld fIngTableInvalIndex w < 256) ∧
    256 ≤ fld fIngTableInvalIndex (setFld fIngTableInvalIndex 256 w) ∧ StateInv (accessed .host base) ∧
    (fld fIngTableInvalTable (setFld fIngTableInvalAll 1 w) = 1 ∧ fld fIngTableInvalAll (setFld fIngTableInvalAll 1 w) = 1) :=
  ⟨by unfold Runs; decide +kernel, by decide +kernel, by decide +kernel, by decide +kernel, by decide +kernel, by decide +kernel,
    by unfold Accepts Runs; decide +kernel, by decide +kernel, by decide +kernel, by decide +kernel, by decide +kernel, base_kept, by decide +kernel⟩

/-- A region that may rotate, one that stops with no copy, and one that waits for its computing copy. -/
theorem witness_RegionRotates :
    let x : Part := { started with fill := some copy }
    let y : Part := { started with stopping := true }
    let full := fun x : Part => ∃ c ∈ x.fill, ∀ b ∈ c.batches, batchReady x c b = true
    Runs base ∧ (x.started = true ∧ x.stopped = false ∧ x.stopping = false ∧ full x ∧ x.comp = none ∧ x.ret = none) ∧
    (y.started = true ∧ y.stopped = false ∧ y.stopping = true ∧ y.fill = none ∧ y.comp = none ∧ y.ret = none) ∧
    ({ x with comp := some copy } : Part).comp = some copy ∧ copy.finished = false := by
  unfold Runs; decide +kernel

/-- A batch to synthesise, with no commit and with one due, a batch that is synthesised, and an ordinal of none. -/
theorem witness_WeightSynthesis :
    let x : Part := { started with fill := some copy }
    let s := setPart 0 x base
    Runs s ∧ (partOf 0 s).fill = some copy ∧ copy.batch 0 = some batch ∧ copy.batch 1 = none ∧ batch.synthesised = false ∧ x.commit = none ∧
    (some (⟨0, 5⟩ : PendingCommit)).any (fun c => decide (c.sC ≤ batch.sub)) = true ∧
    (({ copy with batches := [{ batch with synthesised := true }] } : Copy).batch 0).any (·.synthesised) = true := by unfold Runs; decide +kernel

theorem witness_TornEntryWeighsNothing : delayTorn (2 ^ 128) = true ∧ 2 ^ 31 ≤ (2 ^ 31 : Int).natAbs ∧ 2 ^ 31 ≤ (-2 ^ 31 : Int).natAbs := by
  decide +kernel

theorem witness_MillServes :
    let s := setPart 0 { started with comp := some copy } base
    let idle := setF fSysThermStatusStep .sysThermStatus 2 (hot { s with dep := { s.dep with slot := 7 } })
    Runs s ∧ s.sys.stopped = false ∧ s.dep.paused = false ∧ slotIdle s = false ∧ nextRegion s = some 0 ∧
    Runs idle ∧ idle.sys.stopped = false ∧ idle.dep.paused = false ∧ slotIdle idle = true ∧
    ({ s with dep := { s.dep with paused := true } } : State).dep.paused = true := by unfold Runs; decide +kernel

/-- A piece of the first tile, which is the shadowed one, waits to drain. -/
theorem witness_MillServes_piece :
    let c := { copy with tiles := [(0, ⟨[], none, [(0, 1)]⟩)] }
    let s := setPart 0 { started with comp := some c } base
    Runs s ∧ s.sys.stopped = false ∧ waitingPieces 0 s = [⟨0, c, true, 0, 1⟩] ∧ locate 0 c 0 0 s = some (batch, 0) ∧
    0 = (quadOf 0 (takePiece 0 ⟨0, c, true, 0, 1⟩ s)).shadowed ∧ (quadOf 0 (takePiece 0 ⟨0, c, true, 0, 1⟩ s)).shadow.isSome := by unfold Runs; decide +kernel

/-- A re-run with a referee, and in a quadrant of the two last tiles with none; a window; a tile under test, which is the shadowed one. -/
theorem witness_MillTests :
    let r : Rerun := ⟨0, 1, 0, 0, 0, 0, 1⟩
    let s := setQuad 0 { Quadrant.full with reruns := [r], testing := [0], expired := true } (setPart 0 { started with ret := some copy } base)
    let few : Quadrant := { Quadrant.full with standby := none, inService := [0], shadow := some 33 }
    Runs s ∧ s.sys.stopped = false ∧ s.dep.paused = false ∧ (quadOf 0 s).reruns = [r] ∧ rerunBatch r (countRerun 0 r s) = some batch ∧
    (quadOf 0 s).shadow = some 32 ∧ referee (quadOf 0 s) r.tile = some 33 ∧ referee few 0 = none ∧ few.shadow = some 33 ∧
    0 ∈ (quadOf 0 s).testing ∧ (quadOf 0 s).expired = true ∧ 0 = (quadOf 0 s).shadowed ∧
    (quadOf 0 (setQuad 0 Quadrant.full s)).expired = false ∧ StateInv base := by
  refine ⟨by unfold Runs; decide +kernel, by decide +kernel, by decide +kernel, by decide +kernel, by decide +kernel, by decide +kernel,
    by decide +kernel, by decide +kernel, by decide +kernel, by decide +kernel, by decide +kernel, by decide +kernel, by decide +kernel, base_kept⟩

/-- A region that is done on its deadline, and one a tick late. -/
theorem witness_MillTests_done :
    let c := { copy with tiles := [] }
    let s := setPart 0 { started with comp := some c } { base with tick := 10 }
    let late := { s with tick := 11 }
    Runs s ∧ s.sys.stopped = false ∧ s.dep.paused = false ∧ (partOf 0 s).comp = some c ∧ c.finished = false ∧ c.tiles = [] ∧
    (s.tick : ℚ) ≤ c.deadline ∧ Runs late ∧ (partOf 0 late).comp = some c ∧ c.deadline < (late.tick : ℚ) := by unfold Runs; decide +kernel

/-- A verified batch, a withheld one and the issue buffer's bound. -/
theorem witness_Harvest :
    let b := { batch with verified := [(0, 1), (1, 1)] }
    let x := { started with comp := some { copy with batches := [b] } }
    let s := fun x => setPart 0 x base
    Runs (s x) ∧ (s x).sys.stopped = false ∧ (s x).dep.paused = false ∧ ((partOf 0 (s x)).findClosed 0).map (·.2) = some b ∧
    b.harvested = false ∧ b.withheld = false ∧ 256 ≤ 256 ∧ 256 < 257 ∧ xVerified ((partOf 0 (s x)).cfgOf 1) b = true ∧
    earlierWaits (partOf 0 (s x)) 256 b = false ∧ issueLate 0 (s x) = false ∧
    issueLate 0 { s x with fab := { base.fab with issue := [(0, List.replicate 257 ⟨.harvest, 0, true, 0, 1, []⟩)] } } = true ∧
    ({ b with withheld := true } : Batch).withheld = true := by unfold Runs; decide +kernel

theorem witness_Harvest_sweep :
    let c : ChanState := ⟨0, 1, 1, [], 0, [], 0, false⟩
    let s := setChan 0 0 (some c) (setPart 0 { started with reachedSample := 1048577 } base)
    Runs s ∧ s.sys.stopped = false ∧ sweepDue 0 (0 : Fin 16384).val s = true ∧ chanOf 0 0 s = some c := by unfold Runs; decide +kernel

/-- Inputs that wait for a monitor's instance and for a beam's; entries of DET_RANGE_SET at their last values and beyond. -/
theorem witness_Chains :
    let j : ChainInput := ⟨0, 1, 1023, 0, 0, 0, true, [], ⟨false, false, false, false⟩, [], [0], []⟩
    let m : MonitorInput := ⟨1024, 0, 1, 0, 0, 0, []⟩
    let i : ChainInput := ⟨0, 1, 1023, 0, 0, 0, false, [], ⟨false, false, false, false⟩, [], [0], []⟩
    let s := tabSet 5 0 1087 1 { setPart 0 started base with det := { base.det with monIn := [m], chainIn := [i] } }
    let v := setFld fDetRangeSetRange 47 (setFld fDetRangeSetEntry 1087 (0 : BitVec 48))
    Runs s ∧ (s.det.monIn.find? fun i => i.entry = 1024 && i.chan = 0) = some m ∧
    nextInput 1023 0 0 s = some i ∧ owedEarlier i s = false ∧ s.dep.paused = false ∧ i.missing = false ∧
    (nextInput 1023 0 0 { s with det := { s.det with chainIn := [j] } } = some j ∧ j.missing = true) ∧ Accepts .host s ∧
    (fld fDetRangeSetRange v ≤ 47 ∧ fld fDetRangeSetEntry v ≤ 1087 ∧ (decodeChain (entryNow 5 (fld fDetRangeSetEntry v) s)).valid = true) ∧
    47 < fld fDetRangeSetRange (setFld fDetRangeSetRange 48 v) ∧ 1087 < fld fDetRangeSetEntry (setFld fDetRangeSetEntry 1088 v) ∧
    (decodeChain (entryNow 5 1087 base)).valid = false := by unfold Accepts Runs; decide +kernel

/-! ### Witnesses: trigger and capture -/

/-- A fire at sample 10 and an event that it opened in crib 0, its settle over at tick 1. -/
def fire : Fire := ⟨7, 2560, 1, 1, 0, 0⟩

/-- The event. -/
def event : TrigEvent := ⟨arm, 0, fire, fire, 0, 1, 0, 1, false⟩

/-- An edge whose sample is the ARM_TIME, one before it, one with no source armed, a configuration whose origin is later, and none. -/
theorem witness_TriggerArms :
    let x : RawStamp := ⟨0, 0, 0⟩
    let from' := fun n => { armed with tick := 0, trig := { armed.trig with armed := some { arm with time := n } } }
    let old := from' 5177344
    let late := setPart 0 { started with cfg := { small with originS := 10 } } armed
    Runs late ∧ armedFor 1 (tdcEdge 1 x late) = some arm ∧ capturing (tdcEdge 1 x late) = some kept ∧
    samplePos (partOf 0 (tdcEdge 1 x late)).cfg (stampTime x late) = none ∧
    Runs old ∧ samplePos (partOf 0 (tdcEdge 1 x old)).cfg (stampTime x old) = some 1325400064 ∧ 1325400064 / 256 = 5177344 ∧
    (armedFor 1 (tdcEdge 1 x old)).map (·.time) = some 5177344 ∧ (armedFor 1 (tdcEdge 1 x (from' 5177345))).map (·.time) = some 5177345 ∧
    armedFor 1 (tdcEdge 1 x { old with trig := { old.trig with armed := none } }) = none ∧ capturing (tdcEdge 1 x base) = none ∧
    (partOf 0 (tdcEdge 1 x late)).started = true := by unfold Runs; decide +kernel

/-- ARM_EFFECT: an ARM that disarms, one whose ARM_TIME is the last sample placed but one, one a sample further, and an open event. -/
theorem witness_TriggerArms_effect :
    let s := fun (a : Arm) (e : Option TrigEvent) => { armed with trig := { armed.trig with armPending := [a], event := e } }
    Runs (s arm none) ∧ eventOpen (s arm none) = false ∧ ({ arm with sources := 0 } : Arm).sources = 0 ∧ arm.sources ≠ 0 ∧
    arm.time < (s arm none).trig.placedMax ∧ (s arm none).trig.placedMax ≤ ({ arm with time := 5 } : Arm).time ∧
    eventOpen (s arm (some event)) = true ∧ armed.trig.armPending = [] := by unfold Runs; decide +kernel

/-- Fires at the bounds of the coincidence window: one that is the winner, just inside it, and just before it. -/
theorem witness_Fires :
    let rec1 := setCrib 0 { Crib.free with state := 1 } armed
    let e := { event with opened := { fire with time := 6000 }, winner := { fire with time := 6000 } }
    let done := { e with settled := true }
    let again := { done with arm := { arm with rep := true }, opened := { fire with time := 0 } }
    armed.trig.event = none ∧ capturing rec1 = some kept ∧ cribIn 1 kept rec1 = some 0 ∧ base.trig.event = none ∧ base.trig.capt = none ∧
    freshAfter again { fire with time := 100000 } = true ∧
    done.settled = true ∧ freshAfter done { fire with time := 6000 } = false ∧ e.settled = false ∧
    1903 + e.arm.coinc * 256 < e.opened.time ∧ e.opened.time ≤ 1904 + e.arm.coinc * 256 ∧
    e.winner.rank ≤ ({ fire with time := 6000 } : Fire).rank ∧ ({ fire with time := 1904 } : Fire).rank < e.winner.rank := by decide +kernel

theorem witness_Fires_settle :
    let s := setCrib 0 { Crib.free with state := 3 } { armed with trig := { armed.trig with event := some event } }
    Runs s ∧ s.trig.event = some event ∧ capturing s = some kept ∧ event.crib = (0 : Fin 4).val ∧ event.settled = false ∧
    (cribOf 0 s).state = 3 ∧ event.settleAt ≤ s.tick ∧ ({ s with tick := 0 } : State).tick < event.settleAt ∧ (cribOf 0 armed).state ≠ 3 := by unfold Runs; decide +kernel

/-- A crib with a packet left, a paused reader, and a configuration that waits while a crib is in READOUT and once none is. -/
theorem witness_Capture :
    let s := setCrib 0 { Crib.free with state := 4, pos := 0, packets := 1 } armed
    let d : Desc := ⟨2, 1, 9, [6], true, false⟩
    let wait := fun (s : State) (k : CaptCfg) => { s with trig := { s.trig with accepted := [(9, k)] }, hif := { s.hif with inflight := [d] } }
    Runs s ∧ capturing s = some kept ∧ (cribOf 0 s).state = 4 ∧ throttled s = false ∧ s.sys.stopped = false ∧
    (cribOf 0 s).pos < (cribOf 0 s).packets ∧ throttled (hot s) = true ∧ Runs (hot s) ∧
    (wait s kept).trig.accepted = [(9, kept)] ∧ descOf 9 (wait s kept) = some d ∧ cribBusy (wait s kept) = true ∧
    cribBusy (wait armed kept) = false ∧ kept.enable = true ∧ (partOf kept.part (wait armed kept)).started = true ∧
    (partOf kept.part (wait armed kept)).stopped = false ∧ descOf 9 { wait s kept with hif := base.hif } = none ∧ ({ kept with enable := false } : CaptCfg).enable = false := by unfold Runs; decide +kernel

/-! ### Witnesses: the Bell network -/

/-- A record of a type with nothing else set. -/
def recOf (t : Nat) : List Byte := beBytes 1 t ++ beBytes 31 0

theorem witness_BellRecords :
    Runs base ∧ onLevel 0 base = true ∧ onLevel 1 base = false ∧ recRsvdOk (beBytes 1 1 ++ beBytes 31 1) = false ∧ recType (recOf 2) ≠ 1 ∧
    (∀ t ∈ [1, 2, 3, 4, 5], (recOf t).length = 32 ∧ recRsvdOk (recOf t) = true ∧ recType (recOf t) = t ∧
      recSeen (recOf t) base = false ∧ recSeen (recOf t) (markSeen (recOf t) base) = true) := by unfold Runs; decide +kernel

/-- A role known at epoch 5 with unit 1, and records before, at and after it; a partition that is fence-pending and one that is not. -/
theorem witness_RoleEpochs :
    let k : RoleRec := ⟨5, 1, false, 0⟩
    let s : State := { base with bell := { base.bell with roles := [(1, some k)] } }
    let pend := setF fBellFencePending .bellFence 1 base
    roleKnown 1 s = some k ∧ 4 < k.epoch ∧ k.epoch < 6 ∧ (⟨5, 2, false, 0⟩ : RoleRec).holder ≠ k.holder ∧ (⟨5, 1, true, 0⟩ : RoleRec).vacant ≠ k.vacant ∧
    (⟨6, 0, false, 0⟩ : RoleRec).holder = unitId s ∧ (⟨6, 1, false, 0⟩ : RoleRec).holder ≠ unitId s ∧
    bitOf (getF fBellFencePending .bellFence pend) 0 = true ∧ roleEpoch 0 pend = 0 ∧ (0 : Fin 8).val = 0 ∧ (0 : Fin 8).val ≠ 1 ∧
    bitOf (getF fBellFencePending .bellFence base) 0 = false ∧ roleEpoch 0 base < 1 := by decide +kernel

/-- Symbols of a frame as its sender's line gives them. -/
def bellLine (bs : List Byte) : List Nat := (LineSt.idle.send false 8 bs).1

/-- Headers of 48 bytes with their CRC, by type; one byte short; and a wrong CRC. -/
def header (typ : Nat) : List Byte := withCrc (beBytes 1 (16 * typ) ++ beBytes 47 0)

/-- Symbols with a start marker and without, and what their bytes may be. -/
theorem witness_BellHeaders :
    let bad := fun bs : List Byte => bs.length < 52 ∨ crcGood bs = false
    let r := fun bs => lineReceive 64 (bellLine bs) base
    Runs base ∧ (r (header 1)).1 = some (header 1) ∧ onLevel 0 (r (header 1)).2 = true ∧ onLevel 1 (r (header 1)).2 = false ∧
    (lineReceive 64 [0, 1] base).1 = none ∧ ¬bad (header 1) ∧ beAt (header 1) 0 1 / 16 = 1 ∧ ¬bad (header 2) ∧ beAt (header 2) 0 1 / 16 = 2 ∧
    ¬bad (header 3) ∧ beAt (header 3) 0 1 / 16 = 3 ∧ bad ((header 1).drop 1) ∧ bad (beBytes 52 1) ∧
    isMaster 0 (onRing 0 (fun r => { r with state := 4 }) base) = true ∧ beAt (header 1) 2 2 % 16384 = unitId base := by
  unfold Runs; decide +kernel

/-- A claimant, a master and another unit; claims that it launched and did not, and that rank on either side of the own one; returns. -/
theorem witness_ClaimRanks :
    let own := beBytes 2 0 ++ beBytes 2 (unitId base) ++ beBytes 44 0
    let other := fun k : Nat => beBytes 2 0 ++ beBytes 2 k ++ beBytes 44 0
    let s := fun st => onRing 0 (fun r => { r with state := st, claims := [headerMark own], returns := [(7, 2), (7, 0)] }) base
    let five := setF fBellCfgUnitId .bellCfg 5 base
    let r := (ringSt 0 (s 1)).returns
    beAt own 2 2 % 16384 = unitId base ∧ headerMark own ∉ (ringSt 0 base).claims ∧ headerMark own ∈ (ringSt 0 (s 1)).claims ∧
    (ringSt 0 (s 1)).state = 1 ∧ (ringSt 0 (s 4)).state = 4 ∧ (ringSt 0 base).state ≠ 1 ∧ (ringSt 0 base).state ≠ 4 ∧
    beAt (other (ownKey base + 1)) 2 2 % 16384 ≠ unitId base ∧ claimKey (other 1) < 16384 ∧ claimPrio base = 1 ∧ 16384 ≤ claimKey (other 16385) ∧
    claimKey (other (ownKey five - 1)) < ownKey five ∧ ownKey base ≤ claimKey (other (ownKey base + 1)) ∧
    2 ≤ (r.getD 0 (0, 0)).2 ∧ 8 = ((r.getD 0 (0, 0)).1 + 1) % 2 ^ 40 ∧ (r.getD 1 (0, 0)).2 < 2 ∧ 9 ≠ ((r.getD 0 (0, 0)).1 + 1) % 2 ^ 40 := by
  decide +kernel

/-- A unit of each kind, a level it is not on, and slot bodies good and bad. -/
theorem witness_BellFrames :
    let s := fun st => onRing 0 (fun r => { r with state := st }) base
    let body := withCrc (beBytes 2 5 ++ beBytes 22 0)
    let r := fun bs => lineReceive 64 (bellLine bs) base
    Runs base ∧ onLevel 0 base = true ∧ onLevel 1 base = false ∧ (ringSt 0 base).state ≠ 4 ∧ (ringSt 0 base).state ≠ 1 ∧ (ringSt 0 (s 1)).state = 1 ∧
    (ringSt 0 (s 4)).state = 4 ∧ (r body).1 = some body ∧ onLevel 0 (r body).2 = true ∧ (lineReceive 64 [] base).1 = none ∧
    28 ≤ body.length ∧ crcGood body = true ∧ beAt body 0 2 % 16384 ≠ unitId (r body).2 ∧ (body.drop 1).length < 28 ∧ crcGood (beBytes 28 1) = false := by
  unfold Runs; decide +kernel

theorem witness_BellTimers :
    let member : State := onRing 0 (fun r => { r with state := 4 }) { base with bell := { base.bell with members := [(5, some (9, 1))] } }
    let away : State := { base with bell := { base.bell with eff := setFld fBellCfgIsolateFence 1 (setFld fBellCfgAuth 1 base.bell.eff), isolatedAt := some 1 } }
    let waits := onRing 0 (fun r => { r with state := 2 }) base
    let hit := onRing 0 (fun r => { r with state := 2, collided := true }) base
    Runs base ∧ onLevel 0 base = true ∧ onLevel 1 base = false ∧ (ringSt 0 base).state ≠ 1 ∧ (ringSt 0 base).state ≠ 2 ∧
    (ringSt 0 waits).state = 2 ∧ (ringSt 0 waits).collided = false ∧ (ringSt 0 hit).collided = true ∧ isMaster 0 base = false ∧
    Runs member ∧ storeGet (fun _ => none) member.bell.members (memberKey 0 5) = some (9, 1) ∧ isMaster 0 member = true ∧ memberKey 0 5 ∉ member.bell.dead ∧
    Runs away ∧ fld fBellCfgIsolateFence away.bell.eff = 1 ∧ away.bell.isolatedAt.isSome ∧ fld fBellCfgAuth away.bell.eff = 1 ∧
    fld fBellCfgIsolateFence base.bell.eff ≠ 1 ∧ base.bell.isolatedAt = none ∧ fld fBellCfgAuth base.bell.eff ≠ 1 := by unfold Runs; decide +kernel

/-- BELL_CFG_WRITE with every Bell lane disabled and with one enabled, its identity changed. -/
theorem witness_BellCfgIdentity :
    let off := fun s => (List.range 4).all fun l => !bitOf (getF fLaneBellCfgEn .laneBellCfg s) l && laneState (64 + l) s = 0
    Accepts .host base ∧ StateInv base ∧ (accessed .host base).bell.idConflict = false ∧ off (accessed .host base) = true ∧
    off (setF fLaneBellCfgEn .laneBellCfg 1 base) = false ∧
    fld fBellCfgUnitId (setFld fBellCfgUnitId 3 (regOf .bellCfg base)) ≠ fld fBellCfgUnitId (regOf .bellCfg base) :=
  ⟨by unfold Accepts Runs; decide +kernel, base_kept, by decide +kernel⟩

/-! ### Witnesses: lanes and memory -/

/-- Data lane 0, the one lane of a Viros port, in a state. -/
def lane (st : Nat) : State :=
  setF fLaneStatusState (.laneStatus 0) st (setF fLaneGroupCfgVlanes (.laneGroupCfg 0) 1 (setF fLaneGroupCfgGmode (.laneGroupCfg 0) 6 booted))

/-- A NEG frame of the lane's partner that supports low power. -/
def neg : NegFrame := ⟨1, 0, 1, true⟩

/-- The lane once the partner's NEG frames matched. -/
def met (st : Nat) : State := onLane 0 (fun x => { x with partner := some neg }) (lane st)

theorem witness_LaneBringUp :
    (∀ st ∈ [0, 1, 2, 3], Runs (met st) ∧ laneUsed (laneNo (.data 0)) (met st) = true ∧ laneState 0 (met st) = st) ∧
    (agreedRate 0 neg (met 1)).isSome ∧ (laneOf 0 (met 1)).partner = some neg ∧ 0 < 64 ∧
    0 < laneRate 0 (setRate 0 1 (lane 3)) ∧ laneState 0 (setRate 0 1 (lane 3)) = 3 := by unfold Runs; decide +kernel

theorem witness_LaneBringUp_enter : StateInv base ∧ 4 < 8 ∧ laneState 0 base ≠ 4 ∧ laneState 0 (lane 4) ≠ 0 ∧ 3 ≠ 0 ∧ 3 ≠ 4 :=
  ⟨base_kept, by decide +kernel⟩

/-- Group configurations: Ethernet, a reserved mode, and lane counts on both sides of 1 to 8. -/
theorem witness_LaneConfiguration :
    let v := fun m n : Nat => setFld fLaneGroupCfgGmode m (setFld fLaneGroupCfgVlanes n (0 : BitVec 48))
    StateInv (accessed .host base) ∧ Runs base ∧ groupRefused (v 1 0) = false ∧ groupRefused (v 7 1) = true ∧ groupRefused (v 6 0) = true ∧
    groupRefused (v 6 8) = false ∧ groupRefused (v 6 9) = true := ⟨base_kept, by unfold Runs; decide +kernel⟩

/-- Lane configurations: loopback, its end, a low-power request that the partner supports and one that it does not. -/
theorem witness_LaneConfiguration_lane :
    let loop : BitVec 48 := setFld fLaneCfgLoop 1 0
    let idle : BitVec 48 := setFld fLaneCfgEidle 1 0
    Runs (met 4) ∧ lowPowerOk 0 (accessed .host (met 4)) = true ∧ fld fLaneCfgLoop (loop &&& 0xFFF8) ≠ 0 ∧
    fld fLaneCfgLoop (idle &&& 0xFFF8) = 0 ∧ laneState 0 (setReg (.laneCfg 0) (idle &&& 0xFFF8) (accessed .host (met 7))) = 7 ∧
    lowPowerOk 0 (accessed .host (met 7)) = true ∧
    laneState 0 (setReg (.laneCfg 0) (idle &&& 0xFFF8) (accessed .host (met 4))) ≠ 7 ∧ fld fLaneCfgEidle idle = 1 ∧
    Runs (lane 4) ∧ lowPowerOk 0 (accessed .host (lane 4)) = false ∧
    (let old := regOf (.laneCfg 0) (accessed .host (lane 4))
     let kept := setFld fLaneCfgTxSleep (fld fLaneCfgTxSleep old) (setFld fLaneCfgRxSleep (fld fLaneCfgRxSleep old)
       (setFld fLaneCfgEidle (fld fLaneCfgEidle old) (idle &&& 0xFFF8)))
     fld fLaneCfgLoop kept = 0 ∧ laneState 0 (raise .laneCfgRefused none (arg0 0 0 0) 0 (setReg (.laneCfg 0) kept (accessed .host (lane 4)))) ≠ 7) := by
  unfold Runs; decide +kernel

/-- Symbols of a DATA frame in order and out of order, before and after a NAK, of a CTRL frame, of a frame with a wrong CRC, and none; a frame
not acknowledged. -/
theorem witness_VirosFrames :
    let f := fun kind seq : Nat => linkFrame kind seq 0 false true true []
    let r := fun (bs : List Byte) (n : Bool) =>
      lineReceive 0 (LineSt.idle.send false 8 bs).1 (onPort 0 (fun p => { p with naking := n, unacked := [⟨0, true, true, []⟩] }) (lane 4))
    let next := ((portOf 0 (lane 4)).lastGot + 1) % 4096
    let head := fun kind seq : Nat => beAt (f kind seq) 0 8
    let after := fun (n : Bool) (seq : Nat) => portOf 0 (takeAck 0 0 (bitsOf (head 1 seq) 47 36) (bitOf (head 1 seq) 35) (r (f 1 seq) n).2)
    Runs (lane 4) ∧ (lineReceive 0 [] (lane 4)).1 = none ∧ isViros 0 base = false ∧ laneState 0 (lane 3) < 4 ∧ laneState 0 (lane 7) = 7 ∧
    isViros 0 (r (f 1 next) false).2 = true ∧ laneState 0 (r (f 1 next) false).2 = 4 ∧
    (r [] false).1 = some [] ∧ linkHeader [] = none ∧ (r (f 1 next) false).1 = some (f 1 next) ∧ linkHeader (f 1 next) = some (head 1 next) ∧
    bitsOf (head 1 next) 63 60 = 1 ∧ bitsOf (head 1 next) 59 48 = ((after false next).lastGot + 1) % 4096 ∧
    (r (f 1 (next + 1)) false).1 = some (f 1 (next + 1)) ∧ linkHeader (f 1 (next + 1)) = some (head 1 (next + 1)) ∧
    bitsOf (head 1 (next + 1)) 59 48 ≠ ((after false (next + 1)).lastGot + 1) % 4096 ∧
    (after false (next + 1)).naking = false ∧ (after true (next + 1)).naking = true ∧
    bitsOf (head 2 0) 63 60 = 2 ∧ linkHeader (f 2 0) = some (head 2 0) ∧ (r (f 2 0) false).1 = some (f 2 0) := by unfold Runs; decide +kernel

theorem witness_VirosFrames_timers :
    let s := onPort 0 (fun p => { p with unacked := [⟨0, true, true, []⟩] }) (lane 4)
    Runs s ∧ (0 : Fin 8).val = (0 : Fin 64).val / 8 ∧ isViros 0 s = true ∧ (portOf 0 s).unacked ≠ [] ∧ (1 : Fin 8).val ≠ (0 : Fin 64).val / 8 ∧
    (portOf 0 (lane 4)).unacked = [] ∧ gmode 0 s = 6 ∧ gmode 0 base ≠ 6 := by unfold Runs; decide +kernel

theorem witness_EthernetLink :
    let s := fun b => setF fLaneGroupCfgGmode (.laneGroupCfg 0) 1 (onPort 0 (fun p => { p with ethUp := b }) base)
    Runs (s true) ∧ gmode 0 (s true) ≠ 0 ∧ gmode 0 (s true) < 6 ∧ (portOf 0 (s true)).ethUp = true ∧ (portOf 0 (s false)).ethUp = false ∧
    (s false).sys.standby = false ∧ (s false).sys.exiting = false ∧ ¬(gmode 0 base ≠ 0 ∧ gmode 0 base < 6) ∧ gmode 0 (lane 4) = 6 := by
  unfold Runs; decide +kernel

/-- Layouts that fit and that do not, a partition started, capture in force. -/
theorem witness_MemLayoutWrite :
    let run := setPart 0 { Part.idle with started := true } base
    let v : Payload := regOf .memLayout base
    Accepts .host base ∧ (∀ p, (partOf p (accessed .host base)).started = false) ∧ base.trig.capt = none ∧ armed.trig.capt ≠ none ∧
    layoutOk v (128 - (failedPcs base).length) = true ∧ (∃ p, (partOf p (accessed .host run)).started = true) ∧
    layoutOk 0 (128 - (failedPcs base).length) = false := by unfold Accepts Runs; decide +kernel

/-- A rate kept, the last that the budget admits, and the one beyond. -/
theorem witness_MemAllotWrite :
    let a := accessed .host base
    let old := getF fMemAllotRate (.memAllot 0) a
    let l := planNow a
    let top := old + 235562 - l.rates
    Accepts .host base ∧ max 1 (fld fMemAllotRate (setFld fMemAllotRate old 0 : Payload)) ≤ old ∧ old < top ∧
    max 1 (fld fMemAllotRate (setFld fMemAllotRate (top + 1) 0 : Payload)) = top + 1 ∧
    ({ l with rates := l.rates - old + top } : Plan).hbm a ≤ budget a ∧ budget a < ({ l with rates := l.rates - old + top + 1 } : Plan).hbm a := by
  unfold Accepts Runs; decide +kernel

/-- Bursts at the first and the last address of a pseudo-channel, the oldest in its controller's queue, which may be served, and a younger one
that hits no open row, which may not, on one that works and one that failed, and on a burst that had an error or stands poisoned. -/
theorem witness_HbmAccess :
    let bad := failPc 0 base
    let at' := fun n : Nat => { base with hbm := { base.hbm with ueAt := storeSet (fun _ => 0) [] (burstKey 0 0) n } }
    let r : CtlReq := ⟨0, false, 0, 0⟩
    let q : CtlReq := ⟨8192, false, 0, 0⟩
    let s := setCtlQueue 0 [r, q] base
    Runs base ∧ burstOk 0 = true ∧ burstOk (1152 * 1048576 - 32) = true ∧ (ctlQueue 0 s).find? (fun r => r.addr = 0 && r.write = false) = some r ∧
    (ctlQueue 0 s).find? (fun r => r.addr = 8192 && r.write = false) = some q ∧ r ∈ serveNext 0 s ∧ q ∉ serveNext 0 s ∧ ctlQueue 0 base = [] ∧
    pcFailed 0 base = false ∧ Runs bad ∧ pcFailed 0 bad = true ∧ burstKey 0 0 ∉ base.hbm.poisoned ∧ ([3, 4] : List (Fin 36)).dedup.length = 2 ∧
    burstKey 0 0 ∈ ({ base.hbm with poisoned := [burstKey 0 0] } : Hbm).poisoned ∧
    storeGet (fun _ => 0) base.hbm.ueAt (burstKey 0 0) ≠ 2 ∧ storeGet (fun _ => 0) base.hbm.ueAt (burstKey 0 0) ≠ 1 ∧
    storeGet (fun _ => 0) (at' 1).hbm.ueAt (burstKey 0 0) = 1 := by unfold Runs; decide +kernel

theorem witness_PseudoChannelFails : StateInv base ∧ pcFailed 0 base = false ∧ pcFailed 0 (failPc 0 base) = true := ⟨base_kept, by decide +kernel⟩

/-- Refreshes owed on both sides of eight, a level-15 transaction that waits and none, and a scrubber before its last burst. -/
theorem witness_RefreshAndScrub :
    let s := { base with hbm := { base.hbm with postponed := [(0, 7), (1, 8)] } }
    let wait := setCtlQueue 0 [⟨0, false, 15, 0⟩] s
    let still := { base with sys := { base.sys with standby := true } }
    Runs s ∧ s.sys.standby = false ∧ s.hbm.powered = true ∧ storeGet (fun _ => 0) s.hbm.postponed 0 < 8 ∧ 8 ≤ storeGet (fun _ => 0) s.hbm.postponed 1 ∧
    level15Waits 0 base = false ∧ 0 ∉ s.hbm.retired ∧ pcFailed 0 s = false ∧ burstKey 0 0 ∉ s.hbm.poisoned ∧
    storeGet (fun _ => 0) s.hbm.scrubAt 0 + 32 < 1152 * 1048576 ∧ Runs still ∧ still.sys.standby = true ∧ level15Waits 0 wait = true := by
  unfold Runs; decide +kernel

/-! ### Witnesses: time -/

/-- Device time taken from a source: 0 Bell, 1 PPS, 2 PTP, 3 HOST. -/
def sourced (n : Nat) : State := setF fTimeCtlSource .timeCtl n base

theorem witness_TimeNowAndRate :
    StateInv base ∧ Accepts .host base ∧ storeSorted none (accessed .host base).time.latches = true ∧ timeSource (accessed .host (sourced 3)) = 3 ∧
    timeSource (accessed .host (sourced 1)) ≠ 3 ∧ signedOf 32 (fld fTimeRateAdj (setFld fTimeRateAdj (2 ^ 32 - 10737419) 0 : Payload)) < -10737418 ∧
    signedOf 32 (fld fTimeRateAdj (setFld fTimeRateAdj (2 ^ 32 - 10737418) 0 : Payload)) = -10737418 ∧
    signedOf 32 (fld fTimeRateAdj (setFld fTimeRateAdj 10737418 0 : Payload)) = 10737418 ∧
    10737418 < signedOf 32 (fld fTimeRateAdj (setFld fTimeRateAdj 10737419 0 : Payload)) :=
  ⟨base_kept, by unfold Accepts Runs; decide +kernel⟩

/-- Slews on both sides of a step's bounds; steps with NS at 10^9 less one and at 10^9, taken and refused. -/
theorem witness_TimeChanges :
    let v : Payload := setFld fTimeCtlStep 1 (setFld fTimeCtlSource 3 0)
    let s := fun ns : Nat => setF fTimeSetNsNs .timeSetNs ns (sourced 3)
    let after := fun (ns : Nat) => let a := accessed .host (s ns)
      let b := setF fTimeCtlSource .timeCtl (fld fTimeCtlSource v) (setF fTimeCtlTqReq .timeCtl (fld fTimeCtlTqReq v) a)
      updateTimeq (setF fTimeCtlStepAtPps .timeCtl (fld fTimeCtlStepAtPps v) (setF fTimeCtlTauLog2 .timeCtl (min 10 (fld fTimeCtlTauLog2 v))
        { b with time := { b.time with ppsLocked := false } }))
    getF fTimeCtlStep .timeCtl base = 0 ∧ base.time.holdover = false ∧ (1073741 : Int).natAbs ≤ 1073741 ∧ (1073741 : Int) < 1073742 ∧
    (-1073742 : Int) < -1073741 ∧ Accepts .host (s 0) ∧ fld fTimeCtlStep (0 : Payload) = 0 ∧ timeSource (accessed .host (sourced 3)) = 3 ∧ timeSource (accessed .host (sourced 1)) ≠ 3 ∧
    fld fTimeCtlStep v = 1 ∧ timeRefused .host (after 999999999) = false ∧ getF fTimeSetNsNs .timeSetNs (after 999999999) < 1000000000 ∧
    1000000000 ≤ getF fTimeSetNsNs .timeSetNs (after 1000000000) ∧ timeRefused .host (after 1000000000) = false ∧
    timeRefused .host (setF fTimeCtlSource .timeCtl 1 (after 0)) = true := by unfold Accepts Runs; decide +kernel

theorem witness_TimeChanges_load :
    let s := setF fTimeCtlStep .timeCtl 1 base
    StateInv s ∧ getF fTimeSetNsNs .timeSetNs s < 1000000000 ∧ getF fTimeCtlStep .timeCtl s = 1 ∧ getF fTimeCtlStepAtPps .timeCtl s = 0 ∧
    s.time.holdover = false :=
  ⟨⟨⟨by decide +kernel, rfl, rfl, rfl, rfl, rfl, rfl, rfl, rfl, rfl⟩, ⟨rfl, rfl, rfl⟩, State.reset_cores, by decide +kernel, by decide +kernel⟩,
    by decide +kernel⟩

/-- An edge with none before it, one half a second after the last and one just within; one beyond a locked window; and a step that waits for it. -/
theorem witness_TimeSources :
    let x : RawStamp := ⟨0, 0, 0⟩
    let acc := fun s : State =>
      let t := tdcEdge 0 x s
      let v := (rawValue s.time.bins x).toNat
      let th := offSecond (stampTime x s - signedOf 32 (getF fTimePpsCfgDelay .timePpsCfg t) * 2 ^ 32 / 1000)
      (∀ l ∈ t.time.ppsLast, 128000000000000 ≤ (v + 2 ^ 48 * 160000 - l) % (2 ^ 48 * 160000)) ∧
        (t.time.ppsLocked = false ∨ (th.natAbs : Nat) ≤ max 1 (getF fTimePpsCfgWin .timePpsCfg t) * 1000 * 2 ^ 32)
    let s := sourced 1
    let after := fun n : Nat => { s with time := { s.time with ppsLast := some ((rawValue s.time.bins x).toNat + 2 ^ 48 * 160000 - n) } }
    Runs s ∧ acc s ∧ acc (after 128000000000000) ∧ ¬acc (after 127999999999999) ∧
    ¬acc { s with time := { s.time with ppsLocked := true, sub := secUnits / 2 } } ∧ timeSource (tdcEdge 0 x s) = 1 ∧
    ¬(getF fTimeCtlStep .timeCtl (tdcEdge 0 x s) = 1) ∧ timeSource (tdcEdge 0 x (sourced 3)) ≠ 1 ∧ acc (sourced 3) ∧
    (let w := tdcEdge 0 x (setF fTimeCtlStep .timeCtl 1 (setF fTimeCtlStepAtPps .timeCtl 1 s))
     getF fTimeCtlStep .timeCtl w = 1 ∧ getF fTimeCtlStepAtPps .timeCtl w = 1) ∧
    timeSource s ≠ 3 ∧ s.time.holdover = false ∧ timeSource (sourced 3) = 3 := by unfold Runs; decide +kernel

theorem witness_TimeSources_out :
    let s := setF fTimePpsCfgOutEn .timePpsCfg 1 (setF fTimePpsCfgOutGate .timePpsCfg 0 (setF fSysBootStatusStage .sysBootStatus 4 base))
    Runs s ∧ pinsLive s = true ∧ pinsLive base = false ∧ getF fTimePpsCfgOutEn .timePpsCfg s = 1 ∧ getF fTimePpsCfgOutGate .timePpsCfg s = 0 ∧
    getF fTimePpsCfgOutEn .timePpsCfg (setF fTimePpsCfgOutEn .timePpsCfg 0 base) = 0 ∧
    getF fTimePpsCfgOutGate .timePpsCfg (setF fTimePpsCfgOutGate .timePpsCfg 1 base) = 1 ∧ base.hif.timeq = true := by unfold Runs; decide +kernel

/-- Offsets a unit beyond TOL and a unit within TOL less HYST, at the gate that decides and one before it. -/
theorem witness_References :
    let d := getF fTimeRefCfgDwell .timeRefCfg base
    let n := getF fTimeRefCfgReturn .timeRefCfg base
    let y : Int := (refTol base).1 + 1
    let z : Int := ((refTol base).2 : Int) - 1
    let on := setF fTimeRefCfgEnA .timeRefCfg 1 { base with time := { base.time with refA := ⟨3, 0, 0, 0⟩, pll := 1 } }
    Runs base ∧ 1 ≤ d ∧ 1 ≤ n ∧ (refTol base).1 < y.natAbs ∧ d ≤ (⟨3, d - 1, 0, 0⟩ : RefMon).beyond + 1 ∧ z.natAbs < (refTol base).2 ∧
    (refTol base).2 ≤ (refTol base).1 ∧ n ≤ (⟨2, 0, n - 1, 0⟩ : RefMon).good + 1 ∧
    Runs on ∧ getF fTimeRefCfgEnA .timeRefCfg on = 1 ∧ 2 ≤ on.time.refA.qual ∧ getF fTimeRefCfgRevert .timeRefCfg on = 0 ∧ on.time.pll = 1 ∧
    (⟨3, 0, 0, 0⟩ : RefMon).qual = 3 ∧ (⟨2, 0, 0, 0⟩ : RefMon).qual ≠ 3 ∧ on.time.refA.qual ≠ 0 ∧
    (let b := setF fTimeRefCfgEnB .timeRefCfg 1 { base with time := { base.time with refB := ⟨2, 0, 0, 0⟩, pll := 2 } }
     getF fTimeRefCfgEnB .timeRefCfg b = 1 ∧ 2 ≤ b.time.refB.qual ∧ b.time.refB.qual ≠ 0 ∧ b.time.pll = 2) := by
  unfold Runs; decide +kernel

/-- SUSPECT after the first of several gates: DWELL above 1. -/
theorem witness_References_suspect :
    let s := setF fTimeRefCfgDwell .timeRefCfg 2 base
    1 ≤ getF fTimeRefCfgDwell .timeRefCfg s ∧ 1 ≤ getF fTimeRefCfgReturn .timeRefCfg s ∧
    (⟨3, 0, 0, 0⟩ : RefMon).beyond + 1 < getF fTimeRefCfgDwell .timeRefCfg s := by decide +kernel

/-- Calibrations whose hits fill every bin alike, all but the first, and one bin beyond 2,500 units; a measurement of one sample that the edges
given complete, and one that they do not; the requests. -/
theorem witness_TdcEngine :
    let s : State := { base with time := { base.time with calBusy := true } }
    let m := fun (n : Nat) (c : Bool) => { base with time := { base.time with busy := true, calPending := c, engine := ⟨n, [], 0, none⟩ } }
    let all := List.replicate 256 4096
    let some' := 0 :: 8192 :: List.replicate 254 4096
    let wide := 1044480 :: 1 :: (List.replicate 253 16 ++ [47])
    let ctl := fun f : Fld => (setFld f 1 0 : Payload)
    let mode := fun n : Nat => getF fTimeTdcCtlMode .timeTdcCtl (setF fTimeTdcCtlMode .timeTdcCtl n base)
    (Runs s ∧ barred .host s = false ∧ fits (.tdcCalDone all) s = true ∧ s.time.calBusy = true ∧ base.time.calBusy = false ∧ (∀ n ∈ all, n ≠ 0) ∧
      (∀ b ∈ binWidths all (2 ^ 20), b ≤ 2500)) ∧
    (fits (.tdcCalDone some') s = true ∧ 0 ∈ some' ∧ fits (.tdcCalDone wide) s = true ∧ ∃ b ∈ binWidths wide (2 ^ 20), 2500 < b) ∧
    ((m 1 false).time.busy = true ∧ getF fTimeTdcCtlCountM1 .timeTdcCtl (m 1 false) + 1 ≤ (m 1 false).time.engine.taken ∧
      ¬(getF fTimeTdcCtlCountM1 .timeTdcCtl (m 0 false) + 1 ≤ (m 0 false).time.engine.taken) ∧
      (m 1 false).time.calPending = false ∧ (m 1 true).time.calPending = true) ∧
    fld fTimeTdcCtlCal (ctl fTimeTdcCtlCal) = 1 ∧ fld fTimeTdcCtlGo (ctl fTimeTdcCtlCal) = 0 ∧ base.time.busy = false ∧
    fld fTimeTdcCtlGo (ctl fTimeTdcCtlGo) = 1 ∧ fld fTimeTdcCtlCal (ctl fTimeTdcCtlGo) = 0 ∧ mode 1 < 2 ∧ 2 ≤ mode 2 := by
  unfold Runs; decide +kernel

/-- A queue of 255 entries and one of 256. -/
theorem witness_TimestampQueue :
    let s := fun n : Nat => { base with time := { base.time with tsq := List.replicate n ⟨0, 0, 0, 0, 0, 0⟩ } }
    Accepts .host base ∧ (s 255).time.tsq.length < 256 ∧ 256 ≤ (s 256).time.tsq.length ∧ fld fTimeTsqPopPop (setFld fTimeTsqPopPop 1 0 : Payload) = 1 ∧
    fld fTimeTsqCfgClrDrops (setFld fTimeTsqCfgClrDrops 1 0 : Payload) = 1 := by unfold Accepts Runs; decide +kernel

/-! ### Witnesses: rings and descriptors -/

/-- Ring 2 is enabled, ring 4 is not; what is written enables it well, with LOG2 = 3, and changes nothing, LOG2 or EN of ring 2. -/
theorem witness_Rings :
    let a := accessed .host ringed
    let w := fun v : Payload => v &&& BitVec.ofNat 48 0xFFFFFFFFFF80
    let good : Payload := setFld fRingCfgEn 1 (setFld fRingCfgType 1 (setFld fRingCfgLog2 16 0))
    let old := regOf (.ringCfg 2) a
    Accepts .host ringed ∧ fld fRingCfgEn old = 1 ∧ fld fRingCfgEn (w (setFld fRingCfgLog2 5 old)) = 1 ∧ setFld fRingCfgEn 1 (w (setFld fRingCfgLog2 5 old)) ≠ old ∧
    fld fRingCfgEn (w (setFld fRingCfgEn 0 old)) = 0 ∧ setFld fRingCfgEn 1 (w (setFld fRingCfgEn 0 old)) = old ∧
    fld fRingCfgEn (regOf (.ringCfg 4) a) = 0 ∧ fld fRingCfgEn (w good) = 1 ∧ ringEnableBad (w good) a = false ∧
    ringEnableBad (w (setFld fRingCfgLog2 3 good)) a = true ∧ ringEnableBad (w (setFld fRingCfgLog2 17 good)) a = true := by unfold Accepts Runs; decide +kernel

theorem witness_Rings_poll :
    let s := fun scan : Nat => setF fHifPollEn .hifPoll 1 (setF fHifPollScan .hifPoll scan ringed)
    Runs (s 1) ∧ mayPoll base = false ∧ Runs base ∧ mayPoll (s 1) = true ∧ getF fHifPollScan .hifPoll (s 1) = 1 ∧ mayPoll (s 0) = true ∧
    getF fHifPollScan .hifPoll (s 0) = 0 ∧ barred .host (s 0) = false ∧ bootStage (accessed .host booted) = 4 := by unfold Runs; decide +kernel

/-- Doorbells at the last INDEX of their windows and one past it, for a SUB ring at 0 and an EVT ring at 16. -/
theorem witness_DoorbellWindows :
    let s := setF fRingIdxIdx (.ringIdx 3) 16 ringed
    let at' := fun (n : Fin 16384) (x : Nat) => hostWrite ((regOf .hifDbBase s).toNat * 4096 + 8 * n.val) (leBytes 4 x) s
    let x := fun (n : Fin 16384) (i : Nat) => leAt (hostRead ((regOf .hifDbBase s).toNat * 4096 + 8 * n.val) 4 (at' n i)) 0 4
    ringF fRingCfgEn 5 s = 0 ∧ ringF fRingCfgEn 2 s ≠ 0 ∧ ringF fRingCfgType 2 s = 0 ∧ x 2 16 + 2 ^ 32 - ringIdx 2 (at' 2 16) = 2 ^ 32 + 16 ∧
    ringSize 2 s = 16 ∧ x 2 17 = 17 ∧ ringF fRingCfgType 3 s ≠ 0 ∧ ringIdx 3 s + 2 ^ 32 - x 3 0 = 2 ^ 32 + 16 ∧
    x 3 (2 ^ 32 - 1) = 2 ^ 32 - 1 := by decide +kernel

/-- A descriptor to fetch, its tag free and in flight. -/
theorem witness_DescriptorFetch :
    let s := setRingCtx 2 ⟨1, 0, 0, 0, none⟩ ringed
    let d : Desc := ⟨2, 1, 0, [0, 0, 0, 0, 0, 0, 0, 0], false, false⟩
    let t : State := { s with hif := { s.hif with inflight := [d] } }
    Runs s ∧ bootStage s = 4 ∧ s.sys.reeveRuns = true ∧ hostOpen s = true ∧ s.hif.inflight.length < 131072 ∧ nextRing s = some 2 ∧
    (∀ e ∈ s.hif.inflight, e.tag ≠ d.tag) ∧ nextRing t = some 2 ∧ (∃ e ∈ t.hif.inflight, e.tag = d.tag) ∧
    opcodeDefined d.opcode = true ∧ rsvdSet d = false := by unfold Runs; decide +kernel

theorem witness_LowestCode : firstFail [chk true 3, chk true 2, chk false 1] = some (chk true 2) ∧ firstFail [chk false 1] = none := by
  decide +kernel

/-! ### Witnesses: the descriptors that run, and the link -/

/-- A descriptor of ring 2, tag 0x123, with an opcode, further bits of its header, and its body. -/
def desc (op head : Nat) (body : List Nat) : Desc := ⟨2, 1, 0x123, ([op + head + 0x123 * 65536] ++ body ++ List.replicate 8 0).take 8, false, false⟩

/-- It is in flight. -/
def flown (d : Desc) (s : State) : State := { s with hif := { s.hif with inflight := [d] } }

/-- The partition runs, capture is configured and the trigger armed, route 0 is the link's, and the host sets the time. -/
def ready : State :=
  let s := setF fTimeCtlSource .timeCtl 3 (setPart 0 started (tabSet 7 0 0 (2 ^ 227 + 2 ^ 224 + 1500 * 2 ^ 208) ringed))
  { s with trig := { s.trig with capt := some kept, armed := some arm, placedMax := 5 }, hif := { s.hif with rate := .gt64, width := .x16 } }

/-- It may begin, and its checks decide as they should: none fails, or RSVD_NONZERO where bit 11 of its header is set. -/
def decides (op : Nat) (body : List Nat) (own : Desc → State → List Check) (s : State) : Bool :=
  [(0, none), (2 ^ 11, some 0x11)].all fun x =>
    let d := desc op x.1 body
    let s := flown d s
    descOf 0x123 s = some d && mayBegin d s && d.opcode = op && d.tag = 0x123 && (firstFail (headChecks d (markBegun d s) ++ own d (markBegun d s))).map (·.code) = x.2

/-- The body of START and CONFIGURE of the small partition. -/
def smallBody : List Nat := [0, 1 + 256 * 2 ^ 18, 1000 + 2 ^ 32, 2 ^ 14, 0, 0, 1]

theorem witness_DescriptorsRun_partitions :
    Runs (flown (desc 0 0 []) ready) ∧ decodeCfg (desc 1 0 smallBody) = small ∧ decides 0x00 [] (fun _ _ => []) ready = true ∧
    decides 0x01 smallBody startChecks (setPart 0 Part.idle { ready with trig := State.reset.trig }) = true ∧ decides 0x02 smallBody configureChecks ready = true ∧
    decides 0x03 [] (fun d b => [chk (!(partOf d.part b).started) 0x30]) ready = true ∧
    decides 0x04 [7 * 2 ^ 56, 2 ^ 32, 0, 64] (tableWriteChecks true) ready = true ∧
    decides 0x05 [] (fun d b => [chk (partOf d.part b).commit.isSome 0x31]) ready = true ∧
    decides 0x06 [1 + 2 * 2 ^ 4 + 2 ^ 20 + 2 ^ 35] captureChecks { ready with trig := { ready.trig with capt := none } } = true := by
  unfold Runs; decide +kernel

/-- BANK_COMMIT late and in time. -/
theorem witness_DescriptorsRun_late :
    let late := fun n : Nat => decide (n < (commitBank 0 n 0 { ready with beam := { ready.beam with reads := [(0, [(4, 256)])] } }).1)
    late 4 = true ∧ late 5 = false := by decide +kernel

theorem witness_DescriptorsRun_device :
    decides 0x07 [7 + 7 * 2 ^ 17, 4, 16 * 2 ^ 32] (fun d b => chk ((decodeArm d).scope && b.bell.role0.isNone) 0x32 :: armChecks (decodeArm d) b) ready = true ∧
    decides 0x08 [7, 10] (fun d b => [chk (hostArm d b).isNone 0x33]) ready = true ∧
    decides 0x09 [1, 2 ^ 32, 0, 256] statsChecks ready = true ∧ decides 0x0A [] (fun _ _ => []) ready = true ∧
    decides 0x0B [] (fun d b => [chk (match roleKnown (bitsOf (d.qw 1) 15 0) b with | some k => bitsOf (d.qw 1) 47 16 ≤ k.epoch | none => false) 0x36,
      chk (fld fBellCfgAuth b.bell.eff = 0) 0x37]) { ready with bell := { ready.bell with eff := setFld fBellCfgAuth 1 0 } } = true ∧
    decides 0x0C [] (fun _ b => [chk (timeSource b ≠ 3) 0x3A]) ready = true ∧
    decides 0x0D [0, 0, 65536] (fun d b => [chk (!loadFits d) 0x13, chk (coreOf (descCore d) b).active 0x38]) ready = true ∧
    loadFits (desc 0x0D 0 [0, 0, 65540]) = false ∧
    decides 0x0E [7] (fun d b => [chk (coreOf (descCore d) b).active 0x38]) ready = true ∧ decides 0x0F [] (fun _ _ => []) ready = true ∧
    decides 0x10 [0, 0, 4096] (fwChecks true) ready = true ∧ decides 0x11 [] (fun _ _ => []) ready = true ∧
    (desc 0x12 0 []).opcode = 0x12 := by unfold decides; decide +kernel

/-- QUIET, an orphan, the link down and the ring disabled; and a completion that is written. -/
theorem witness_Completions :
    let d := desc 0 0 []
    StateInv base ∧ base.sys.exiting = false ∧ (desc 0 (2 ^ 9) []).quiet = true ∧ ({ d with orphan := true } : Desc).orphan = true ∧
    hostOpen base = false ∧ ringF fRingCfgEn 7 base = 0 ∧ d.quiet = false ∧ d.orphan = false ∧ hostOpen ringed = true ∧
    ringF fRingCfgEn 1 ringed ≠ 0 ∧ ringF fRingCfgType 1 ringed = 1 ∧ ringF fRingCfgType 2 ringed ≠ 1 ∧ waitsForExit d 0 ringed = false ∧ d.waits ringed = false ∧
    d.waits { ringed with hif := { ringed.hif with waiting := [⟨d, 0, 0, 0⟩] } } = true ∧
    waitsForExit d 0 { ringed with sys := { ringed.sys with reeveRuns := false } } = true ∧
    (let out := { ringed with sys := { ringed.sys with exiting := true } }
     waitsForExit (desc 1 0 []) 0 out = true ∧ waitsForExit (desc 6 0 [1]) 0 out = true ∧ waitsForExit (desc 6 0 [0]) 0 out = false) :=
  ⟨base_kept, by decide +kernel⟩

theorem witness_PcieAndAttention :
    let off := { base with sys := { base.sys with standby := true, standbyByD3 := true } }
    let s := { booted with hif := { booted.hif with irqDeferred := [2047] } }
    Runs base ∧ isIdle base = true ∧ isIdle (setPart 0 started base) = false ∧ Runs off ∧ off.sys.standbyByD3 = true ∧ off.sys.standby = true ∧
    base.sys.standbyByD3 = false ∧ ({ off with sys := { off.sys with standby := false } } : State).sys.standby = false ∧ barred .host base = false ∧
    ¬((2047 : BitVec 11).toNat ∈ base.hif.irqDeferred ∧ hostOpen base = true ∧ irqGap (2047 : BitVec 11).toNat base = false) ∧
    (let v : Payload := setFld fHifAttnClrWithheld 1 0
     fld fHifAttnClrWithheld v = 1 ∧ fld fHifAttnClrSev v = 0) ∧
    (let v : Payload := setFld fHifAttnClrSev 1 0
     fld fHifAttnClrSev v = 1 ∧ fld fHifAttnClrWithheld v = 0) ∧ Runs s ∧ bootStage s = 4 ∧ s.sys.reeveRuns = true ∧ bootStage base ≠ 4 ∧
    (2047 : BitVec 11).toNat ∈ s.hif.irqDeferred ∧ hostOpen s = true ∧ irqGap (2047 : BitVec 11).toNat s = false ∧ fld fHifEstopKey (setFld fHifEstopKey 0x53544F50 0 : Payload) = 0x53544F50 ∧
    fld fHifEstopKey (setFld fHifEstopKey 0x53544F51 0 : Payload) ≠ 0x53544F50 ∧ (accessed .host base).sys.stopped = false := by
  unfold Runs; decide +kernel

/-! ### Witnesses: the device -/

/-- No commit, and one due at and before the first sub-integration whose batches are not all read. -/
theorem witness_BankCommitApplies :
    let s := fun c => setPart 0 { started with commit := c } base
    Runs (s none) ∧ (partOf 0 (s none)).commit = none ∧ (partOf 0 (s (some ⟨1, 5⟩))).commit = some ⟨1, 5⟩ ∧ firstUnread 0 (s (some ⟨1, 5⟩)) < 1 ∧
    (partOf 0 (s (some ⟨0, 5⟩))).commit = some ⟨0, 5⟩ ∧ 0 ≤ firstUnread 0 (s (some ⟨0, 5⟩)) := by unfold Runs; decide +kernel

theorem witness_DeviceFaults :
    let two := fun n : Nat => { base with tick := n, dep := { base.dep with mismatchAt := some 1 } }
    Runs base ∧ base.sys.stopped = false ∧ (stopDevice base).sys.stopped = true ∧ gmode (0 : Fin 8).val base = 0 ∧ gmode (0 : Fin 8).val portUp0 ≠ 0 ∧
    Runs portUp0 ∧ (∀ x, base.dep.mismatchAt = some x → x + 4000000000 ≤ base.tick) ∧ Runs (two 4000000000) ∧
    (two 4000000000).dep.mismatchAt = some 1 ∧ (two 4000000000).tick < 1 + 4000000000 ∧ (∀ x, (two 4000000001).dep.mismatchAt = some x → x + 4000000000 ≤ (two 4000000001).tick) ∧
    base.sys.reeveRuns = true ∧ ({ base with sys := { base.sys with reeveRuns := false } } : State).sys.reeveRuns = false := by unfold Runs; decide +kernel

theorem witness_DeviceFaults_lockstep : ∃ t, Machine.exec (.reeveLockstep true) base = .next t := ⟨_, rfl⟩

/-- Readings inside every window, a supply below its window, and one beyond its limit. -/
theorem witness_VoltageScanOutage :
    let good : List Int := [7500, 8000, 11000, 4000, 7500, 12000, 18000]
    let low := good.set 0 (7274)
    let high := good.set 0 (9001)
    let out := fun l : List Int => l.zipIdx.filter fun r => railOut railWindow r.2 r.1
    let beyond := fun l : List Int => l.zipIdx.filter fun r => railOut railLimit r.2 r.1
    Runs base ∧ good.length = 7 ∧ out good = [] ∧ beyond good = [] ∧ out base.dep.rails = [] ∧ out ({ base with dep := { base.dep with rails := low } } : State).dep.rails ≠ [] ∧ base.dep.voltageLow = false ∧
    low.length = 7 ∧ out low ≠ [] ∧ beyond low = [] ∧ high.length = 7 ∧ beyond high ≠ [] := by unfold Runs; decide +kernel

theorem witness_VoltageScanOutage_pause :
    let s := fun n : Nat => { base with tick := n, dep := { base.dep with paused := true, railsAt := 1 } }
    Runs (s 800001) ∧ (s 800001).dep.paused = true ∧ (∀ r ∈ (s 800001).dep.rails.zipIdx, railOut railWindow r.2 r.1 = false) ∧
    (s 800001).dep.railsAt + 800000 ≤ (s 800001).tick ∧ Runs (s 800000) ∧ (s 800000).tick < (s 800000).dep.railsAt + 800000 ∧ base.dep.paused = false ∧
    base.sys.reeveRuns = true ∧ ({ base with sys := { base.sys with reeveRuns := false } } : State).sys.reeveRuns = false := by unfold Runs; decide +kernel

theorem witness_VoltageScanOutage_power :
    let out := fun s : State => (List.finRange 8).filter fun p => (partOf p s).started && (s.sys.stopped || p.val ∈ s.dep.outage)
    let s := setPart 0 started { base with dep := { base.dep with outage := [0] } }
    let firmware := setF fSysBootStatusStage .sysBootStatus 3 base
    Runs s ∧ out s ≠ [] ∧ out base = [] ∧ bootStage base < 3 ∧ Runs firmware ∧ 3 ≤ bootStage firmware ∧ firmware.sys.pwrWarned = false ∧
    firmware.led.readOnly = false ∧ ({ firmware with sys := { firmware.sys with pwrWarned := true } } : State).sys.pwrWarned = true := by
  unfold Runs; decide +kernel

theorem witness_DeviceResets :
    let s := { base with sys := { base.sys with resetDue := some 1 } }
    StateInv base ∧ barred .host base = false ∧ base.sys.resetDue = none ∧ fld fSysResetKey (setFld fSysResetKey 0x52535421 0 : Payload) = 0x52535421 ∧
    fld fSysResetKey (setFld fSysResetKey 0x52535422 0 : Payload) ≠ 0x52535421 ∧ Runs s ∧ s.sys.resetDue = some 1 ∧ 1 ≤ s.tick ∧
    ({ s with tick := 0 } : State).tick < 1 ∧ 3 < 4 := ⟨base_kept, by unfold Runs; decide +kernel⟩

/-- The stages of boot; a sample a sixteenth of a degree below 97 and at 97; no valid bank and one; a slot without an image. -/
theorem witness_BootAndLedger :
    let at' := fun n : Nat => setF fSysBootStatusStage .sysBootStatus n base
    let void := { at' 1 with led := { base.led with banks := [] } }
    StateInv base ∧ Runs base ∧ bootStage base = 0 ∧ (1551 : Int) < 97 * 16 ∧ (97 : Int) * 16 ≤ 1552 ∧ bootStage (at' 1) = 1 ∧ Runs (at' 1) ∧
    bootStage void = 1 ∧ bootBank void = none ∧ bootBank (at' 1) ≠ none ∧ bootStage (at' 2) = 2 ∧ (at' 2).sys.bufferedImage = false ∧
    ¬((at' 2).sys.bufferedImage = true ∧ imageFault (recoveryByte (at' 2)) (at' 2) = 0) ∧ bootStage base ≠ 1 ∧ bootStage base ≠ 2 ∧ bootStage base ≠ 3 ∧ bootStage (at' 3) = 3 := by
  intro at' void; refine ⟨base_kept, ?_⟩; unfold Runs; decide +kernel

/-- The flash idle, an operation in it, first and again; events ten seconds old and 64 young ones, and 63 a tick younger. -/
theorem witness_BootAndLedger_journal :
    let e : LogEvent := ⟨0, none, 0, 0, 0⟩
    let s := fun (n since now : Nat) => { base with tick := now, led := { base.led with events := List.replicate n e, oldestAt := some since } }
    let due := fun s : State => (s.led.oldestAt.any fun t => t + 4000000000 ≤ s.tick) || 64 ≤ s.led.events.length
    let o := LedOp.record (.outage 0)
    let f := { base with led := { base.led with busy := [o], retries := 1 } }
    base.led.busy = [] ∧ Runs base ∧ f.led.busy = [o] ∧ f.led.retries ≠ 0 ∧ base.led.retries = 0 ∧ Runs f ∧ due (s 1 1 4000000001) = true ∧
    due (s 64 1 1) = true ∧ due (s 63 1 4000000000) = false ∧ base.led.events = [] := by unfold Runs; decide +kernel

/-- Temperatures on both sides of each threshold, with what was long enough and what was not. -/
theorem witness_ThermalAndStandby :
    let far := { base with tick := 2 ^ 40 }
    let st := fun (state step : Nat) => setTherm state step { far with therm := { far.therm with below97 := some 0, above105 := some 0, below102 := some 0 } }
    let young := { st 2 3 with therm := { (st 2 3).therm with above105 := none } }
    let sensors := fun n : Int => (List.replicate 23 0) ++ [n]
    StateInv base ∧ Runs base ∧ (sensors 1840).length = 24 ∧ (hottestSensor (sensors 1840)).2 = 115 * 16 ∧ (hottestSensor (sensors 1839)).2 < 115 * 16 ∧
    base.therm.hotRun = 0 ∧ 1 ≤ ({ base with therm := { base.therm with hotRun := 1 } } : State).therm.hotRun ∧
    base.led.busy = [] ∧ getF fSysThermStatusState .sysThermStatus (st 0 0) = 0 ∧ changeFree (st 0 0) = true ∧
    getF fSysThermStatusState .sysThermStatus (st 1 0) = 1 ∧ changeFree (st 1 0) = true ∧ heldLong (st 1 0).therm.below97 (st 1 0) = true ∧
    changeFree { st 1 0 with therm := { (st 1 0).therm with changedAt := 2 ^ 40 } } = false ∧
    getF fSysThermStatusState .sysThermStatus (st 2 2) = 2 ∧ heldLong (st 2 2).therm.above105 (st 2 2) = true ∧
    getF fSysThermStatusStep .sysThermStatus (st 2 2) = 2 ∧ getF fSysThermStatusStep .sysThermStatus (st 2 3) = 3 ∧
    getF fSysThermStatusState .sysThermStatus young = 2 ∧ heldLong young.therm.above105 young = false ∧ heldLong young.therm.below102 young = true ∧
    1 < getF fSysThermStatusStep .sysThermStatus young := by
  intro far st young sensors; refine ⟨base_kept, ?_⟩; unfold Runs; decide +kernel

/-- A sample that is 100 and 105 degrees at its hottest. -/
theorem witness_ThermalAndStandby_now :
    let s := fun (st : Nat) (n : Int) => setF fSysThermStatusState .sysThermStatus st { base with therm := { base.therm with sensors := List.replicate 24 n } }
    let now := fun s : State => (hottestSensor s.therm.sensors).2
    getF fSysThermStatusState .sysThermStatus (s 0 1600) = 0 ∧ 100 * 16 ≤ now (s 0 1600) ∧ getF fSysThermStatusState .sysThermStatus (s 1 1680) = 1 ∧
    105 * 16 ≤ now (s 1 1680) ∧ now (s 1 1679) < 105 * 16 := by decide +kernel

theorem witness_ThermalAndStandby_power :
    let v := fun n : Nat => (setFld fSysPowerReq n 0 : Payload)
    let s := { base with sys := { base.sys with standby := true, exiting := true } }
    let a := accessed .host base
    fld fSysPowerReq (v 1) = 1 ∧ isIdle a = true ∧ isIdle (accessed .host (setPart 0 started base)) = false ∧ fld fSysPowerReq (v 0) = 0 ∧
    (accessed .host s).sys.standby = true ∧ a.sys.standby = false ∧ barred .host base = false ∧ Runs s ∧ s.sys.exiting = true ∧ base.sys.exiting = false := by
  unfold Runs; decide +kernel

/-- The boundary-scan port with SYS_RST_N high and low, 16 pins, and codes that the instructions have and have not. -/
theorem witness_BoundaryScan :
    base.sys.powered = true ∧ base.sys.rstLow = false ∧ ({ base with sys := { base.sys with rstLow := true } } : State).sys.rstLow = true ∧
    (List.replicate 16 true).length = 16 ∧ (5 : BitVec 8).toNat ∈ [0x00, 0x01, 0x02, 0x04, 0x05] ∧
    ¬((3 : BitVec 8).toNat ∈ [0x00, 0x01, 0x02, 0x04, 0x05]) := by decide +kernel

/-! ### Witnesses: the Steward, DMA and the board -/

/-- Core 0 in a state, its first two words given. -/
def coreAt (x : Core) (w next : Nat) : Core :=
  { x with state := 1, prog := storeSet (fun _ => 0) (storeSet (fun _ => 0) [] 0 w) 1 next }

/-- The device with that core. -/
def running (x : Core) (w next : Nat) : State := setCore 0 (coreAt x w next) base

theorem running_kept {x : Core} (hx : x.shaped) (w next : Nat) : StateInv (running x w next) :=
  (setCore_inv (x := coreAt x w next) ⟨hx.1, hx.2.1, hx.2.2.1, hx.2.2.2.1, hx.2.2.2.2.1, hx.2.2.2.2.2.1, storeWf_set (storeWf_set rfl),
    hx.2.2.2.2.2.2.2⟩ (Kept.self base_kept)).inv

/-- A core at a legal word of every opcode. -/
theorem witness_StewardComputes : StateInv (running Core.idle 0 0) ∧ ∀ op ∈ List.range 0x2F,
    let s := running Core.idle (op * 2 ^ 26) 0
    let x := coreOf (0 : Fin 8).val s
    Runs s ∧ throttled s = false ∧ x.state = 1 ∧ legal (x.word x.pc) = true ∧ opOf (x.word x.pc) = op ∧ x.stopDue = false ∧ x.pc < 16383 ∧ x.rep = none :=
  ⟨running_kept Core.idle_shaped 0 0, by unfold Runs; decide +kernel⟩

theorem witness_StewardSaturation : 15 < Core.idle.d.length ∧ 1 < Core.idle.a.length := by decide

/-- A condition that holds and one that does not, seven and eight return addresses, four transfers, and an illegal word. -/
theorem witness_StewardControl :
    let x := fun s : State => coreOf (0 : Fin 8).val s
    let w := fun s : State => (x s).word (x s).pc
    let u := fun s : State => setCore 0 { x s with cycles := wrap 48 ((x s).cycles + 1) } s
    let ok := fun s : State => Runs s ∧ throttled s = false ∧ (x s).state = 1 ∧ (x s).stopDue = false ∧ (x s).rep = none ∧ (x s).pc < 16383
    let at' := fun op k next : Nat => running Core.idle (op * 2 ^ 26 + k * 2 ^ 22) next
    ok (at' 0x23 0 0) ∧ ok (at' 0x3F 0 0) ∧ legal (w (at' 0x3F 0 0)) = false ∧
    (∀ op ∈ [0x23, 0x24, 0x25], legal (w (at' op 0 0)) = true ∧ opOf (w (at' op 0 0)) = op ∧ f6Taken (0 : Fin 8).val (w (at' op 0 0)) (u (at' op 0 0)) = true ∧
      legal (w (at' op 1 0)) = true ∧ opOf (w (at' op 1 0)) = op ∧ f6Taken (0 : Fin 8).val (w (at' op 1 0)) (u (at' op 1 0)) = false) ∧
    (x (running { Core.idle with stack := List.replicate 7 0 } (0x24 * 2 ^ 26) 0)).stack.length < 8 ∧
    8 ≤ (x (running { Core.idle with stack := List.replicate 8 0 } (0x24 * 2 ^ 26) 0)).stack.length ∧
    (x (running { Core.idle with stack := [5] } (0x25 * 2 ^ 26) 0)).stack = [5] ∧ (x (at' 0x25 0 0)).stack = [] ∧
    isFlow ((x (at' 0x27 0 0)).word ((x (at' 0x27 0 0)).pc + 1)) = false ∧
    isFlow ((x (at' 0x27 0 (0x23 * 2 ^ 26))).word ((x (at' 0x27 0 (0x23 * 2 ^ 26))).pc + 1)) = true ∧
    (x (at' 0x2B 0 0)).xfers.length < 4 ∧ (x (at' 0x2C 0 0)).xfers = [] ∧ Nat.land (x (at' 0x2D 0 0)).ip (x (at' 0x2D 0 0)).ie = 0 ∧
    (let y := x (running { Core.idle with ip := 1, ie := 1 } (0x2D * 2 ^ 26) 0)
     Nat.land y.ip y.ie ≠ 0) ∧
    (let y := x (running { Core.idle with xfers := List.replicate 4 (readBlock Core.idle 0) } (0x2B * 2 ^ 26) 0)
     4 ≤ y.xfers.length ∧ y.xfers ≠ []) := by unfold Runs; decide +kernel

/-- A core at the last word of program memory. -/
theorem witness_StewardFlow_end :
    let s := setCore 0 { Core.idle with state := 1, pc := 16383 } base
    let x := coreOf (0 : Fin 8).val s
    StateInv s ∧ Runs s ∧ throttled s = false ∧ x.state = 1 ∧ x.stopDue = false ∧ x.rep = none ∧ x.pc = 16383 ∧ legal (x.word x.pc) = true ∧ opOf (x.word x.pc) = 0 :=
  ⟨(setCore_inv (x := { Core.idle with state := 1, pc := 16383 }) ⟨by decide, by decide, by decide, by decide, by decide, by decide, rfl, rfl⟩
    (Kept.self base_kept)).inv, by unfold Runs; decide +kernel⟩

/-- Sources 1 and 3 pending and enabled, source 0 pending and not enabled; a core for each reason not to enter, and timers. -/
theorem witness_StewardControl_interrupts :
    let core := fun (ien inh : Bool) (rep : Option Nat) (ie timer : Nat) => coreOf (0 : Fin 8).val (running
      { Core.idle with sr := { Core.idle.sr with ien := ien, inh := inh }, rep := rep, ip := 11, ie := ie, timer := BitVec.ofNat 24 timer } 0 0)
    let ready := fun (x : Core) (k : Nat) => bitOf x.ip k = true ∧ bitOf x.ie k = true
    let x := core true false none 10 1
    Runs (running Core.idle 0 0) ∧ throttled (running Core.idle 0 0) = false ∧ throttled (hot base) = true ∧ x.active = true ∧ x.sr.ien = true ∧ x.sr.inh = false ∧
    x.rep = none ∧ ready x 1 ∧ ¬ready x 0 ∧ ready x 3 ∧ Core.idle.active = false ∧ (core false false none 10 0).sr.ien = false ∧
    (core true true none 10 0).sr.inh = true ∧ (core true false (some 1) 10 0).rep ≠ none ∧ (∀ j, j < 4 → ¬ready (core true false none 0 0) j) ∧
    x.timer ≠ 0 ∧ (core true false none 0 0).timer = 0 ∧ x.state = 1 ∧ Core.idle.state ≠ 1 := by unfold Runs; decide +kernel

/-- A transfer of each kind whose checks pass, and one with a RSVD bit set. -/
theorem witness_StewardTransfers :
    let t := fun (kind region : Nat) (rsvd : Bool) => Xfer.mk kind region 1 0 rsvd 0 0 0 0 0 none
    let s := fun x : Xfer => setCore 0 { Core.idle with xfers := [x] } base
    let p := (coreOf (0 : Fin 8).val base).part
    (∀ x ∈ [t 0 5 false, t 1 5 false, t 2 0 false, t 3 0 false], Runs (s x) ∧ (coreOf (0 : Fin 8).val (s x)).xfers = [x] ∧ x.result = none ∧ throttled (s x) = false ∧
      .stewards ∉ (s x).fab.draining ∧ (coreOf (0 : Fin 8).val (s x)).rep = none) ∧
    (let u := setCore 0 { Core.idle with xfers := [t 0 5 false], rep := some 2 } { base with fab := { base.fab with draining := [.stewards] } }
     .stewards ∈ u.fab.draining ∧ (coreOf (0 : Fin 8).val u).rep ≠ none) ∧
    throttled (hot (s (t 0 5 false))) = true ∧
    (t 0 5 false).kind = 0 ∧ firstFail (xferChecks false (t 0 5 false) p (s (t 0 5 false))) = none ∧ firstFail (xferChecks false (t 0 5 true) p (s (t 0 5 true))) ≠ none ∧
    (t 1 5 false).kind = 1 ∧ firstFail (xferChecks true (t 1 5 false) p (s (t 1 5 false))) = none ∧ firstFail (xferChecks true (t 1 5 true) p (s (t 1 5 true))) ≠ none ∧
    firstFail [chk (t 2 0 false).rsvd 0x11, chk (partOf p base).commit.isSome 0x31] = none ∧
    firstFail [chk (t 2 0 true).rsvd 0x11, chk (partOf p base).commit.isSome 0x31] ≠ none ∧
    firstFail [chk (t 3 0 false).rsvd 0x11] = none ∧ firstFail [chk (t 3 0 true).rsvd 0x11] ≠ none := by unfold Runs; decide +kernel

/-- A channel with a burst to read, one to write and a descriptor to fetch. -/
def chan : DmaChan := ⟨255, 0, 2, 0, [(0, 32, 1)], [], [(0, 32, 2)], 0, none, false, false, true, some 3, 0, 0, false, false, 0, 0, 0⟩

/-- The channel, with the fabric's answers to its accesses. -/
def moving (c : DmaChan) (rs : List FabReply) : State := setDma 27 (some c) { booted with fab := { booted.fab with replies := rs } }

theorem chan_kept : StateInv (setDma 27 (some chan) booted) :=
  ⟨⟨by decide +kernel, rfl, rfl, rfl, rfl, rfl, rfl, rfl, rfl, rfl⟩, ⟨rfl, rfl, rfl⟩, State.reset_cores, by decide +kernel, by decide +kernel⟩

/-- Writes of DMA_CH_n_CTL by the host to its channels, and to one of the Reeve's; modes; a chain's address that may be and one that may not. -/
theorem witness_DmaStarts :
    let v := fun start mode abort : Nat => (setFld fDmaCtlStart start (setFld fDmaCtlMode mode (setFld fDmaCtlAbort abort 0)) : Payload)
    let s := moving chan []
    let ch : Fin 32 := 27
    let t := fun mode => setF fDmaCtlMode (.dmaCtl ch) mode booted
    let bad := setReg (.dmaSrcL ch) 1 (t 1)
    let place := fun s => descPlace (dmaAddr ch.val .dmaSrcH .dmaSrcL s) s
    Accepts .host booted ∧ ¬(Master.host = .host ∧ 28 ≤ ch.val) ∧ ¬¬(Master.host = .host ∧ 28 ≤ (28 : Fin 32).val) ∧
    dmaOf ch.val (accessed .host booted) = none ∧ fld fDmaCtlStart (v 1 0 0) = 1 ∧ fld fDmaCtlStart (v 0 0 0) = 0 ∧
    getF fDmaCtlMode (.dmaCtl ch) (t 0) ≠ 1 ∧ getF fDmaCtlMode (.dmaCtl ch) (t 1) = 1 ∧ (place (t 1)).isSome = true ∧ place bad = none ∧
    Accepts .host s ∧ dmaOf ch.val (accessed .host s) ≠ none ∧ fld fDmaCtlAbort (v 0 0 0) = 0 ∧ fld fDmaCtlAbort (v 0 0 1) = 1 := by
  unfold Accepts Runs; decide +kernel

/-- The answers that came, that failed and that have not come; a channel that goes on, one that ends, and one with no fetch. -/
theorem witness_DmaMoves :
    let bs : List Byte := List.replicate 32 7
    let s := moving chan [⟨1, some bs⟩, ⟨2, some []⟩, ⟨3, some bs⟩]
    let none' := moving chan [⟨1, none⟩, ⟨2, none⟩, ⟨3, none⟩]
    let ends := fun k : Nat => { chan with ending := some k, discard := true }
    Runs s ∧ dmaOf (27 : Fin 32).val s = some chan ∧ chan.reads = [(0, 32, 1)] ∧ replyOf 1 s = some (some bs) ∧ replyOf 1 none' = some none ∧
    replyOf 1 (moving chan []) = none ∧ chan.discard = false ∧ (ends 2).discard = true ∧ dmaOf (27 : Fin 32).val (moving (ends 2) []) = some (ends 2) ∧
    chan.writes = [(0, 32, 2)] ∧ replyOf 2 s = some (some []) ∧ replyOf 2 none' = some none ∧ chan.ending ≠ some 3 ∧ (ends 3).ending = some 3 ∧
    chan.fetching = true ∧ chan.fetchNo = some 3 ∧ replyOf 3 s = some (some bs) ∧ replyOf 3 none' = some none ∧ chan.ending = none ∧
    ({ chan with fetching := false } : DmaChan).fetching = false ∧ ({ chan with fetchNo := none } : DmaChan).fetchNo = none ∧ chan.next < chan.count := by
  unfold Runs; decide +kernel

theorem witness_DmaEnds : StateInv (setDma 27 (some chan) booted) ∧ dmaOf (27 : Fin 32).val (setDma 27 (some chan) booted) = some chan ∧
    chan.chain = false := ⟨chan_kept, by decide +kernel⟩

theorem witness_BoardPorts :
    Runs base ∧ base.sys.reeveRuns = true ∧ ({ base with sys := { base.sys with reeveRuns := false } } : State).sys.reeveRuns = false ∧
    6 < (7 : BitVec 8).toNat ∧ base.sys.powered = true ∧ (List.replicate 16 true).length = 16 ∧ base.sys.rstLow = false ∧
    ({ base with sys := { base.sys with rstLow := true } } : State).sys.rstLow = true ∧
    (∀ code ∈ [3, 6, 0xFF], ¬((BitVec.ofNat 8 code).toNat ∈ [0x00, 0x01, 0x02, 0x04, 0x05])) := by unfold Runs; decide +kernel

/-- The monitor's port works; sessions open and shut, a challenge that is out, and a command that waits. -/
def served (unlocked throttled : Bool) : State :=
  setF fSysBootStatusStage .sysBootStatus 4 { base with mon := { base.mon with enabled := true, strap := true, unlocked := unlocked, throttled := throttled, challenge := some 5, waiting := [(1, .baud 0)] } }

theorem witness_Monitor :
    let s := served false false
    let v := fun f : Fld => (setFld f 1 0 : Payload)
    Runs s ∧ monLive s = true ∧ monLive (served true true) = true ∧ Runs (served true true) ∧ (served true true).mon.throttled = true ∧ s.mon.throttled = false ∧
    s.mon.unlocked = false ∧ s.mon.challenge = some 5 ∧ base.mon.challenge = none ∧
    (served true true).mon.unlocked = true ∧ fld fMonCtlRelock (v fMonCtlRelock) = 1 ∧ fld fMonCtlDisable (v fMonCtlRelock) = 0 ∧
    fld fMonCtlDisable (v fMonCtlDisable) = 1 ∧ fld fMonCtlRelock (v fMonCtlDisable) = 0 ∧
    (0 : BitVec 24).toNat ≠ Reg.timeNowS.offset ∧ wrBarred Reg.hifEstop.offset = true ∧ wrBarred Reg.hifDbBase.offset = false ∧
    s.led.readOnly = false ∧ responseOk 0 base = false ∧ s.mon.waiting = [(1, .baud 0)] := by unfold Runs; decide +kernel

theorem ofLe_lt (bs : List Byte) : ofLe bs < 2 ^ (8 * bs.length) := by
  induction bs with
  | nil => simp [ofLe]
  | cons b l ih =>
    have hb := b.isLt
    rw [List.length_cons, Nat.mul_add, Nat.pow_add]
    simp only [ofLe]
    omega

/-- The response to a challenge, as UNLK and FUSE_LOCKOUT take it. -/
theorem witness_Monitor_response : monResponse 5 = (BitVec.ofNat 32 (monResponse 5)).toNat ∧ responseOk (BitVec.ofNat 32 (monResponse 5)) (served true false) = true := by
  have h : monResponse 5 = (BitVec.ofNat 32 (monResponse 5)).toNat := by
    rw [BitVec.toNat_ofNat, Nat.mod_eq_of_lt]
    unfold monResponse ofBe
    refine (ofLe_lt _).trans_le (Nat.pow_le_pow_right (by decide) ?_)
    rw [List.length_reverse]
    exact Nat.mul_le_mul_left 8 (List.length_take_le 4 _)
  refine ⟨h, ?_⟩
  unfold responseOk
  rw [show (served true false).mon.challenge = some 5 from rfl]
  exact decide_eq_true h

end Sys2Proof.Machine
end

section
/-!
SUPPORT. The scope of the block: what a command answers, and what a register write does.
-/
namespace Sys2Proof.Machine

/-! ### What a command answers -/

/-- An outcome that is a next state where `ok` holds and the fault of malformed operands where it does not. -/
def AnswersWhen (ok : Bool) (o : Host.Outcome State Fault Refusal) : Prop :=
  (ok = true → ∃ t, o = .next t) ∧ (ok = false → o = .fault .malformed)

/-- A meaning without a check of its operands answers a next state. -/
theorem answersWhen_next (t : State) : AnswersWhen true (.next t) := ⟨fun _ => ⟨t, rfl⟩, nofun⟩

/-- A meaning that first checks its operands answers by that check. -/
theorem answersWhen_unless {ok : Bool} {bad : Prop} [Decidable bad] {t : State} (h : ok = true ↔ ¬bad) :
    AnswersWhen ok (if bad then .fault .malformed else .next t) := by
  by_cases hb : bad
  · rw [if_pos hb]
    exact ⟨fun hok => absurd hb (h.mp hok), fun _ => rfl⟩
  · rw [if_neg hb, h.mpr hb]
    exact answersWhen_next t

/-- The operand list of a command that fits by its length alone. -/
theorem length_fits_iff {α : Type} {l : List α} {n : Nat} : (decide (l.length = n) && true) = true ↔ ¬(l.length ≠ n) := by
  simp

/-- Every command's answer is settled by whether it fits the state: ten commands check their operands, all others check nothing. -/
theorem exec_answersWhen_fits (c : Instr) (s : State) : AnswersWhen (fits c s) (exec c s) := by
  cases c with
  | bellFireRecord _ _ | bellArmRecord _ _ | bellRoleRecord _ _ | bellDeadRecord _ _ | bellMsgRecord _ _
  | voltageSample _ | thermSample _ | jtagSamplePreload _ _ => exact answersWhen_unless length_fits_iff
  | tdcCalDone hits =>
    refine answersWhen_unless ?_
    simp [fits, Instr.wellFormed]
  | hbmAccess a =>
    have hfits : fits (.hbmAccess a) s = burstOk a.addr := Bool.and_true _
    show AnswersWhen _ (if burstOk a.addr then act (hbmBurst a) s else .fault .malformed)
    rw [hfits, ← ite_not]
    exact answersWhen_unless not_not.symm
  | _ => exact answersWhen_next _

/-- Settles O6: ten commands check their operands, and what each asks is what fits says. -/
theorem stopsOnlyMalformed : Obligations.StopsOnlyMalformed := exec_answersWhen_fits

/-! ### Register accesses -/

/-- What a register access does when it takes effect: its rule, on the state the access meets. -/
theorem actBy_accepts {m : Master} {f : State → State} {s : State} (h : Accepts m s) : actBy m f s = .next (f (accessed m s)) :=
  actBy_run h.1 h.2

/-- REGISTER_WRITE by the kind of place its offset names (R285). -/
theorem registerWrite_accepts {m : Master} {offset : BitVec 26} {value : Qword} {s : State} (h : Accepts m s) :
    exec (.registerWrite m offset value) s = .next (
      if offset.toNat % 8 ≠ 0 then emit .unsupported (accessed m s)
      else if 0x1000000 ≤ offset.toNat && offset.toNat < 0x1080000 then
        mapWindow (offset.toNat - 0x1000000) 8 value.toNat (accessed m s)
      else offsetWrite m offset.toNat (pay value.toNat) (accessed m s)) := by
  change execRegisterWrite m offset value s = _
  rw [execRegisterWrite, actBy_accepts h]

/-- Outside the input map window an aligned REGISTER_WRITE writes at its offset, with the payload of its value (R285, R408). -/
theorem registerWrite_outsideWindow {m : Master} {offset : BitVec 26} {value : Qword} {s : State} (h : Accepts m s)
    (ho : offset.toNat % 8 = 0) (hw : offset.toNat < 0x1000000 ∨ 0x1080000 ≤ offset.toNat) :
    exec (.registerWrite m offset value) s = .next (offsetWrite m offset.toNat (value.setWidth 48) (accessed m s)) := by
  have hout : ¬((0x1000000 ≤ offset.toNat && offset.toNat < 0x1080000) = true) := by
    simp only [Bool.and_eq_true, decide_eq_true_eq]
    omega
  rw [registerWrite_accepts h, if_neg (not_not_intro ho), if_neg hout, pay, BitVec.ofNat_toNat]

theorem offsetWrite_none {m : Master} {o : Nat} {v : Payload} {s : State} (h : Reg.ofOffset o = none) : offsetWrite m o v s = s := by
  rw [offsetWrite, h]

theorem offsetWrite_some {m : Master} {o : Nat} {v : Payload} {s : State} {r : Reg} (h : Reg.ofOffset o = some r) :
    offsetWrite m o v s = regWrite m r v s := by
  rw [offsetWrite, h]

/-- A command whose meaning is a register's write has the effect of that write. -/
theorem next_regWrite_eq_exec {m : Master} {r : Reg} {v : Payload} {s : State} {c : Instr} (h : Accepts m s)
    (hc : exec c s = actBy m (regWrite m r v) s) : .next (regWrite m r v (accessed m s)) = exec c s :=
  (hc.trans (actBy_accepts h)).symm

/-- A plain write stores the writable bits and leaves every other bit, register and part of the state (R9, R10). -/
theorem plainWrite_effect (r : Reg) (v : Payload) (s : State) :
    plainWrite r v s = { s with regs := (plainWrite r v s).regs } ∧
    (StateInv s → regOf r (plainWrite r v s) = ((v &&& r.rwMask) ||| (regOf r s &&& ~~~r.rwMask)) ∧
      ∀ q : Reg, q.offset ≠ r.offset → regOf q (plainWrite r v s) = regOf q s) :=
  ⟨rfl, fun h => ⟨regOf_setReg h, fun _ hq => regOf_setReg_other hq⟩⟩

/-- Settles O10: by the kind of place the offset names, and at a register by the rule of its write. -/
theorem registerWrite : Obligations.RegisterWrite := by
  refine ⟨fun m offset value s hs => ⟨fun ho => ?_, fun ho hl hh => ?_, fun ho hw hr => ?_, fun r ho hw hr => ?_⟩,
    fun r r' v s h => ⟨regOf_setReg h, regOf_setReg_other, rfl⟩⟩
  · rw [registerWrite_accepts hs, if_pos ho]
  · have hin : (0x1000000 ≤ offset.toNat && offset.toNat < 0x1080000) = true := by simp [hl, hh]
    rw [registerWrite_accepts hs, if_neg (not_not_intro ho), if_pos hin]
  · rw [registerWrite_outsideWindow hs ho hw, offsetWrite_none hr]
  · have hout := registerWrite_outsideWindow (value := value) hs ho hw
    rw [offsetWrite_some hr] at hout
    cases r with
    | sysFabricQos | accCfg | trgCfg | timeRefCfg | timeXoCfg | timePpsCfg | timePtpCfg | reeveCtl
    | dmaSrcL _ | dmaSrcH _ | dmaDstL _ | dmaDstH _ | dmaCount _ => exact hout
    | sysReset | sysPower | hifNudge | hifAttnClr | hifEstop | ringBase _ | ringCfg _ | ringIdx _ | ingTableInval | detRangeSet
    | memLayout | memAllot _ | timeRate | timeSlew | timeCtl | timeTdcCtl | timeTsqCfg | timeTsqPop | bellCfg | laneBellCfg
    | laneGroupCfg _ | laneCfg _ | dmaCtl _ | monCtl => exact hout.trans (next_regWrite_eq_exec hs rfl)
    | _ => exact ⟨_, hout, plainWrite_effect _ _ _⟩

end Sys2Proof.Machine
end

section
/-!
SUPPORT. The target ports of the fabric: which transaction a port grants, what a grant does, and the fabric's housekeeping.
-/
namespace Sys2Proof.Machine

/-! ### The transaction a port grants -/

/-- `t` is the transaction of `l` that R28 names: of highest QoS, and the first in the queue among equals. -/
def IsHighest (l : List Txn) (t : Txn) : Prop :=
  ∃ pre post, l = pre ++ t :: post ∧ (∀ x ∈ pre, x.qos < t.qos) ∧ ∀ x ∈ post, x.qos ≤ t.qos

theorem isHighest_singleton (t : Txn) : IsHighest [t] t := ⟨[], [], rfl, nofun, nofun⟩

/-- A newer transaction of no higher QoS does not displace the one that is highest. -/
theorem IsHighest.concat_of_le {l : List Txn} {t x : Txn} (h : IsHighest l t) (hx : x.qos ≤ t.qos) : IsHighest (l ++ [x]) t := by
  obtain ⟨pre, post, rfl, hpre, hpost⟩ := h
  refine ⟨pre, post ++ [x], by simp, hpre, fun y hy => ?_⟩
  rcases List.mem_append.mp hy with hy | hy
  · exact hpost y hy
  · rw [List.mem_singleton.mp hy]
    exact hx

/-- A newer transaction above the one that was highest is highest itself. -/
theorem IsHighest.concat_of_lt {l : List Txn} {t x : Txn} (h : IsHighest l t) (hx : t.qos < x.qos) : IsHighest (l ++ [x]) x := by
  obtain ⟨pre, post, rfl, hpre, hpost⟩ := h
  refine ⟨pre ++ t :: post, [], rfl, fun y hy => ?_, nofun⟩
  rcases List.mem_append.mp hy with hy | hy
  · exact (hpre y hy).trans hx
  · rcases List.mem_cons.mp hy with rfl | hy
    · exact hx
    · exact (hpost y hy).trans_lt hx

theorem topOf_concat_none {l : List Txn} {x : Txn} (h : topOf l = none) : topOf (l ++ [x]) = some x := by
  unfold topOf at h ⊢
  rw [List.foldl_append, h]
  rfl

theorem topOf_concat_some {l : List Txn} {t x : Txn} (h : topOf l = some t) :
    topOf (l ++ [x]) = if x.qos > t.qos then some x else some t := by
  unfold topOf at h ⊢
  rw [List.foldl_append, h]
  rfl

/-- Of a list that is not empty, topOf answers the transaction of highest QoS, by the order in which the list grew. -/
theorem topOf_isHighest {l : List Txn} (h : l ≠ []) : ∃ t, topOf l = some t ∧ IsHighest l t := by
  induction l using List.reverseRecOn with
  | nil => exact absurd rfl h
  | append_singleton l x ih =>
    by_cases hl : l = []
    · subst hl
      exact ⟨x, topOf_concat_none rfl, isHighest_singleton x⟩
    · obtain ⟨t, htop, hhigh⟩ := ih hl
      rw [topOf_concat_some htop]
      by_cases hx : x.qos > t.qos
      · exact ⟨x, if_pos hx, hhigh.concat_of_lt hx⟩
      · exact ⟨t, if_neg hx, hhigh.concat_of_le (Nat.le_of_not_lt hx)⟩

/-- What waits in a port's queue below level 15. -/
def TargetPort.low (p : TargetPort) : List Txn := p.queue.filter fun t => t.qos ≠ 15

theorem grantOf_eq (p : TargetPort) : grantOf p = if 7 ≤ p.streak ∧ p.low ≠ [] then topOf p.low else topOf p.queue := by
  unfold grantOf TargetPort.low
  simp only [Bool.and_eq_true, decide_eq_true_eq, ge_iff_le]

theorem grantOf_nil {p : TargetPort} (h : p.queue = []) : grantOf p = none := by
  have hlow : p.low = [] := by rw [TargetPort.low, h, List.filter_nil]
  rw [grantOf_eq, if_neg fun hc => hc.2 hlow, h]
  rfl

/-- A queue that is not empty grants: the highest below level 15 after seven grants in a row to level 15, the highest of all else (R28). -/
theorem grantOf_isHighest {p : TargetPort} (h : p.queue ≠ []) : ∃ t, grantOf p = some t ∧
    (p.low = [] ∨ p.streak < 7 → IsHighest p.queue t) ∧ (p.low ≠ [] → 7 ≤ p.streak → IsHighest p.low t) := by
  rw [grantOf_eq]
  by_cases hturn : 7 ≤ p.streak ∧ p.low ≠ []
  · obtain ⟨hstreak, hlow⟩ := hturn
    obtain ⟨t, htop, hhigh⟩ := topOf_isHighest hlow
    rw [if_pos ⟨hstreak, hlow⟩]
    exact ⟨t, htop, fun hor => absurd hor (not_or.mpr ⟨hlow, Nat.not_lt.mpr hstreak⟩), fun _ _ => hhigh⟩
  · obtain ⟨t, htop, hhigh⟩ := topOf_isHighest h
    rw [if_neg hturn]
    exact ⟨t, htop, fun _ => hhigh, fun hlow hstreak => absurd ⟨hstreak, hlow⟩ hturn⟩

theorem afterGrant_eq (p : TargetPort) (t : Txn) : afterGrant p t =
    { p with queue := p.queue.filter (·.serial ≠ t.serial), streak := if t.qos = 15 ∧ p.low ≠ [] then p.streak + 1 else 0 } := by
  unfold afterGrant TargetPort.low
  simp only [Bool.and_eq_true, decide_eq_true_eq]

/-! ### What a grant does -/

/-- The device once what arrives has joined, the slices have issued and the port's queue is filled: the state a port grants in. -/
def beforeGrant (port : FabTarget) (arrivals : List FabArrival) (s : State) : State :=
  let arrived := issueAll (arrivals.foldl (fun s a => arrive (targetKey port) a s) s)
  fillQueue (targetKey port) (targetOf (targetKey port) arrived).waiting.length arrived

/-- What the grant of `t` does in state `u`: it leaves the queue, freed entries fill, and it is performed or fails by parity. -/
def afterGranted (port : FabTarget) (parity : Bool) (t : Txn) (u : State) : State :=
  let k := targetKey port
  let q := setTarget k (afterGrant (targetOf k u) t) u
  let f := fillQueue k (targetOf k q).waiting.length q
  let v := raise .fabParity none (arg0 (classNo t.req.cls) 0 0) t.req.addr (emit (.busError t.req.cls) f)
  let failed := if t.req.cls = .dma then { v with fab := { v.fab with replies := v.fab.replies ++ [⟨t.serial, none⟩] } } else v
  let done := if parity then failed else perform port t (emit (.granted port t.serial t.qos) f)
  if k < 64 then refreshFree (2 * k + 1) (refreshFree (2 * k) done) else done

/-- What a port does in the state `u` it grants in: the transaction that grantOf names goes, unless the port is shut. -/
def grantIn (port : FabTarget) (parity : Bool) (u : State) : State :=
  match (if portShut port u then none else grantOf (targetOf (targetKey port) u)) with
  | none => u
  | some t => afterGranted port parity t u

theorem fabricGrant_eq (port : FabTarget) (arrivals : List FabArrival) (parity : Bool) (s : State) :
    fabricGrant port arrivals parity s = grantIn port parity (beforeGrant port arrivals s) := rfl

theorem grantIn_shut {port : FabTarget} {parity : Bool} {u : State} (h : portShut port u = true) : grantIn port parity u = u := by
  rw [grantIn, if_pos h]

theorem grantIn_none {port : FabTarget} {parity : Bool} {u : State} (h : grantOf (targetOf (targetKey port) u) = none) :
    grantIn port parity u = u := by
  rw [grantIn, h, ite_self]

theorem grantIn_some {port : FabTarget} {parity : Bool} {u : State} {t : Txn} (hopen : portShut port u = false)
    (h : grantOf (targetOf (targetKey port) u) = some t) : grantIn port parity u = afterGranted port parity t u := by
  rw [grantIn, if_neg (by rw [hopen]; exact Bool.false_ne_true), h]

theorem exec_fabricGrant {port : FabTarget} {arrivals : List FabArrival} {parity : Bool} {s : State} (hs : Runs s) :
    exec (.fabricGrant port arrivals parity) s = .next (grantIn port parity (beforeGrant port arrivals s)) :=
  (act_run hs).trans (congrArg _ (fabricGrant_eq port arrivals parity s))

/-- FABRIC_GRANT at an empty queue, or at the memory of a core in a repeat (R28, R346). -/
theorem exec_fabricGrant_nothing {port : FabTarget} {arrivals : List FabArrival} {parity : Bool} {s : State} (hs : Runs s)
    (h : (targetOf (targetKey port) (beforeGrant port arrivals s)).queue = [] ∨ portShut port (beforeGrant port arrivals s) = true) :
    exec (.fabricGrant port arrivals parity) s = .next (beforeGrant port arrivals s) := by
  refine (exec_fabricGrant hs).trans (congrArg _ ?_)
  rcases h with hempty | hshut
  · exact grantIn_none (grantOf_nil hempty)
  · exact grantIn_shut hshut

end Sys2Proof.Machine

namespace Sys2Proof

/-- Settles O13: in the state beforeGrant, by the cases of grantIn, with the transaction that grantOf names. -/
theorem fabricGrant : Obligations.FabricGrant := by
  intro port arrivals parity s hs
  have hexec := Machine.exec_fabricGrant (port := port) (arrivals := arrivals) (parity := parity) hs
  refine ⟨fun hnone => Machine.exec_fabricGrant_nothing hs hnone, fun hqueue hopen => ?_⟩
  obtain ⟨t, hgrant, hfree, hturn⟩ := Machine.grantOf_isHighest hqueue
  refine ⟨t, hfree, hturn, hexec.trans (congrArg _ ((Machine.grantIn_some hopen hgrant).trans ?_))⟩
  rw [Machine.afterGranted, Machine.afterGrant_eq]
  rfl

end Sys2Proof
end

section
/-!
SUPPORT. The fabric's housekeeping: ageing, drained masters, the allotments' buckets and the Reeve's two windows.
-/
namespace Sys2Proof.Machine

/-! ### Ageing and drained masters -/

/-- QOS_AGEING raises the transaction it names by one level where it is below 14 (R29). -/
theorem qosAgeing_eq (k serial : Nat) (s : State) : qosAgeing k serial s = setTarget k
    { targetOf k s with queue := (targetOf k s).queue.map fun t =>
        if t.serial = serial ∧ t.qos < 14 then { t with qos := t.qos + 1 } else t } s := by
  unfold qosAgeing
  simp only [Bool.and_eq_true, decide_eq_true_eq]

/-- ARG0 of an event that names a master class alone is the class's number. -/
theorem arg0_classNo (c : MasterClass) : arg0 (classNo c) 0 0 = classNo c := by
  cases c <;> rfl

theorem masterDrained_released {c : MasterClass} {s : State} (hd : c ∈ s.fab.draining) (ho : outstanding c s = false) :
    masterDrained c s =
      (let t := freeCancelled c (raise .fabMasterDrained none (classNo c) 0
         { s with fab := { s.fab with draining := s.fab.draining.filter (· ≠ c) } })
       if c = .dma then dmaResume t else t) := by
  have hcond : (decide (c ∈ s.fab.draining) && !outstanding c s) = true := by rw [ho, decide_eq_true hd]; rfl
  rw [masterDrained, if_pos hcond, arg0_classNo]

/-- Before a class has drained, and where it does not drain, nothing happens (R36). -/
theorem masterDrained_waits {c : MasterClass} {s : State} (h : c ∉ s.fab.draining ∨ outstanding c s = true) : masterDrained c s = s := by
  rw [masterDrained, if_neg]
  rw [Bool.and_eq_true, decide_eq_true_eq, Bool.not_eq_true']
  rintro ⟨hd, ho⟩
  rcases h with h | h
  · exact h hd
  · rw [ho] at h
    exact Bool.false_ne_true h

/-! ### The allotments' buckets -/

theorem tokensOf_setTokens_same {m n : Nat} {s : State} (h : storeSorted none s.fab.tokens = true) : tokensOf m (setTokens m n s) = n :=
  storeGet_set_same _ _ _ _ h

theorem tokensOf_setTokens_other {m k n : Nat} {s : State} (h : m ≠ k) : tokensOf m (setTokens k n s) = tokensOf m s :=
  storeGet_set_other _ _ _ _ _ h

/-- What a bucket holds after a refill: its rate more, up to its depth (R198). -/
def refilled (m : Fin 3) (s : State) : Nat :=
  min (tokensOf m.val s + 16 * getF fMemAllotRate (.memAllot m) s) (256 * getF fMemAllotBurst (.memAllot m) s)

/-- One bucket refilled. -/
def refillBucket (s : State) (m : Fin 3) : State := setTokens m.val (refilled m s) s

theorem allotmentRefill_eq (s : State) : allotmentRefill s = (List.finRange 3).foldl refillBucket s := rfl

/-- The refill of another bucket leaves what a bucket is refilled to. -/
theorem refilled_refillBucket_other {m k : Fin 3} {s : State} (h : m ≠ k) : refilled m (refillBucket s k) = refilled m s := by
  have htok : tokensOf m.val (refillBucket s k) = tokensOf m.val s := tokensOf_setTokens_other (Fin.val_ne_of_ne h)
  rw [refilled, htok]
  rfl

theorem refillBucket_sorted {m : Fin 3} {s : State} (h : storeSorted none s.fab.tokens = true) :
    storeSorted none (refillBucket s m).fab.tokens = true := storeSorted_set (d := fun _ => 0) h

/-- Refilling buckets changes nothing but their tokens. -/
theorem foldl_refillBucket_frame (l : List (Fin 3)) (s : State) :
    l.foldl refillBucket s = { s with fab := { s.fab with tokens := (l.foldl refillBucket s).fab.tokens } } := by
  induction l generalizing s with
  | nil => rfl
  | cons k l ih => exact ih (refillBucket s k)

/-- A bucket that is not refilled keeps its tokens. -/
theorem tokensOf_foldl_refillBucket_other {m : Fin 3} {l : List (Fin 3)} {s : State} (h : m ∉ l) :
    tokensOf m.val (l.foldl refillBucket s) = tokensOf m.val s := by
  induction l generalizing s with
  | nil => rfl
  | cons k l ih =>
    have hk : m ≠ k := List.ne_of_not_mem_cons h
    exact (ih (List.not_mem_of_not_mem_cons h)).trans (tokensOf_setTokens_other (Fin.val_ne_of_ne hk))

/-- Of distinct buckets refilled in turn, each comes to hold what it is refilled to from the start. -/
theorem tokensOf_foldl_refillBucket {m : Fin 3} {l : List (Fin 3)} {s : State} (hn : l.Nodup) (hm : m ∈ l)
    (hs : storeSorted none s.fab.tokens = true) : tokensOf m.val (l.foldl refillBucket s) = refilled m s := by
  induction l generalizing s with
  | nil => exact absurd hm List.not_mem_nil
  | cons k l ih =>
    obtain ⟨hk, hl⟩ := List.nodup_cons.mp hn
    by_cases hmk : m = k
    · subst hmk
      exact (tokensOf_foldl_refillBucket_other hk).trans (tokensOf_setTokens_same hs)
    · have hml : m ∈ l := (List.mem_cons.mp hm).resolve_left hmk
      exact (ih hl hml (refillBucket_sorted hs)).trans (refilled_refillBucket_other hmk)

/-! ### The Reeve's windows -/

/-- The windows swap once REMAP is set and nothing of the Reeve's is outstanding after its accesses (R38). -/
theorem remapSwap_swaps {l : List ReeveAccess} {s u : State} (hu : l.foldl (fun s x => reeveAccess x s) s = u)
    (hr : getF fReeveCtlRemap .reeveCtl u = 1) (ho : outstanding .reeve u = false) :
    remapSwap l s = { u with sys := { u.sys with remapped := true } } := by
  have hcond : (decide (getF fReeveCtlRemap .reeveCtl u = 1) && !outstanding .reeve u) = true := by
    rw [ho, decide_eq_true hr]; rfl
  rw [remapSwap, hu]
  exact if_pos hcond

theorem remapSwap_stays {l : List ReeveAccess} {s u : State} (hu : l.foldl (fun s x => reeveAccess x s) s = u)
    (h : getF fReeveCtlRemap .reeveCtl u = 0 ∨ outstanding .reeve u = true) : remapSwap l s = u := by
  have hcond : ¬(decide (getF fReeveCtlRemap .reeveCtl u = 1) && !outstanding .reeve u) = true := by
    rcases h with h | h
    · rw [h]; exact Bool.false_ne_true
    · rw [h, Bool.not_true, Bool.and_false]; exact Bool.false_ne_true
  rw [remapSwap, hu]
  exact if_neg hcond

/-- Settles O14: each command by the lemmas of its operation. -/
theorem fabricHousekeeping : Obligations.FabricHousekeeping := by
  intro port serial cls l s hs
  refine ⟨(act_run hs).trans (congrArg _ (qosAgeing_eq _ _ _)),
    fun hd ho => (act_run hs).trans (congrArg _ (masterDrained_released hd ho)),
    fun h => (act_run hs).trans (congrArg _ (masterDrained_waits h)),
    ⟨allotmentRefill s, act_run hs, foldl_refillBucket_frame _ _, fun hsorted m => ?_⟩,
    fun hr ho => (act_run hs).trans (congrArg _ (remapSwap_swaps rfl hr ho)),
    fun h => (act_run hs).trans (congrArg _ (remapSwap_stays rfl h))⟩
  rw [allotmentRefill_eq]
  exact tokensOf_foldl_refillBucket (List.nodup_finRange 3) (List.mem_finRange m) hsorted

end Sys2Proof.Machine
end

section
/-!
SUPPORT. Accesses of the host that no register takes: those that are unsupported, and window writes.
-/
namespace Sys2Proof.Machine

/-- What an access that leaves the split-write latch alone does when it takes effect: its rule, on the state as it stands (log 22). -/
theorem actFrom_accepts {m : Master} {f : State → State} {s : State} (h : Accepts m s) : actFrom m f s = .next (f s) :=
  actFrom_run h.1 h.2

/-- An access that nothing takes completes as Unsupported Request, and drops the latch in BAR0 (R39, R285, R286). -/
theorem mmioAccess_bad {a : BarAccess} {s : State} (h : a.toReeve = true ∨ (a.size ≠ 4 ∧ a.size ≠ 8) ∨ a.offset % a.size ≠ 0) :
    mmioAccess a s = emit .unsupported (if a.bar4 then s else accessed .host s) := by
  have hbad : (a.toReeve || (a.size ≠ 4 && a.size ≠ 8) || a.offset % a.size ≠ 0) = true := by
    simp only [Bool.or_eq_true, Bool.and_eq_true, decide_eq_true_eq]
    exact or_assoc.mpr h
  rw [mmioAccess, if_pos hbad]
  rfl

/-- A window write that is not aligned to its size is unsupported, any other has the window's effect (R285). -/
theorem inputMapWindowWrite_accepts {o : BitVec 19} {wide : Bool} {value : Qword} {s : State} (h : Accepts .host s) :
    exec (.inputMapWindowWrite o wide value) s = .next (if o.toNat % windowBytes wide ≠ 0 then emit .unsupported (accessed .host s)
      else mapWindow o.toNat (windowBytes wide) value.toNat (accessed .host s)) := by
  change execInputMapWindowWrite o wide value s = _
  rw [execInputMapWindowWrite, actBy_accepts h]

theorem delayWindowWrite_accepts {o : BitVec 27} {wide : Bool} {value : Qword} {s : State} (h : Accepts .host s) :
    exec (.delayWindowWrite o wide value) s = .next (if o.toNat % windowBytes wide ≠ 0 then emit .unsupported s
      else delayWindow o.toNat (windowBytes wide) value.toNat s) := by
  change execDelayWindowWrite o wide value s = _
  rw [execDelayWindowWrite, actFrom_accepts h]

theorem recoveryBufferWrite_accepts {o : BitVec 23} {wide : Bool} {value : Qword} {s : State} (h : Accepts .host s) :
    exec (.recoveryBufferWrite o wide value) s = .next (if o.toNat % windowBytes wide ≠ 0 then emit .unsupported s
      else if bootStage s = 6 then
        let bs := leBytes (windowBytes wide) value.toNat
        { s with sys := { s.sys with recovery := storeSetList (fun _ => 0) s.sys.recovery o.toNat bs } }
      else s) := by
  change execRecoveryBufferWrite o wide value s = _
  rw [execRecoveryBufferWrite, actFrom_accepts h]

/-- Settles O12: by the access's grounds, and for each window by its alignment. -/
theorem otherAccesses : Obligations.OtherAccesses := by
  refine ⟨fun a s hs hbad => (actFrom_accepts hs).trans (congrArg _ (mmioAccess_bad hbad)), fun o19 o27 o23 wide value s hs => ?_⟩
  refine ⟨fun h => ?_, fun h => ?_, fun h hstage => ?_, fun h hstage => ?_, fun h => ?_, fun h => ?_, fun h => ?_⟩
  · exact (inputMapWindowWrite_accepts hs).trans (congrArg _ (if_neg (not_not_intro h)))
  · exact (delayWindowWrite_accepts hs).trans (congrArg _ (if_neg (not_not_intro h)))
  · exact (recoveryBufferWrite_accepts hs).trans (congrArg _ ((if_neg (not_not_intro h)).trans (if_pos hstage)))
  · exact (recoveryBufferWrite_accepts hs).trans (congrArg _ ((if_neg (not_not_intro h)).trans (if_neg hstage)))
  · exact (inputMapWindowWrite_accepts hs).trans (congrArg _ (if_pos h))
  · exact (delayWindowWrite_accepts hs).trans (congrArg _ (if_pos h))
  · exact (recoveryBufferWrite_accepts hs).trans (congrArg _ (if_pos h))

end Sys2Proof.Machine
end

section
/-!
SUPPORT. A frame that an Ethernet port receives: what the port does with it by its checks, and where non-ingress handling takes it.
-/
namespace Sys2Proof.Machine

/-! ### A frame's checks -/

/-- The frame less its FCS. -/
def frameBody (rx : EthRx) : List Byte := rx.frame.take (rx.frame.length - 4)

/-- A frame of 18 to 9,216 bytes whose last four bytes are the CRC of the rest (R40, R270). -/
def FrameGood (rx : EthRx) : Prop :=
  18 ≤ rx.frame.length ∧ rx.frame.length ≤ 9216 ∧ leAt rx.frame (rx.frame.length - 4) 4 = crc32 (frameBody rx)

/-- The port's check of length and FCS fails exactly the frames that are not good. -/
theorem fcsCheck_iff (rx : EthRx) :
    (rx.frame.length > 9216 || rx.frame.length < 18 || leAt rx.frame (rx.frame.length - 4) 4 ≠ crc32 (frameBody rx)) = true ↔ ¬FrameGood rx := by
  simp only [FrameGood, Bool.or_eq_true, decide_eq_true_eq]
  omega

/-- Where a frame goes that passed the port's checks, as ethClass sorts it (R40). -/
def sortFrame (port : Fin 8) (rx : EthRx) (s : State) : State :=
  match ethClass (frameBody rx) (getF fIngCfgUdpPort .ingCfg s) with
  | .ingress u n => ingressPayload u n s
  | .badHdr => bump .ingBadHdr 1 s
  | .badCsum => bump .ingBadCsum 1 s
  | .other => nonIngress port.val (frameBody rx) rx.stamp s

/-- A frame received once its FEC results are counted, its conditions in the order of R22, R40, R270 and R328. -/
theorem ethFrame_up {port : Fin 8} {rx : EthRx} {s t : State} (hup : portUp port.val s = true)
    (ht : fecCount port.val rx.fecCorr rx.fecUncorr s = t) : ethFrame port.val rx s =
      if rx.fifoFull then fifoFault port.val t
      else if rx.fecUncorr > 0 then t
      else if rx.frame.length > 9216 || rx.frame.length < 18 || leAt rx.frame (rx.frame.length - 4) 4 ≠ crc32 (frameBody rx) then
        bump (.laneFcsErr port) 1 t
      else if rx.parityError then sramError .uncorrectable t
      else sortFrame port rx t := by
  subst ht
  rw [ethFrame, hup, Fin.ofNat_val_eq_self]
  rfl

section
variable {port : Fin 8} {rx : EthRx} {s : State}

/-- A port that is not up receives nothing. -/
theorem ethFrame_down (hup : portUp port.val s = false) : ethFrame port.val rx s = s := by
  rw [ethFrame, hup]
  rfl

variable (hup : portUp port.val s = true)
include hup

theorem ethFrame_fifoFull (hfull : rx.fifoFull = true) :
    ethFrame port.val rx s = fifoFault port.val (fecCount port.val rx.fecCorr rx.fecUncorr s) := by
  rw [ethFrame_up hup rfl, if_pos hfull]

variable (hfifo : rx.fifoFull = false)
include hfifo

theorem ethFrame_uncorrectable (hfec : 0 < rx.fecUncorr) :
    ethFrame port.val rx s = fecCount port.val rx.fecCorr rx.fecUncorr s := by
  rw [ethFrame_up hup rfl, if_neg (ne_true_of_eq_false hfifo), if_pos hfec]

variable (hfec : rx.fecUncorr = 0)
include hfec

/-- A frame without uncorrectable codewords comes to the check of its length and FCS. -/
theorem ethFrame_checked : ethFrame port.val rx s =
    if rx.frame.length > 9216 || rx.frame.length < 18 || leAt rx.frame (rx.frame.length - 4) 4 ≠ crc32 (frameBody rx) then
      bump (.laneFcsErr port) 1 (fecCount port.val rx.fecCorr rx.fecUncorr s)
    else if rx.parityError then sramError .uncorrectable (fecCount port.val rx.fecCorr rx.fecUncorr s)
    else sortFrame port rx (fecCount port.val rx.fecCorr rx.fecUncorr s) := by
  rw [ethFrame_up hup rfl, if_neg (ne_true_of_eq_false hfifo), if_neg (Nat.not_lt.mpr hfec.le)]

theorem ethFrame_fcsError (hbad : ¬FrameGood rx) :
    ethFrame port.val rx s = bump (.laneFcsErr port) 1 (fecCount port.val rx.fecCorr rx.fecUncorr s) := by
  rw [ethFrame_checked hup hfifo hfec, if_pos ((fcsCheck_iff rx).mpr hbad)]

variable (hgood : FrameGood rx)
include hgood

theorem ethFrame_parityError (hparity : rx.parityError = true) :
    ethFrame port.val rx s = sramError .uncorrectable (fecCount port.val rx.fecCorr rx.fecUncorr s) := by
  rw [ethFrame_checked hup hfifo hfec, if_neg (mt (fcsCheck_iff rx).mp (not_not_intro hgood)), if_pos hparity]

theorem ethFrame_sorted (hparity : rx.parityError = false) :
    ethFrame port.val rx s = sortFrame port rx (fecCount port.val rx.fecCorr rx.fecUncorr s) := by
  rw [ethFrame_checked hup hfifo hfec, if_neg (mt (fcsCheck_iff rx).mp (not_not_intro hgood)),
    if_neg (ne_true_of_eq_false hparity)]

end

/-! ### Non-ingress handling -/

section
variable {g : Fin 8} {f r m : List Byte} {tr : Nat} {x : PcsStamp} {s : State}

theorem nonIngress_ptp (hptp : ptpOf f = some (tr, m)) : nonIngress g.val f x s = ptpFrameIn g.val tr m x s := by
  rw [nonIngress, hptp]

theorem nonIngress_arp (hptp : ptpOf f = none) (harp : arpReply g.val f s = some r) : nonIngress g.val f x s = portFrame g.val r s := by
  rw [nonIngress, hptp, harp]

theorem nonIngress_neighbour (hptp : ptpOf f = none) (harp : arpReply g.val f s = none) (hnd : neighbourReply g.val f s = some r) :
    nonIngress g.val f x s = portFrame g.val r s := by
  rw [nonIngress, hptp, harp, hnd]

theorem nonIngress_other (hptp : ptpOf f = none) (harp : arpReply g.val f s = none) (hnd : neighbourReply g.val f s = none) :
    nonIngress g.val f x s = bump (.laneOther g) 1 s := by
  rw [nonIngress, hptp, harp, hnd, Fin.ofNat_val_eq_self]

end

/-- Settles O15: the port's checks in their order, then the cases of non-ingress handling. -/
theorem ethernetFrame : Obligations.EthernetFrame := by
  refine ⟨fun port rx s hs => ?_, fun g f x s => ⟨fun tr m => nonIngress_ptp, fun r => nonIngress_arp, fun r => nonIngress_neighbour,
    nonIngress_other⟩⟩
  have hexec : exec (.ethFrameReceive port rx) s = .next (ethFrame port.val rx s) := act_run hs
  refine ⟨fun hup => ?_, fun hup hfull => ?_, fun hup hfifo hfec => ?_, fun hup hfifo hfec hbad => ?_,
    fun hup hfifo hfec hgood hparity => ?_, fun hup hfifo hfec hgood hparity => ?_⟩
  · exact hexec.trans (congrArg _ (ethFrame_down hup))
  · exact hexec.trans (congrArg _ (ethFrame_fifoFull hup hfull))
  · exact hexec.trans (congrArg _ (ethFrame_uncorrectable hup hfifo hfec))
  · exact hexec.trans (congrArg _ (ethFrame_fcsError hup hfifo hfec hbad))
  · exact hexec.trans (congrArg _ (ethFrame_parityError hup hfifo hfec hgood hparity))
  · exact hexec.trans (congrArg _ (ethFrame_sorted hup hfifo hfec hgood hparity))

end Sys2Proof.Machine
end

section
/-!
SUPPORT. What a PTP interval sends, which batch a batch window closes, and what ING_TABLE_INVAL marks for rereading.
-/
namespace Sys2Proof.Machine

/-! ### PTP transmission -/

section
variable {up : Bool} {p q : Prop} [Decidable p] [Decidable q] {u v : State}

/-- What a port that is up sends where neither ground against it holds: the shape of each message's conditions in ptpTx (R232). -/
theorem guarded_sends (hup : up = true) (hp : ¬p) (hq : ¬q) : (if !up then u else if p || q then u else v) = v := by
  simp [hup, hp, hq]

theorem guarded_silent (h : up = false ∨ p ∨ q) : (if !up then u else if p || q then u else v) = u := by
  rcases h with h | h
  · simp [h]
  · simp [h]

end

/-! ### Batch windows -/

/-- The key of the batch of ordinal `ord` in the filling copy, once a granule of it has come. -/
def Part.openKeys (x : Part) (ord : Nat) : List (Nat × Nat) :=
  match x.fill with
  | some c => if c.batches.any fun b => b.ord = ord && b.firstAt.isSome then [(x.stage, ord)] else []
  | none => []

/-- A granule of the batch of ordinal `ord` has come to the filling copy. -/
def Part.isOpen (x : Part) (ord : Nat) : Bool :=
  match x.fill with
  | some c => c.batches.any fun b => b.ord = ord && b.firstAt.isSome
  | none => false

theorem openKeys_eq (x : Part) (ord : Nat) : x.openKeys ord = if x.isOpen ord then [(x.stage, ord)] else [] := by
  unfold Part.openKeys Part.isOpen
  cases x.fill with
  | none => rfl
  | some c => rfl

/-- The keys a batch window of ordinal `ord` may mark ready, oldest first: the open batch in its buffer, then what is parked (R46). -/
def Part.windowKeys (x : Part) (ord : Nat) : List (Nat × Nat) :=
  x.openKeys ord ++ (x.parked.filter fun pk => (pk.ord (x.cfgAt pk.sample)) = ord).map fun pk => (x.stageAt pk.sample, ord)

/-- The partition with a batch, where one is given, marked ready to close. -/
def markReady (p : Fin 8) (key : Option (Nat × Nat)) (s : State) : State :=
  match key with
  | none => s
  | some k => setPart p { partOf p s with readyOrds := (partOf p s).readyOrds ++ [k] } s

/-- A batch window marks the first of its keys that is not marked yet. -/
theorem windowExpire_eq (p : Fin 8) (ord : Nat) (s : State) : windowExpire p ord s =
    markReady p (((partOf p s).windowKeys ord).find? fun k => !decide (k ∈ (partOf p s).readyOrds)) s := by
  rw [Part.windowKeys, openKeys_eq]
  rfl

theorem windowExpire_first {p : Fin 8} {ord : Nat} {s : State} {pre post : List (Nat × Nat)} {k : Nat × Nat}
    (hkeys : (partOf p s).windowKeys ord = pre ++ k :: post) (hpre : ∀ j ∈ pre, j ∈ (partOf p s).readyOrds)
    (hk : k ∉ (partOf p s).readyOrds) :
    windowExpire p ord s = setPart p { partOf p s with readyOrds := (partOf p s).readyOrds ++ [k] } s := by
  have hfind : ((partOf p s).windowKeys ord).find? (fun k => !decide (k ∈ (partOf p s).readyOrds)) = some k :=
    List.find?_eq_some_iff_append.mpr ⟨by simp [hk], pre, post, hkeys, fun j hj => by simp [hpre j hj]⟩
  rw [windowExpire_eq, hfind]
  rfl

theorem windowExpire_marked {p : Fin 8} {ord : Nat} {s : State}
    (h : ∀ k ∈ (partOf p s).windowKeys ord, k ∈ (partOf p s).readyOrds) : windowExpire p ord s = s := by
  have hfind : ((partOf p s).windowKeys ord).find? (fun k => !decide (k ∈ (partOf p s).readyOrds)) = none :=
    List.find?_eq_none.mpr fun k hk => by simp [h k hk]
  rw [windowExpire_eq, hfind]
  rfl

/-! ### Changes of partitions -/

theorem partOf_onPart_same {p : Fin 8} {f : Part → Part} {s : State} (h : storeSorted none s.parts = true) :
    partOf p (onPart p f s) = f (partOf p s) :=
  storeGet_set_same _ _ _ _ h

theorem partOf_onPart_other {p q : Fin 8} {f : Part → Part} {s : State} (h : q ≠ p) : partOf q (onPart p f s) = partOf q s :=
  storeGet_set_other _ _ _ _ _ (Fin.val_ne_of_ne h)

theorem onPart_sorted {p : Fin 8} {f : Part → Part} {s : State} (h : storeSorted none s.parts = true) :
    storeSorted none (onPart p f s).parts = true := storeSorted_set (d := fun _ => Part.idle) h

/-- The partitions of a list changed in turn. -/
def onParts (l : List (Fin 8)) (f : Part → Part) (s : State) : State := l.foldl (fun s p => onPart p f s) s

/-- Changing partitions changes nothing else. -/
theorem onParts_frame (l : List (Fin 8)) (f : Part → Part) (s : State) : onParts l f s = { s with parts := (onParts l f s).parts } := by
  induction l generalizing s with
  | nil => rfl
  | cons p l ih => exact ih (onPart p f s)

theorem partOf_onParts_other {q : Fin 8} {l : List (Fin 8)} {f : Part → Part} {s : State} (h : q ∉ l) :
    partOf q (onParts l f s) = partOf q s := by
  induction l generalizing s with
  | nil => rfl
  | cons p l ih =>
    have hp : q ≠ p := List.ne_of_not_mem_cons h
    exact (ih (List.not_mem_of_not_mem_cons h)).trans (partOf_onPart_other hp)

/-- Of distinct partitions changed in turn, each is changed once. -/
theorem partOf_onParts {q : Fin 8} {l : List (Fin 8)} {f : Part → Part} {s : State} (hn : l.Nodup) (hq : q ∈ l)
    (hs : storeSorted none s.parts = true) : partOf q (onParts l f s) = f (partOf q s) := by
  induction l generalizing s with
  | nil => exact absurd hq List.not_mem_nil
  | cons p l ih =>
    obtain ⟨hp, hl⟩ := List.nodup_cons.mp hn
    by_cases hqp : q = p
    · subst hqp
      exact (partOf_onParts_other hp).trans (partOf_onPart_same hs)
    · have hql : q ∈ l := (List.mem_cons.mp hq).resolve_left hqp
      exact (ih hl hql (onPart_sorted hs)).trans (congrArg f (partOf_onPart_other hqp))

/-- A change of every partition of a well-kept state, and of nothing else. -/
theorem onParts_all (f : Part → Part) (s : State) :
    onParts (List.finRange 8) f s = { s with parts := (onParts (List.finRange 8) f s).parts } ∧
    (StateInv s → ∀ q : Fin 8, partOf q (onParts (List.finRange 8) f s) = f (partOf q s)) := by
  refine ⟨onParts_frame _ _ _, fun h q => partOf_onParts (List.nodup_finRange 8) (List.mem_finRange q) ?_⟩
  obtain ⟨-, -, hparts, -⟩ := h.canonical
  exact storeWfFrom_sorted hparts

/-! ### Entries marked for rereading -/

section
variable {v : Payload} {s : State}

/-- ING_TABLE_INVAL on the input map: one entry of the partition named. -/
theorem tableInval_mapEntry (htable : fld fIngTableInvalTable v = 0) (hall : fld fIngTableInvalAll v = 0) :
    tableInval v s = onPart (Fin.ofNat 8 (fld fIngTableInvalPart v)) (fun x =>
      { x with stale := if fld fIngTableInvalIndex v ∈ x.stale then x.stale else x.stale ++ [fld fIngTableInvalIndex v] }) s := by
  have hone : ¬fld fIngTableInvalAll v = 1 := by omega
  simp only [tableInval, if_pos htable, if_neg hone]

/-- ING_TABLE_INVAL on the input map: every entry of the partition named. -/
theorem tableInval_mapAll (htable : fld fIngTableInvalTable v = 0) (hall : fld fIngTableInvalAll v = 1) :
    tableInval v s = onPart (Fin.ofNat 8 (fld fIngTableInvalPart v)) (fun x => { x with stale := List.range 4096 }) s := by
  simp only [tableInval, if_pos htable, if_pos hall]

variable (htable : fld fIngTableInvalTable v = 1)
include htable

/-- ING_TABLE_INVAL on the threshold sets: every set, in every partition. -/
theorem tableInval_setsAll (hall : fld fIngTableInvalAll v = 1) :
    tableInval v s = onParts (List.finRange 8) (fun x => { x with thrStale := List.range 256 }) s := by
  have hone : ¬fld fIngTableInvalTable v = 0 := by omega
  rw [tableInval, if_neg hone, if_pos hall]
  rfl

variable (hall : fld fIngTableInvalAll v = 0)
include hall

/-- ING_TABLE_INVAL on the threshold sets: one of the 256, in every partition. -/
theorem tableInval_set (hi : fld fIngTableInvalIndex v < 256) :
    tableInval v s = onParts (List.finRange 8) (fun x =>
      { x with thrStale := if fld fIngTableInvalIndex v ∈ x.thrStale then x.thrStale else x.thrStale ++ [fld fIngTableInvalIndex v] }) s := by
  have hone : ¬fld fIngTableInvalTable v = 0 := by omega
  have hone' : ¬fld fIngTableInvalAll v = 1 := by omega
  rw [tableInval, if_neg hone, if_neg hone', if_pos hi]
  rfl

/-- There is no threshold set past the 256 to mark. -/
theorem tableInval_pastSets (hi : 256 ≤ fld fIngTableInvalIndex v) : tableInval v s = s := by
  have hone : ¬fld fIngTableInvalTable v = 0 := by omega
  have hone' : ¬fld fIngTableInvalAll v = 1 := by omega
  rw [tableInval, if_neg hone, if_neg hone', if_neg (Nat.not_lt.mpr hi)]

end

/-- Settles O16: a PTP interval by the conditions of its message, a batch window by its keys, ING_TABLE_INVAL by its table and entries. -/
theorem ptpAndIngressMarks : Obligations.PtpAndIngressMarks := by
  refine ⟨fun sent s hs => ?_, fun p ord s hs => ?_⟩
  · have hexec (msg) : exec (.ptpTxInterval msg sent) s = .next (ptpTx msg sent s) := act_run hs
    refine ⟨fun hup hrole hstate => (hexec _).trans (congrArg _ ?_), fun hup hrole hstate => (hexec _).trans (congrArg _ ?_),
      fun hup hrole hstate => (hexec _).trans (congrArg _ ?_), fun h => (hexec _).trans (congrArg _ ?_),
      fun h => (hexec _).trans (congrArg _ ?_), fun h => (hexec _).trans (congrArg _ ?_)⟩
    · exact guarded_sends hup (not_not_intro hrole) (not_not_intro hstate)
    · exact guarded_sends hup (not_not_intro hrole) hstate
    · exact guarded_sends hup hrole (not_not_intro hstate)
    · exact guarded_silent h
    · exact guarded_silent h
    · exact guarded_silent h
  · have hwindow : exec (.batchWindowExpire p ord) s = .next (windowExpire p ord s) := act_run hs
    refine ⟨fun pre k post hkeys hpre hk => hwindow.trans (congrArg _ (windowExpire_first hkeys hpre hk)),
      fun h => hwindow.trans (congrArg _ (windowExpire_marked h)), fun m value hm => ?_⟩
    have hinval : exec (.ingTableInval m value) s = .next (tableInval value (accessed m s)) := actBy_accepts hm
    refine ⟨fun htable hall => ?_, fun htable hall => ?_, fun htable hall => ?_, fun htable hall hi => ?_, fun htable hall hi => ?_⟩
    · exact hinval.trans (congrArg _ (tableInval_mapEntry htable hall))
    · exact hinval.trans (congrArg _ (tableInval_mapAll htable hall))
    · exact ⟨_, hinval.trans (congrArg _ (tableInval_setsAll htable hall)), onParts_all _ _⟩
    · exact ⟨_, hinval.trans (congrArg _ (tableInval_set htable hall hi)), onParts_all _ _⟩
    · exact hinval.trans (congrArg _ (tableInval_pastSets htable hall hi))

end Sys2Proof.Machine
end

section
/-!
SUPPORT. A descriptor's completion by its cases, the partition that a START leaves, and a core as STW_RUN starts it.
-/
namespace Sys2Proof.Machine

/-! ### A completion by its cases -/

/-- Bytes laid out least significant first are as many as asked for. -/
@[simp] theorem leBytes_length (n x : Nat) : (leBytes n x).length = n := by
  induction n generalizing x with
  | zero => rfl
  | succ n ih => exact congrArg (· + 1) (ih _)

/-- A completion is of 32 bytes (Table 12-10). -/
theorem completionEntry_length (d : Desc) (status r0 r1 phase attn time : Nat) :
    (completionEntry d status r0 r1 phase attn time).length = 32 := by
  simp [completionEntry]

/-- The state once a descriptor ends: it has left flight, and its reserved entry is given back (R288, R299). -/
def released (d : Desc) (s : State) : State := releaseCpl d.cpl (dropDesc d s)

/-- A descriptor that ended is no longer in flight. -/
theorem released_notInflight {d e : Desc} {s : State} (h : e ∈ (released d s).hif.inflight) : ¬(e.tag = d.tag ∧ e.ring = d.ring) := by
  have hkept : (!(decide (e.tag = d.tag) && decide (e.ring = d.ring))) = true := (List.mem_filter.mp h).2
  simpa [imp_iff_not_or] using hkept

/-- What keeps a completion out of its ring: the link went down, or the ring is no enabled CPL ring (R287, R304). -/
def Unwritable (d : Desc) (s : State) : Prop :=
  d.orphan = true ∨ hostOpen s = false ∨ ringF fRingCfgEn (Fin.ofNat 16384 d.cpl) s = 0 ∨ ringF fRingCfgType (Fin.ofNat 16384 d.cpl) s ≠ 1

section
variable {d : Desc} {status r0 r1 : Nat} {s : State}

/-- The condition under which a completion is discarded, as the writer tests it. -/
theorem unwritable_iff : (d.orphan || !hostOpen s || ringF fRingCfgEn (Fin.ofNat 16384 d.cpl) s = 0 ||
    ringF fRingCfgType (Fin.ofNat 16384 d.cpl) s ≠ 1) = true ↔ Unwritable d s := by
  simp [Unwritable, or_assoc]

theorem writeCompletion_unwritable (h : Unwritable d s) :
    writeCompletion d status r0 r1 s = setTagRec d.tag ⟨true, status, d.opcode, false⟩ s := by
  rw [writeCompletion, if_pos (unwritable_iff.mpr h)]

/-- A completion written: its entry at the ring's next place, IDX, the tag's record and the ring's vector (R291, R298, R313). -/
theorem writeCompletion_written (h : ¬Unwritable d s) :
    writeCompletion d status r0 r1 s =
      (let n := Fin.ofNat 16384 d.cpl
       let x := ringIdx n s
       ringIrq n d.irq (setTagRec d.tag ⟨true, status, d.opcode, true⟩ (setF fRingIdxIdx (.ringIdx n) (x + 1)
        (hostWrite (ringAddr n x s) (completionEntry d status r0 r1 (ringPhase n x s) (attnNat s) (timeWord s)) s)))) := by
  rw [writeCompletion, if_neg (mt unwritable_iff.mp h)]

/-- A descriptor whose completion waits is not completed again. -/
theorem complete_waiting (hw : d.waits s = true) : complete d status r0 r1 s = s := by
  rw [complete, if_pos hw]

variable (hw : d.waits s = false)
include hw

theorem complete_waitsForExit (hx : waitsForExit d status s = true) :
    complete d status r0 r1 s = { s with hif := { s.hif with waiting := s.hif.waiting ++ [⟨d, status, r0, r1⟩] } } := by
  rw [complete, if_neg (ne_true_of_eq_false hw), if_pos hx]

variable (hx : waitsForExit d status s = false)
include hx

/-- A descriptor that ends: QUIET and success leave only the tag's record, anything else goes to the writer. -/
theorem complete_ends : complete d status r0 r1 s =
    if d.quiet && status = 0 then setTagRec d.tag ⟨true, status, d.opcode, false⟩ (released d s)
    else writeCompletion d status r0 r1 (released d s) := by
  rw [complete, if_neg (ne_true_of_eq_false hw), if_neg (ne_true_of_eq_false hx)]
  rfl

theorem complete_recorded (h : (d.quiet = true ∧ status = 0) ∨ Unwritable d (released d s)) :
    complete d status r0 r1 s = setTagRec d.tag ⟨true, status, d.opcode, false⟩ (released d s) := by
  rw [complete_ends hw hx]
  split_ifs with hq
  · rfl
  · exact writeCompletion_unwritable (h.resolve_left (by simpa using hq))

theorem complete_written (hq : ¬(d.quiet = true ∧ status = 0)) :
    complete d status r0 r1 s = writeCompletion d status r0 r1 (released d s) := by
  rw [complete_ends hw hx, if_neg (by simpa using hq)]

end

/-! ### The partition a START leaves -/

/-- A partition is read from the partitions stored, and from nothing else. -/
theorem partOf_congr {p : Fin 8} {s t : State} (h : t.parts = s.parts) : partOf p t = partOf p s :=
  congrArg (storeGet (fun _ => Part.idle) · p.val) h

@[simp] theorem leaveStandby_parts (s : State) : (leaveStandby s).parts = s.parts := by
  unfold leaveStandby
  split <;> rfl

@[simp] theorem startCrib_parts (c : CaptCfg) (s0 : Option Nat) (slots : Option (List CaptSlot)) (s : State) :
    (startCrib c s0 slots s).parts = s.parts := by
  unfold startCrib
  split <;> rfl

@[simp] theorem ringIrq_parts (n : Fin 16384) (force : Bool) (s : State) : (ringIrq n force s).parts = s.parts := by
  obtain ⟨_, _, _, h⟩ := ringIrq_frame n force s
  rw [h]

@[simp] theorem hostWrite_parts (a : Nat) (bs : List Byte) (s : State) : (hostWrite a bs s).parts = s.parts := by
  rw [hostWrite_frame]

@[simp] theorem writeCompletion_parts (d : Desc) (status r0 r1 : Nat) (s : State) : (writeCompletion d status r0 r1 s).parts = s.parts := by
  by_cases h : Unwritable d s
  · rw [writeCompletion_unwritable h, setTagRec_parts]
  · simp [writeCompletion_written h]

/-- Completing a descriptor leaves the partitions. -/
@[simp] theorem complete_parts (d : Desc) (status r0 r1 : Nat) (s : State) : (complete d status r0 r1 s).parts = s.parts := by
  cases hw : d.waits s with
  | true => rw [complete_waiting hw]
  | false =>
    cases hx : waitsForExit d status s with
    | true => rw [complete_waitsForExit hw hx]
    | false =>
      rw [complete_ends hw hx]
      split
      · rfl
      · exact writeCompletion_parts _ _ _ _ _

@[simp] theorem partOf_setPart_same {p : Fin 8} {x : Part} {s : State} (h : storeSorted none s.parts = true) : partOf p (setPart p x s) = x :=
  storeGet_set_same _ _ _ _ h

/-- The partition as START stores it: an idle one under the descriptor's configuration, with a free region and Granary range of its own, the
sequence counters and the delay banks of the partition before (R76, R181). -/
def startedPart (d : Desc) (s : State) : Part :=
  let c := decodeCfg d
  let x := partOf d.part s
  { Part.idle with
    started := true, cfg := c, epochs := [⟨1, 0, 0, c, none⟩], serial := 1, partAnchor := ⟨1, 0, 0⟩, stage := 1,
    regionAt := (freeRange (takenRanges (some d.part) s) c.region).getD 0,
    ranges := ((placeAll (granRegion s) (granTaken s) [(1, c.granary)]).getD []).map fun r => ⟨r.1, r.2.1, r.2.2⟩,
    stale := List.range 4096, thrStale := List.range 256, seqs := x.seqs, bank := x.bank, refSample := x.refSample, commit := x.commit }

/-- Of the partitions START changes the descriptor's. -/
theorem startPart_parts (d : Desc) (s : State) :
    (startPart d s).parts = (setPart d.part (startedPart d (leaveStandby s)) (leaveStandby s)).parts := by
  refine (complete_parts ..).trans ?_
  split
  · split
    · exact startCrib_parts ..
    · rfl
  · rfl

theorem partOf_startPart {d : Desc} {s : State} (h : StateInv s) : partOf d.part (startPart d s) = startedPart d (leaveStandby s) := by
  obtain ⟨-, -, hparts, -⟩ := h.canonical
  have hsorted : storeSorted none (leaveStandby s).parts = true := by
    rw [leaveStandby_parts]
    exact storeWfFrom_sorted hparts
  rw [partOf_congr (startPart_parts d s), partOf_setPart_same hsorted]

/-- Settles O47: a completion by what it waits for and what takes it, START by the partition it stores, STW_RUN by the core it starts. -/
theorem completions : Obligations.Completions := by
  refine ⟨fun d status r0 r1 s _ => ⟨complete_waiting, complete_waitsForExit, fun _ => released_notInflight,
    fun hw hx h => complete_recorded hw hx h, fun hw hx hq ho hopen hen htype => ?_, completionEntry_length ..⟩,
    fun d s h => ?_, fun p pc x => ?_⟩
  · have hwritable : ¬Unwritable d (released d s) := by
      rintro (h | h | h | h)
      · exact ne_true_of_eq_false ho h
      · exact ne_true_of_eq_false h hopen
      · exact hen h
      · exact h htype
    exact (complete_written hw hx hq).trans (writeCompletion_written hwritable)
  · rw [partOf_startPart h, ← partOf_congr (leaveStandby_parts s)]
    exact ⟨rfl, rfl, rfl, rfl, rfl, rfl, rfl, by rw [startedPart], rfl, rfl⟩
  · exact ⟨rfl, rfl, rfl, rfl, rfl, rfl, rfl, rfl, rfl, rfl, rfl, rfl, rfl⟩

end Sys2Proof.Machine
end

section
/-!
SUPPORT. When a staging region may rotate, and what its rotation does with an SRAM error found as it does.
-/
namespace Sys2Proof.Machine

/-! ### The conditions of a rotation -/

/-- The filling copy lets the region rotate: complete, or for a STOP complete in what came of it (R75, R76). -/
def fillAllows (x : Part) : Bool :=
  if x.stopping then x.fill.all (stopReady x) else x.fill.any fun c => c.batches.all (batchReady x c)

theorem fillAllows_iff (x : Part) : fillAllows x = true ↔
    (x.stopping = false ∧ ∃ c, x.fill = some c ∧ ∀ b ∈ c.batches, batchReady x c b = true) ∨
    (x.stopping = true ∧ ∀ c, x.fill = some c → ∀ b ∈ c.batches, b.firstAt.isSome → batchReady x c b = true) := by
  unfold fillAllows
  cases x.stopping <;> simp [Option.all_eq_true, Option.any_eq_true, stopReady, imp_iff_not_or]

/-- The conditions of R75, one for each copy of the region. -/
theorem mayRotate_eq (p : Fin 8) (s : State) : mayRotate p s =
    ((partOf p s).started && !(partOf p s).stopped && fillAllows (partOf p s) && (partOf p s).comp.all (·.finished) &&
      (partOf p s).ret.all fun c => c.batches.all fun b => classified p c b s) := by
  refine congrArg₂ and (congrArg₂ and (congrArg (and _) ?fill) ?comp) ?ret
  case fill =>
    unfold fillAllows
    cases (partOf p s).fill <;> cases (partOf p s).stopping <;> rfl
  case comp => cases (partOf p s).comp <;> rfl
  case ret => cases (partOf p s).ret <;> rfl

theorem mayRotate_iff (p : Fin 8) (s : State) : mayRotate p s = true ↔
    (partOf p s).started = true ∧ (partOf p s).stopped = false ∧
    ((partOf p s).stopping = false ∧ (∃ c, (partOf p s).fill = some c ∧ ∀ b ∈ c.batches, batchReady (partOf p s) c b = true) ∨
      (partOf p s).stopping = true ∧
        ∀ c, (partOf p s).fill = some c → ∀ b ∈ c.batches, b.firstAt.isSome → batchReady (partOf p s) c b = true) ∧
    (∀ c, (partOf p s).comp = some c → c.finished = true) ∧
    (∀ c, (partOf p s).ret = some c → ∀ b ∈ c.batches, classified p c b s = true) := by
  rw [mayRotate_eq]
  simp only [Bool.and_eq_true, Bool.not_eq_true', fillAllows_iff, Option.all_eq_true, List.all_eq_true, and_assoc]

/-! ### The rotation -/

/-- The rotation itself: a STOP's, or a normal one once the weights of the filling copy are finished (R75, R76, R134). -/
def turnRegion (p : Fin 8) (s : State) : State :=
  if (partOf p s).stopping then rotateStop p s else rotateNormal p (readWeights p s)

theorem regionRotate_blocked {p : Fin 8} {ecc : Option RotateError} {s : State} (h : ¬mayRotate p s = true) : regionRotate p ecc s = s :=
  if_neg h

section
variable {p : Fin 8} {s : State} (h : mayRotate p s = true)
include h

theorem regionRotate_clean : regionRotate p none s = turnRegion p s := if_pos h

/-- A corrected error is counted once the region has rotated (R328). -/
theorem regionRotate_corrected (w : Nat) :
    regionRotate p (some (.corrected w)) s = sramError (.corrected w) (turnRegion p s) := if_pos h

/-- An uncorrectable error of the buffers withholds the batch in every closed copy that has it (R328). -/
theorem regionRotate_batch (ord : Nat) : regionRotate p (some (.batch ord)) s =
    (let u := sramError .uncorrectable (turnRegion p s)
     ((partOf p u).closed.filter fun c => (c.batch ord).isSome).foldl (fun s c => withholdBatch p c.epoch ord s) u) := if_pos h

/-- An entry of the input map reads as failed before the region rotates (R328). -/
theorem regionRotate_mapEntry (i : Fin 4096) :
    regionRotate p (some (.mapEntry i)) s = turnRegion p (tableError p (some (.mapEntry i)) s) := if_pos h

/-- A threshold set reads as failed before the region rotates (R328). -/
theorem regionRotate_thrSet (i : Fin 256) :
    regionRotate p (some (.thrSet i)) s = turnRegion p (tableError p (some (.thrSet i)) s) := if_pos h

end

/-- Settles O17: the conditions by mayRotate_iff, the rotation by the error it finds. -/
theorem regionRotates : Obligations.RegionRotates := by
  intro p s hs
  have hexec (ecc) : exec (.regionRotate p ecc) s = .next (regionRotate p ecc s) := act_run hs
  refine ⟨fun may hgo => ?_, fun may hstop => ?_, fun may w => ?_, fun may ord => ?_, fun may i => ?_, fun may i => ?_,
    fun hnot ecc => ?_⟩
  · rw [hexec, regionRotate_clean ((mayRotate_iff p s).mpr may), turnRegion, if_neg (ne_true_of_eq_false hgo)]
  · rw [hexec, regionRotate_clean ((mayRotate_iff p s).mpr may), turnRegion, if_pos hstop]
  · exact (hexec _).trans (congrArg _ (regionRotate_corrected ((mayRotate_iff p s).mpr may) w))
  · exact (hexec _).trans (congrArg _ (regionRotate_batch ((mayRotate_iff p s).mpr may) ord))
  · exact (hexec _).trans (congrArg _ (regionRotate_mapEntry ((mayRotate_iff p s).mpr may) i))
  · exact (hexec _).trans (congrArg _ (regionRotate_thrSet ((mayRotate_iff p s).mpr may) i))
  · exact (hexec _).trans (congrArg _ (regionRotate_blocked (mt (mayRotate_iff p s).mp hnot)))

end Sys2Proof.Machine
end

section
/-!
SUPPORT. The region the Mill serves next, a segment of it, and what draining a piece leads to.
-/
namespace Sys2Proof.Machine

/-! ### The region of the earliest deadline -/

/-- The earlier of two deadlines, the one held first where they are equal (R85). -/
def keepEarlier (held : Option (Fin 8 × ℚ)) (c : Fin 8 × ℚ) : Option (Fin 8 × ℚ) :=
  match held with
  | none => some c
  | some b => if c.2 < b.2 then some c else some b

/-- What keepEarlier holds is one of the two, and no later than either. -/
theorem keepEarlier_spec (held : Option (Fin 8 × ℚ)) (c : Fin 8 × ℚ) : ∃ r, keepEarlier held c = some r ∧
    (r = c ∨ held = some r) ∧ r.2 ≤ c.2 ∧ ∀ b, held = some b → r.2 ≤ b.2 := by
  cases held with
  | none => exact ⟨c, rfl, .inl rfl, le_rfl, nofun⟩
  | some b =>
    by_cases hlt : c.2 < b.2
    · exact ⟨c, if_pos hlt, .inl rfl, le_rfl, fun b' hb => Option.some.inj hb ▸ hlt.le⟩
    · exact ⟨b, if_neg hlt, .inr rfl, not_lt.mp hlt, fun b' hb => Option.some.inj hb ▸ le_rfl⟩

/-- Of a list gone through, and what was held before, the one of the earliest deadline is kept. -/
theorem foldl_keepEarlier {l : List (Fin 8 × ℚ)} {held : Option (Fin 8 × ℚ)} {r : Fin 8 × ℚ} (h : l.foldl keepEarlier held = some r) :
    (r ∈ l ∨ held = some r) ∧ (∀ c ∈ l, r.2 ≤ c.2) ∧ ∀ b, held = some b → r.2 ≤ b.2 := by
  induction l generalizing held with
  | nil => exact ⟨.inr h, nofun, fun b hb => (Option.some.inj (hb.symm.trans h) ▸ le_rfl)⟩
  | cons c l ih =>
    obtain ⟨hmem, hle, hheld⟩ := ih h
    obtain ⟨k, hk, hkmem, hkc, hkheld⟩ := keepEarlier_spec held c
    have hrk : r.2 ≤ k.2 := hheld k hk
    refine ⟨?_, fun c' hc' => ?_, fun b hb => hrk.trans (hkheld b hb)⟩
    · rcases hmem with hr | hr
      · exact .inl (List.mem_cons_of_mem c hr)
      · obtain rfl : k = r := Option.some.inj (hk.symm.trans hr)
        exact hkmem.imp_left fun heq => List.mem_cons.mpr (.inl heq)
    · rcases List.mem_cons.mp hc' with rfl | hl
      · exact hrk.trans hkc
      · exact hle c' hl

/-- The regions with segments left to compute, by partition, with their deadlines. -/
def openRegions (s : State) : List (Fin 8 × ℚ) :=
  (List.finRange 8).filterMap fun p => ((partOf p s).comp.filter fun c => !c.finished).map fun c => (p, c.deadline)

theorem mem_openRegions {s : State} {r : Fin 8 × ℚ} :
    r ∈ openRegions s ↔ ∃ c, (partOf r.1 s).comp = some c ∧ c.finished = false ∧ c.deadline = r.2 := by
  obtain ⟨p, t⟩ := r
  simp only [openRegions, List.mem_filterMap, List.mem_finRange, true_and, Option.map_eq_some_iff, Option.filter_eq_some_iff,
    Prod.mk.injEq, Bool.not_eq_true']
  grind

theorem nextRegion_eq (s : State) : nextRegion s = ((openRegions s).foldl keepEarlier none).map (·.1) := rfl

/-- The region served next is unfinished, and no unfinished region's deadline is earlier (R85). -/
theorem nextRegion_earliest {s : State} {p : Fin 8} (h : nextRegion s = some p) :
    ∃ c, (partOf p s).comp = some c ∧ c.finished = false ∧
      ∀ q c', (partOf q s).comp = some c' → c'.finished = false → c.deadline ≤ c'.deadline := by
  rw [nextRegion_eq] at h
  obtain ⟨r, hr, rfl⟩ := Option.map_eq_some_iff.mp h
  obtain ⟨hmem, hle, -⟩ := foldl_keepEarlier hr
  obtain ⟨c, hcomp, hfin, hdead⟩ := mem_openRegions.mp (hmem.resolve_right nofun)
  exact ⟨c, hcomp, hfin, fun q c' hcomp' hfin' => hdead ▸ hle (q, c'.deadline) (mem_openRegions.mpr ⟨c', hcomp', hfin', rfl⟩)⟩

/-! ### A segment -/

theorem millHalts_iff {s : State} : millHalts s = true ↔ s.sys.stopped = true ∨ s.dep.paused = true := by
  rw [millHalts, Bool.or_eq_true]

/-- The Mill works while the device is not stopped and no rail is outside its window (R314, R330). -/
theorem millHalts_false {s : State} (hstop : s.sys.stopped = false) (hpause : s.dep.paused = false) : millHalts s = false := by
  rw [millHalts, hstop, hpause]
  rfl

theorem segmentEnd_halted {s : State} (h : millHalts s = true) : segmentEnd s = s := if_pos h

section
variable {s : State} (hrun : millHalts s = false)
include hrun

/-- A slot the throttle step leaves idle, or with no region to serve, only counts (R400). -/
theorem segmentEnd_idle (h : slotIdle s = true ∨ nextRegion s = none) :
    segmentEnd s = { s with dep := { s.dep with slot := (s.dep.slot + 1) % 8 } } := by
  have hnone : (if slotIdle s then none else nextRegion { s with dep := { s.dep with slot := (s.dep.slot + 1) % 8 } }) = none := by
    split_ifs with hidle
    · rfl
    · exact h.resolve_left hidle
  simp only [segmentEnd, hrun, hnone, Bool.false_eq_true, if_false]

/-- A segment of the region of `p`: every other region's piece in progress ends, and each quadrant serves it (R85). -/
theorem segmentEnd_serves {p : Fin 8} (hidle : slotIdle s = false) (hp : nextRegion s = some p) :
    segmentEnd s = (List.range 4).foldl (fun s q => quadSegment p q s)
      (onComps (fun r c => if r = p then c else { c with tiles := c.tiles.map fun kv => (kv.1, kv.2.cut) })
        { s with dep := { s.dep with slot := (s.dep.slot + 1) % 8 } }) := by
  have hp' : nextRegion { s with dep := { s.dep with slot := (s.dep.slot + 1) % 8 } } = some p := hp
  simp only [segmentEnd, hrun, hidle, hp', Bool.false_eq_true, if_false]

end

/-! ### A drained piece -/

/-- The tile is the quadrant's shadowed one, and a shadow computes beside it (R318). -/
def tileShadowed (q t : Nat) (s : State) : Bool := t = (quadOf q s).shadowed && (quadOf q s).shadow.isSome

section
variable {tile task : Nat} {s : State} {w : Waiting} {ws : List Waiting} {b : Batch} (hrun : millHalts s = false)
  (hwait : waitingPieces tile s = w :: ws) (hloc : locate w.part w.copy (tile / 34) w.lo s = some (b, task))
include hrun hwait hloc

/-- A piece without a fault passes. -/
theorem pieceDrain_passes : pieceDrain tile .none none s =
    tryEndWindow (tile / 34) (tileShadowed (tile / 34) (tile % 34) (takePiece tile w s))
      (piecePasses (tile / 34) (tile % 34) w b task (takePiece tile w s)) := by
  simp only [pieceDrain, hrun, hwait, hloc, Bool.false_eq_true, if_false]
  rfl

/-- A residue error on any tile is raised and re-run (R320). -/
theorem pieceDrain_residue : pieceDrain tile .residue none s =
    tryEndWindow (tile / 34) (tileShadowed (tile / 34) (tile % 34) (takePiece tile w s)) (startRerun (tile / 34) (tile % 34) w b task
      (raise .millResidue (some w.part) (arg0 tile w.part.val 0) 0 (takePiece tile w s))) := by
  simp only [pieceDrain, hrun, hwait, hloc, Bool.false_eq_true, if_false]
  rfl

/-- A signature that differs counts on the shadowed tile: it is raised and re-run (R320). -/
theorem pieceDrain_signature (hshadow : tileShadowed (tile / 34) (tile % 34) (takePiece tile w s) = true) :
    pieceDrain tile .signature none s = tryEndWindow (tile / 34) true (startRerun (tile / 34) (tile % 34) w b task
      (raise .millMismatch (some w.part) (arg0 tile w.part.val 0) 0 (takePiece tile w s))) := by
  rw [tileShadowed] at hshadow
  simp only [pieceDrain, hrun, hwait, hloc, hshadow, Bool.false_eq_true, if_false, if_true]

/-- An uncorrectable error of the hold store is counted and raised, and re-runs the piece (R328). -/
theorem pieceDrain_lost : pieceDrain tile .none (some .uncorrectable) s =
    (let e := sramError .uncorrectable (takePiece tile w s)
     tryEndWindow (tile / 34) (tileShadowed (tile / 34) (tile % 34) e) (startRerun (tile / 34) (tile % 34) w b task e)) := by
  simp only [pieceDrain, hrun, hwait, hloc, Bool.false_eq_true, if_false]
  rfl

end

/-- Settles O19: a segment by what the Mill serves next, a piece by the fault it drains with. -/
theorem millServes : Obligations.MillServes := by
  refine ⟨fun s p hs => ?_, fun tile s w ws b task hs hstop hpause => ?_⟩
  · have hexec : exec .millSegmentEnd s = .next (segmentEnd s) := act_run hs
    refine ⟨fun h => ?_, fun hstop hpause h => ?_, fun hstop hpause hidle hp => ⟨nextRegion_earliest hp, ?_⟩⟩
    · exact hexec.trans (congrArg _ (segmentEnd_halted (millHalts_iff.mpr h)))
    · exact hexec.trans (congrArg _ (segmentEnd_idle (millHalts_false hstop hpause) h))
    · exact hexec.trans (congrArg _ (segmentEnd_serves (millHalts_false hstop hpause) hidle hp))
  · intro q t s1 ev shadowed hwait hloc
    have hrun := millHalts_false hstop hpause
    have hexec (fault ecc) : exec (.pieceDrain tile fault ecc) s = .next (pieceDrain tile.val fault ecc s) := act_run hs
    exact ⟨(hexec _ _).trans (congrArg _ (pieceDrain_passes hrun hwait hloc)),
      (hexec _ _).trans (congrArg _ (pieceDrain_residue hrun hwait hloc)),
      fun hshadow => (hexec _ _).trans (congrArg _ (pieceDrain_signature hrun hwait hloc hshadow)),
      (hexec _ _).trans (congrArg _ (pieceDrain_lost hrun hwait hloc))⟩

end Sys2Proof.Machine
end

section
/-!
SUPPORT. How a re-run is classified, when a region is finished and how late, and what ends a shadow window or a test task.
-/
namespace Sys2Proof.Machine

/-! ### Re-runs -/

/-- A re-run's piece passes: its segments are verified, whatever becomes of the tiles. -/
def passRerun (r : Rerun) (b : Batch) (s : State) : State := passPiece r.part r.epoch b r.task r.first r.segs s

/-- The piece a re-run keeps out of a faulty tile's suspect span. -/
def rerunRec (r : Rerun) (b : Batch) (s : State) : Option PieceRec := some (pieceRec r.tile r.part r.epoch b r.task s)

/-- Table 13-2 with a referee: the one result apart is a lasting-faulty tile's. -/
def judgedByThree (q : Nat) (r : Rerun) (b : Batch) (sh ref : Nat) (s : State) : RerunAgreement → State
  | .all => transient q r b (passRerun r b s)
  | .aWrong => lastingFault q r.tile (rerunRec r b s) (passRerun r b s)
  | .sWrong => lastingFault q sh (rerunRec r b s) (passRerun r b s)
  | .rWrong => lastingFault q ref (rerunRec r b s) (passRerun r b s)
  | .none => unresolved q r [r.tile, sh, ref] s

/-- Table 13-2 without a referee: A and S agree, or nothing is resolved. -/
def judgedByTwo (q : Nat) (r : Rerun) (b : Batch) (sh : Nat) (s : State) : RerunAgreement → State
  | .all | .rWrong => transient q r b (passRerun r b s)
  | .aWrong | .sWrong | .none => unresolved q r [r.tile, sh] s

section
variable {q : Nat} {s : State} {r : Rerun} {rs : List Rerun} {b : Batch} {sh : Nat} (hrun : millHalts s = false)
  (hreruns : (quadOf q s).reruns = r :: rs) (hbatch : rerunBatch r (countRerun q r s) = some b) (hshadow : (quadOf q s).shadow = some sh)
include hrun hreruns hbatch hshadow

theorem rerunDone_referee {ref : Nat} (href : referee (quadOf q s) r.tile = some ref) (agree : RerunAgreement) :
    rerunDone q agree s = tryEndWindow q true (judgedByThree q r b sh ref (countRerun q r s) agree) := by
  simp only [rerunDone, hrun, hreruns, hbatch, hshadow, href, Bool.false_eq_true, if_false]
  cases agree <;> rfl

theorem rerunDone_noReferee (href : referee (quadOf q s) r.tile = none) (agree : RerunAgreement) :
    rerunDone q agree s = tryEndWindow q true (judgedByTwo q r b sh (countRerun q r s) agree) := by
  simp only [rerunDone, hrun, hreruns, hbatch, hshadow, href, Bool.false_eq_true, if_false]
  cases agree <;> rfl

end

/-! ### Finished regions -/

/-- The MCLK cycles of a lateness, a started one counted whole. -/
theorem lateCycles_eq_ceil {x : ℚ} (h : 0 < x) : (x.num.toNat + x.den - 1) / x.den = ⌈x⌉₊ := by
  have hden : (0 : ℚ) < x.den := by exact_mod_cast x.pos
  have hnum : ((x.num.toNat : ℕ) : ℚ) = x.num := by exact_mod_cast Int.toNat_of_nonneg (Rat.num_pos.mpr h).le
  have hx : (x.num.toNat : ℚ) / x.den = x := by rw [hnum, Rat.num_div_den]
  refine eq_of_forall_ge_iff fun n => ?_
  have hle : x ≤ n ↔ (x.num.toNat : ℚ) ≤ x.den * n := by rw [← div_le_iff₀' hden, hx]
  rw [← Nat.ceilDiv_eq_add_pred_div, ceilDiv_le_iff_le_mul x.pos, Nat.ceil_le, hle]
  exact_mod_cast Iff.rfl

@[simp] theorem recoverLag_tick (p : Fin 8) (c : Copy) (q : Nat) (s : State) : (recoverLag p c q s).tick = s.tick := rfl

/-- The state once the region of `p` is finished and its quadrants' lag has recovered from the slack it left (R86, R87). -/
def regionFinished (p : Fin 8) (c : Copy) (s : State) : State :=
  (List.range 4).foldl (fun s q => recoverLag p c q s) (setPart p { partOf p s with comp := some { c with finished := true } } s)

@[simp] theorem regionFinished_tick (p : Fin 8) (c : Copy) (s : State) : (regionFinished p c s).tick = s.tick := by
  simp [regionFinished, List.range_succ, setPart]

section
variable {p : Fin 8} {c : Copy} {s : State} (hrun : millHalts s = false) (hcomp : (partOf p s).comp = some c) (hopen : c.finished = false)
  (hidle : ∀ kv ∈ c.tiles, kv.2.queue = [] ∧ kv.2.cur = none)
include hrun hcomp hopen hidle

/-- A region no tile has work of is finished; its miss is raised where MCLK has passed the deadline (R86). -/
theorem regionDone_eq : regionDone p s =
    if ((s.tick : ℚ) - c.deadline) * 4 > 0 then
      raise .millDeadlineMiss (some p) (arg0 0 p.val 0) ⌈((s.tick : ℚ) - c.deadline) * 4⌉₊ (bump (.millDeadlineMiss p) 1 (regionFinished p c s))
    else regionFinished p c s := by
  have hany : (c.tiles.any fun kv => kv.2.queue ≠ [] || kv.2.cur.isSome) = false := by
    rw [List.any_eq_false]
    intro kv hkv
    obtain ⟨hqueue, hcur⟩ := hidle kv hkv
    simp [hqueue, hcur]
  have hfinish : onPart p (fun x => { x with comp := x.comp.map fun c => { c with finished := true } }) s =
      setPart p { partOf p s with comp := some { c with finished := true } } s := by
    rw [onPart, hcomp]
    rfl
  simp only [regionDone, hcomp, hopen, hrun, hany, hfinish, Bool.or_self, Bool.false_eq_true, if_false]
  rw [← regionFinished, regionFinished_tick]
  split_ifs with hlate
  · rw [lateCycles_eq_ceil hlate]
  · rfl

end

/-! ### Shadow windows and test tasks -/

theorem quadOf_setQuad_same {q : Nat} {x : Quadrant} {s : State} (h : storeSorted none s.quads = true) : quadOf q (setQuad q x s) = x :=
  storeGet_set_same _ _ _ _ h

theorem setQuad_sorted {q : Nat} {x : Quadrant} {s : State} (h : storeSorted none s.quads = true) :
    storeSorted none (setQuad q x s).quads = true := storeSorted_set (d := fun _ => Quadrant.full) h

/-- The count of a shadow window expires; whether the window ends is for tryEndWindow (R319). -/
theorem exec_shadowWindowEnd {q : Fin 4} {s : State} (hs : Runs s) (h : (quadOf q.val s).shadow.isSome) :
    exec (.shadowWindowEnd q) s = .next (tryEndWindow q.val false (onQuad q.val (fun x => { x with expired := true }) s)) := by
  have hsome : ¬(quadOf q.val s).shadow.isNone = true := by
    obtain ⟨t, ht⟩ := Option.isSome_iff_exists.mp h
    rw [ht]
    exact Bool.false_ne_true
  change execShadowWindowEnd q s = _
  rw [execShadowWindowEnd, act_run hs, if_neg hsome]

/-- The quadrant without the test task of tile `t`. -/
def Quadrant.tested (t : Nat) (x : Quadrant) : Quadrant := { x with testing := x.testing.filter (· ≠ t) }

/-- A passed test of the shadowed tile makes up the 64 segments of a window that has expired (R319, R321). -/
def Quadrant.countPass (t : Nat) (x : Quadrant) : Quadrant :=
  if x.expired && t = x.shadowed then { x with compared := max 64 x.compared } else x

section
variable {tile : Nat} {s : State} (h : tile % 34 ∈ (quadOf (tile / 34) s).testing)
include h

theorem testTaskDone_failed : testTaskDone tile false s =
    tryEndWindow (tile / 34) true (lastingFault (tile / 34) (tile % 34) none (onQuad (tile / 34) (Quadrant.tested (tile % 34)) s)) := by
  simp only [testTaskDone, h]
  rfl

theorem testTaskDone_passed : testTaskDone tile true s =
    tryEndWindow (tile / 34) true (onQuad (tile / 34) (Quadrant.countPass (tile % 34)) (onQuad (tile / 34) (Quadrant.tested (tile % 34)) s)) := by
  simp only [testTaskDone, h]
  rfl

end

/-- Settles O20: a re-run by Table 13-2, a finished region by its deadline, a window and a test task by what they leave to end. -/
theorem millTests : Obligations.MillTests := by
  refine ⟨fun q s r rs b sh hs hstop hpause => ?_, fun p s c hs hstop hpause hcomp hopen hidle => ?_, fun q tile s hs => ?_⟩
  · intro x s1 keep s2 say hreruns hbatch hshadow
    have hrun := millHalts_false hstop hpause
    have hexec (agree) : exec (.rerunDone q agree) s = .next (rerunDone q.val agree s) := act_run hs
    refine ⟨fun ref href => ?_, fun href => ?_⟩
    · have hsay (agree) : say agree (judgedByThree q.val r b sh ref s1 agree) :=
        (hexec agree).trans (congrArg _ (rerunDone_referee hrun hreruns hbatch hshadow href agree))
      exact ⟨hsay .all, hsay .aWrong, hsay .sWrong, hsay .rWrong, hsay .none⟩
    · have hsay (agree) : say agree (judgedByTwo q.val r b sh s1 agree) :=
        (hexec agree).trans (congrArg _ (rerunDone_noReferee hrun hreruns hbatch hshadow href agree))
      refine ⟨hsay .all, hsay .rWrong, ?_⟩
      simp only [List.forall_mem_cons]
      exact ⟨hsay .aWrong, hsay .sWrong, hsay .none, nofun⟩
  · intro s1 s2
    have hexec : exec (.regionComputeDone p) s = .next (regionDone p s) := act_run hs
    have hdone := regionDone_eq (millHalts_false hstop hpause) hcomp hopen hidle
    refine ⟨fun hle => ?_, fun hlt => ?_⟩
    · have hnot : ¬((s.tick : ℚ) - c.deadline) * 4 > 0 := by linarith
      rw [if_neg hnot] at hdone
      exact hexec.trans (congrArg _ hdone)
    · have hlate : ((s.tick : ℚ) - c.deadline) * 4 > 0 := by linarith
      rw [if_pos hlate] at hdone
      refine ⟨⌈((s.tick : ℚ) - c.deadline) * 4⌉₊, ?_, ?_, hexec.trans (congrArg _ hdone)⟩
      · rw [mul_comm]
        exact Nat.le_ceil _
      · rw [mul_comm 4]
        exact Nat.ceil_lt_add_one hlate.le
  · have htest (pass) : exec (.testTaskDone tile pass) s = .next (testTaskDone tile.val pass s) := act_run hs
    refine ⟨fun hshadow => ?_, fun ht => (htest false).trans (congrArg _ (testTaskDone_failed ht)), fun hinv ht =>
      ⟨_, (htest true).trans (congrArg _ (testTaskDone_passed ht)), rfl, ?_⟩⟩
    · exact exec_shadowWindowEnd hs hshadow
    · obtain ⟨-, -, -, hquads, -⟩ := hinv.canonical
      have hsorted := storeWfFrom_sorted hquads
      rw [onQuad, onQuad, quadOf_setQuad_same (setQuad_sorted hsorted), quadOf_setQuad_same hsorted]
      simp only [Quadrant.countPass, Bool.and_eq_true, decide_eq_true_eq]
      rfl

end Sys2Proof.Machine
end

section
/-!
SUPPORT. What Harvest does with the batch it finds, by whether it may add it, and the sweep of a channel that holds an integration.
-/
namespace Sys2Proof.Machine

/-! ### A batch that Harvest finds -/

section
variable {p : Fin 8} {ord issue : Nat} {s : State} {cp : Copy} {b : Batch} (hstop : s.sys.stopped = false) (hpause : s.dep.paused = false)
  (hfind : (partOf p s).findClosed ord = some (cp, b)) (hopen : b.harvested = false)
include hstop hpause hfind hopen

/-- A withheld batch is reached and not added (R104, R107). -/
theorem harvestBatch_withheld (hheld : b.withheld = true) : harvestBatch p ord issue s = stopSweep p (reach p cp b s) := by
  simp only [harvestBatch, hfind, hstop, hpause, hopen, hheld, Bool.or_self, Bool.false_eq_true, if_false, if_true]

variable (hadd : b.withheld = false)
include hadd

/-- An issue buffer above 256 transactions as the command finds it is a guarantee missed, and withholds the batch (R197). -/
theorem harvestBatch_guaranteeMiss (hissue : 256 < issue) : harvestBatch p ord issue s =
    stopSweep p (reach p cp b (withholdBatch p cp.epoch ord
      (raise .memGuaranteeMiss (some p) (arg0 b.chan p.val 0) issue s))) := by
  simp only [harvestBatch, hfind, hstop, hpause, hopen, hadd, Bool.or_self, Bool.false_eq_true, if_false]
  exact if_pos hissue

variable (hissue : issue ≤ 256)
include hissue

/-- An issue buffer above 256 transactions as the fabric's queues stand withholds the batch (R197). -/
theorem harvestBatch_issueLate (hlate : issueLate 0 s = true) :
    harvestBatch p ord issue s = stopSweep p (reach p cp b (withholdBatch p cp.epoch ord s)) := by
  simp only [harvestBatch, hfind, hstop, hpause, hopen, hadd, hissue.not_gt, hlate, Bool.or_self, Bool.false_eq_true, if_false, if_true]

/-- A batch whose X tasks have all passed and that no earlier one of its channel waits before is added and harvested (R91, R104). -/
theorem harvestBatch_adds (hlate : issueLate 0 s = false) (hver : xVerified ((partOf p s).cfgOf cp.epoch) b = true)
    (hfirst : earlierWaits (partOf p s) ((partOf p s).cfgOf cp.epoch).t b = false) : harvestBatch p ord issue s =
    (let s1 := addBatch p cp b (reach p cp b s)
     stopSweep p (setPart p ((partOf p s1).onBatch cp.epoch ord fun b => { b with harvested := true }) s1)) := by
  simp only [harvestBatch, hfind, hstop, hpause, hopen, hadd, hissue.not_gt, hlate, hver, hfirst, Bool.or_self, Bool.not_false,
    Bool.and_self, Bool.false_eq_true, if_false, if_true]

end

/-! ### The sweep -/

/-- The sweep dumps a channel that holds an integration marked SWEPT, leaves it empty, counts it and reports it (R107). -/
theorem sweepChannel_holding {p : Fin 8} {chan : Nat} {c : ChanState} {s : State} (h : chanOf p chan s = some c) :
    sweepChannel p chan s = raise .accSweepDump (some p) (arg0 chan p.val 0) 0 (bump (.accSwept p) 1
      (clearChannel p chan (dumpChannel p chan true s))) := by
  simp only [sweepChannel, h]

theorem exec_sweepTimerExpire_due {p : Fin 8} {chan : Fin 16384} {s : State} (hs : Runs s) (hstop : s.sys.stopped = false)
    (hdue : sweepDue p chan.val s = true) : exec (.sweepTimerExpire p chan) s = .next (sweepChannel p chan.val s) := by
  have hexec : exec (.sweepTimerExpire p chan) s =
      .next (if sweepDue p chan.val s && !s.sys.stopped then sweepChannel p chan.val s else s) := act_run hs
  rw [hexec, hdue, hstop]
  rfl

/-- Settles O21: a batch by what Harvest may do with it, a sweep that is due by the integration its channel holds. -/
theorem harvest : Obligations.Harvest := by
  refine ⟨fun p ord issue s cp b hs hstop hpause hfind hopen => ?_, fun p chan s c hs hstop hdue hchan => ?_⟩
  · have hexec : exec (.harvestBatch p ord issue) s = .next (harvestBatch p ord issue s) := act_run hs
    refine ⟨fun hadd hissue hlate hver hfirst => ?_, fun hheld => ?_, fun hadd hissue => ?_, fun hadd hissue hlate => ?_⟩
    · exact hexec.trans (congrArg _ (harvestBatch_adds hstop hpause hfind hopen hadd hissue hlate hver hfirst))
    · exact hexec.trans (congrArg _ (harvestBatch_withheld hstop hpause hfind hopen hheld))
    · exact hexec.trans (congrArg _ (harvestBatch_guaranteeMiss hstop hpause hfind hopen hadd hissue))
    · exact hexec.trans (congrArg _ (harvestBatch_issueLate hstop hpause hfind hopen hadd hissue hlate))
  · exact (exec_sweepTimerExpire_due hs hstop hdue).trans (congrArg _ (sweepChannel_holding hchan))

end Sys2Proof.Machine
end

section
/-!
SUPPORT. The weights of a batch, by what the filling copy holds of its ordinal, and the bank commit, by whether its time has come.
-/
namespace Sys2Proof.Machine

/-! ### The weights of a batch -/

section
variable {p : Fin 8} {ord : Nat} {s : State}

/-- No batch of the ordinal is in the filling copy. -/
theorem weightSynthesis_none (h : ∀ c, (partOf p s).fill = some c → c.batch ord = none) : weightSynthesis p ord s = s := by
  cases hfill : (partOf p s).fill with
  | none => simp only [weightSynthesis, hfill, Option.bind_none]
  | some c => simp only [weightSynthesis, hfill, Option.bind_some, h c hfill, Option.map_none]

variable {cp : Copy} {b : Batch} (hfill : (partOf p s).fill = some cp) (hbatch : cp.batch ord = some b)
include hfill hbatch

/-- The entries of a batch are read once (R129, R136). -/
theorem weightSynthesis_done (hdone : b.synthesised = true) : weightSynthesis p ord s = s := by
  simp only [weightSynthesis, hfill, hbatch, hdone, Option.bind_some, Option.map_some, if_true]

/-- The reading of a batch: a commit that is due, the reading noted, every beam's weights and marks, and the batch kept (R126 to R136). -/
theorem weightSynthesis_reads (hopen : b.synthesised = false) : weightSynthesis p ord s =
    (let s0 := if (partOf p s).commit.any (fun c => decide (c.sC ≤ b.sub)) then applyCommit p s else s
     let s1 := noteRead p b.sub ((partOf p s).cfgOf cp.epoch).t s0
     let res := synthBeams p ((partOf p s).cfgOf cp.epoch) b (cp.beams p b s1) s1
     setPart p ((partOf p res.2).onBatch cp.epoch ord fun _ => { res.1 with synthesised := true }) res.2) := by
  cases hcommit : (partOf p s).commit with
  | none =>
    simp only [weightSynthesis, hfill, hbatch, hopen, hcommit, Option.bind_some, Option.map_some, Option.any_none, Bool.false_eq_true,
      if_false]
  | some c =>
    simp only [weightSynthesis, hfill, hbatch, hopen, hcommit, Option.bind_some, Option.map_some, Option.any_some, decide_eq_true_eq,
      Bool.false_eq_true, if_false]

end

/-- A torn entry, or one whose model is stale, weighs nothing (R130, R136). -/
theorem weightOf_zero {entry freq : Nat} {fine : Bool} {d : Int} (h : delayTorn entry = true ∨ 2 ^ 31 ≤ d.natAbs) :
    weightOf entry freq fine d = ⟨0, 0⟩ := by
  have hzero : (delayTorn entry || decide (d.natAbs ≥ 2 ^ 31)) = true := by simpa using h
  exact if_pos hzero

/-! ### The bank commit -/

section
variable {p : Fin 8} {s : State}

/-- No commit is pending. -/
theorem exec_bankCommitApply_none (hs : Runs s) (h : (partOf p s).commit = none) : exec (.bankCommitApply p) s = .next s := by
  change execBankCommitApply p s = _
  rw [execBankCommitApply, act_run hs, h]

variable {c : PendingCommit} (h : (partOf p s).commit = some c)
include h

/-- A pending commit asks whether every sub-integration before it has been read (R134). -/
theorem exec_bankCommitApply_pending (hs : Runs s) :
    exec (.bankCommitApply p) s = .next (if c.sC ≤ firstUnread p s then applyCommit p s else s) := by
  change execBankCommitApply p s = _
  rw [execBankCommitApply, act_run hs, h]

/-- A commit that applies: the banks change places, the status follows, and batches before the commit keep what they had (R134). -/
theorem applyCommit_pending : applyCommit p s =
    (let x := partOf p s
     let act := getF fBfBankStatusActive .bfBankStatus s
     let pen := getF fBfBankStatusPending .bfBankStatus s
     raise .bfCommitApplied (some p) (arg0 0 p.val 0) c.sC
      (setF fBfBankStatusPending .bfBankStatus (if bitOf pen p.val then pen - 2 ^ p.val else pen)
        (setF fBfBankStatusActive .bfBankStatus (Nat.xor act (2 ^ p.val))
          (setPart p { x with
            bank := !x.bank, refSample := c.refSample, commit := none,
            oldBanks := (x.oldBanks.filter fun b => x.fill.any fun f => f.batches.any fun y => decide (y.sub < b.1)) ++
              [(c.sC, x.bank, x.refSample)] } s)))) := by
  rw [applyCommit, h]
  rfl

end

/-- Settles O18: a batch by what the filling copy holds of it, a weight by its entry, the commit by its sub-integration. -/
theorem weightsAndBanks : Obligations.WeightsAndBanks := by
  refine ⟨fun p ord s hs => ?_, fun _ _ _ _ => weightOf_zero, fun p s hs =>
    ⟨exec_bankCommitApply_none hs, fun c hc hearly => ?_, fun c hc hdue => ?_⟩⟩
  · have hexec : exec (.weightSynthesis p ord) s = .next (weightSynthesis p ord s) := act_run hs
    refine ⟨fun hnone => ?_, fun cp b hfill hbatch => ⟨fun hdone => ?_, fun hopen s0 hs0 => ?_⟩⟩
    · exact hexec.trans (congrArg _ (weightSynthesis_none hnone))
    · exact hexec.trans (congrArg _ (weightSynthesis_done hfill hbatch hdone))
    · subst hs0
      exact hexec.trans (congrArg _ (weightSynthesis_reads hfill hbatch hopen))
  · rw [exec_bankCommitApply_pending hc hs, if_neg hearly.not_ge]
  · rw [exec_bankCommitApply_pending hc hs, if_pos hdue, applyCommit_pending hc]

end Sys2Proof.Machine
end

section
/-!
SUPPORT. A descriptor in flight that may begin: refused with the lowest failing code, or run by its command.
-/
namespace Sys2Proof.Machine

section
variable {tag : Nat} {d : Desc} {op : Nat → Bool} {checks : Desc → State → List Check} {effect : Desc → State → State} {s : State}
  (hfind : descOf tag s = some d) (hbegin : mayBegin d s = true) (hop : op d.opcode = true)
include hfind hbegin hop

/-- No check fails: the descriptor has its effect. -/
theorem runDesc_passes (h : firstFail (headChecks d (markBegun d s) ++ checks d (markBegun d s)) = none) :
    runDesc op tag checks effect s = effect d (markBegun d s) := by
  simp only [runDesc, hfind, hbegin, hop, h, Bool.and_self, if_true]

/-- A check fails: the descriptor completes with its code and results, and has no effect. -/
theorem runDesc_refuses {k : Check} (h : firstFail (headChecks d (markBegun d s) ++ checks d (markBegun d s)) = some k) :
    runDesc op tag checks effect s = complete d k.code k.r0 k.r1 (markBegun d s) := by
  simp only [runDesc, hfind, hbegin, hop, h, Bool.and_self, if_true]

end

/-- A command that runs the descriptors of one opcode: what it does with one in flight that may begin. -/
theorem exec_runsDesc {tag : Nat} {d : Desc} {s : State} (hs : Runs s) (hfind : descOf tag s = some d) (hbegin : mayBegin d s = true)
    (c : Instr) {op : Nat} {checks : Desc → State → List Check} {effect : Desc → State → State}
    (hexec : exec c s = act (runDesc (· = op) tag checks effect) s) (hop : d.opcode = op) :
    (firstFail (headChecks d (markBegun d s) ++ checks d (markBegun d s)) = none → exec c s = .next (effect d (markBegun d s))) ∧
    (∀ k, firstFail (headChecks d (markBegun d s) ++ checks d (markBegun d s)) = some k →
      exec c s = .next (complete d k.code k.r0 k.r1 (markBegun d s))) := by
  have hrun := hexec.trans (act_run hs)
  have hcode : decide (d.opcode = op) = true := decide_eq_true hop
  exact ⟨fun h => hrun.trans (congrArg _ (runDesc_passes hfind hbegin hcode h)),
    fun k h => hrun.trans (congrArg _ (runDesc_refuses hfind hbegin hcode h))⟩

/-- A check that fails below every other check's code decides (R305). -/
theorem firstFail_append_lowest {c : Check} (hc : c.fails = true) :
    ∀ {cs : List Check}, (∀ x ∈ cs, c.code < x.code) → firstFail (cs ++ [c]) = some c
  | [], _ => by simp only [List.nil_append, firstFail, hc, if_true]
  | x :: xs, h => by
    obtain ⟨hx, hxs⟩ := List.forall_mem_cons.mp h
    have hlow : (x.fails && decide (x.code ≤ c.code)) = false := by simp [hx]
    simp only [List.cons_append, firstFail, firstFail_append_lowest hc hxs, hlow, Bool.false_eq_true, if_false]

/-- No check of the head has a code as low as BAD_OPCODE. -/
theorem badOpcode_lt_headChecks {d : Desc} {s : State} : ∀ c ∈ headChecks d s, 0x10 < c.code := by
  simp [headChecks, chk]

/-- An opcode that the catalogue does not define completes BAD_OPCODE, whatever else fails (R299, R305). -/
theorem exec_badOpcode {tag : BitVec 17} {d : Desc} {s : State} (hs : Runs s) (hfind : descOf tag.toNat s = some d)
    (hbegin : mayBegin d s = true) (hop : 0x11 < d.opcode) :
    exec (.badOpcode tag) s = .next (complete d 0x10 0 0 (markBegun d s)) := by
  have hcode : (!opcodeDefined d.opcode) = true := by simpa [opcodeDefined] using hop
  have hbad := runDesc_refuses (op := fun n => !opcodeDefined n) (checks := fun _ _ => [chk true 0x10]) (effect := fun _ s => s)
    hfind hbegin hcode (firstFail_append_lowest rfl badOpcode_lt_headChecks)
  exact (act_run hs).trans (congrArg _ hbad)

/-- Settles O46: each opcode's command runs its descriptors under its own checks to its effect, and an undefined opcode is refused. The
opcode, the checks and the effect of a row are those of the command's meaning. -/
theorem descriptorsRun : Obligations.DescriptorsRun := by
  intro tag readOk words d s hs hfind hbegin
  have row (c : Instr) {op checks effect} (hexec : exec c s = act (runDesc (· = op) tag.toNat checks effect) s) :=
    exec_runsDesc hs hfind hbegin c hexec
  exact ⟨(row (.nop tag) rfl :), (row (.start tag) rfl :), (row (.configure tag) rfl :), (row (.stop tag) rfl :),
    (row (.tableWrite tag readOk) rfl :), (row (.bankCommit tag) rfl :), (row (.captureConfig tag) rfl :), (row (.triggerArm tag) rfl :),
    (row (.triggerFire tag) rfl :), (row (.statsRead tag) rfl :), (row (.portConfig tag) rfl :), (row (.roleAssign tag) rfl :),
    (row (.timeQuality tag) rfl :), (row (.stwLoad tag words) rfl :), (row (.stwRun tag) rfl :), (row (.stwStop tag) rfl :),
    (row (.fwWrite tag readOk) rfl :), (row (.query tag) rfl :), exec_badOpcode hs hfind hbegin⟩

end Sys2Proof.Machine
end

section
/-!
SUPPORT. A chain instance that takes a batch, of a monitor and of a beam, and the write of DET_RANGE_SET by whether it is taken.
-/
namespace Sys2Proof.Machine

/-! ### An instance and its batch -/

/-- A monitor's instance runs the oldest batch that waits for it, which waits no longer (R146). -/
theorem chainMonitor_takes {entry chan : Nat} {s : State} {i : MonitorInput}
    (h : (s.det.monIn.find? fun i => i.entry = entry && i.chan = chan) = some i) : chainMonitor entry chan s =
    (let t := ((partOf i.part s).cfgOf i.epoch).t
     let r := runChain i.part entry chan 0 i.int (i.sub * (t / 16)) (i.pows.map fun v => (v.map fun n => (n : Int), 0)) s
     { r.2 with det := { r.2.det with monIn := r.2.det.monIn.filter (· ≠ i) } }) := by
  rw [chainMonitor, h]

/-- A beam's instance runs the earliest batch that waits for it, and the last Stokes instance sends the power (R146, R150, R330). -/
theorem chainBeam_takes {beam chan stokes : Nat} {s : State} {i : ChainInput} (hnext : nextInput beam chan stokes s = some i)
    (howed : owedEarlier i s = false) (hpause : s.dep.paused = false) : chainBeam beam chan stokes s =
    (let t := ((partOf i.part s).cfgOf i.epoch).t
     let xs := if i.missing then List.replicate t (none, 0) else (i.samples.zip i.sats).map fun v => (some (stokesOf stokes v.1), v.2)
     let r := runChain i.part beam chan stokes i.int (i.sub * t) xs s
     let u := releaseRange (chainKey beam chan stokes) r.2
     let j := { i with left := i.left.filter (· ≠ stokes), outs := i.outs ++ [(stokes, r.1)] }
     if j.left.isEmpty then sendPower j { u with det := { u.det with chainIn := u.det.chainIn.filter (· ≠ i) } }
     else { u with det := { u.det with chainIn := u.det.chainIn.map fun k => if k = i then j else k } }) := by
  have hfree : ¬((owedEarlier i s || s.dep.paused) = true) := by simp [howed, hpause]
  rw [chainBeam, hnext]
  exact if_neg hfree

section
variable {entry : Nat} {chan : Fin 16384} {stokes : Fin 4} {s : State}

/-- Entries below 1024 are the beams' (R144). -/
theorem exec_chainBatch_beam (hs : Runs s) (hbeam : entry < 1024) :
    exec (.chainBatch entry chan stokes) s = .next (chainBeam entry chan.val stokes.val s) := by
  change execChainBatch entry chan stokes s = _
  rw [execChainBatch, act_run hs, if_pos hbeam]

/-- Entries from 1024 on are the monitors' (R144). -/
theorem exec_chainBatch_monitor (hs : Runs s) (hmon : 1024 ≤ entry) :
    exec (.chainBatch entry chan stokes) s = .next (chainMonitor entry chan.val s) := by
  change execChainBatch entry chan stokes s = _
  rw [execChainBatch, act_run hs, if_neg hmon.not_gt]

end

/-! ### DET_RANGE_SET -/

section
variable {v : Payload} {s : State}

/-- A RANGE for a valid entry reaches its running instances, and is kept for those to come (R156). -/
theorem detRange_taken (hrange : fld fDetRangeSetRange v ≤ 47) (hentry : fld fDetRangeSetEntry v ≤ 1087)
    (hvalid : (decodeChain (entryNow 5 (fld fDetRangeSetEntry v) s)).valid = true) : detRange v s =
    (let entry := fld fDetRangeSetEntry v
     let range := fld fDetRangeSetRange v
     (true, { s with det := { s.det with
       chains := s.det.chains.map fun kv => (kv.1, if kv.1 / 65536 = entry then kv.2.map fun x => setRange kv.1 range x s else kv.2),
       ranges := storeSet (fun _ => (0, 0)) s.det.ranges entry (range + 1, entryNow 5 entry s / 2 ^ 128) } })) := by
  refine if_neg ?_
  simp [hrange, hentry, hvalid]

/-- A RANGE above 47, an entry that there is not or one that is not valid: the write is ignored with DET_BAD_RANGE (R156, R158). -/
theorem detRange_ignored (h : 47 < fld fDetRangeSetRange v ∨ 1087 < fld fDetRangeSetEntry v ∨
      (decodeChain (entryNow 5 (fld fDetRangeSetEntry v) s)).valid = false) :
    detRange v s = (false, raise .detBadRange none (fld fDetRangeSetEntry v % 65536) 0 s) := by
  have hbad : (fld fDetRangeSetRange v > 47 || fld fDetRangeSetEntry v > 1087 ||
      !(decodeChain (entryNow 5 (fld fDetRangeSetEntry v) s)).valid) = true := by
    simpa [or_assoc] using h
  exact if_pos hbad

end

/-- Settles O22: an entry by whether a monitor or a beam has it, a write of DET_RANGE_SET by whether it is taken. -/
theorem chains : Obligations.Chains := by
  refine ⟨fun entry chan stokes s hs => ⟨fun i hmon hfind => ?_, fun i hbeam hnext howed hpause => ?_⟩, fun m value s hacc => ?_⟩
  · exact (exec_chainBatch_monitor hs hmon).trans (congrArg _ (chainMonitor_takes hfind))
  · exact (exec_chainBatch_beam hs hbeam).trans (congrArg _ (chainBeam_takes hnext howed hpause))
  · have hexec : exec (.detRangeSet m value) s = .next (detRange value (accessed m s)).2 :=
      actBy_accepts (f := fun s => (detRange value s).2) hacc
    refine ⟨fun hrange hentry hvalid => ?_, fun hbad => ?_⟩
    · rw [hexec, detRange_taken hrange hentry hvalid]
    · rw [hexec, detRange_ignored hbad]

end Sys2Proof.Machine
end

section
/-!
SUPPORT. The ARM that waits and the edge of the trigger pin, what becomes of a fire, and the end of settle.
-/
namespace Sys2Proof.Machine

/-! ### What becomes of a fire -/

section
variable {a : Arm} {f : Fire} {s : State}

/-- A crib that records takes the event (Table 07-5). -/
theorem newEvent_opens {k : CaptCfg} {c : Nat} (hcapt : capturing s = some k) (hcrib : cribIn 1 k s = some c) :
    newEvent a f s = (true, openEvent a k c f s) := by
  have hbind : (s.trig.capt.bind fun k => cribIn 1 k s) = some c := by rw [show s.trig.capt = some k from hcapt, Option.bind_some, hcrib]
  rw [newEvent, hcapt, hbind]

/-- Where no crib records the fire is NO_CRIB (R180). -/
theorem newEvent_noCrib (h : ∀ k, capturing s = some k → cribIn 1 k s = none) : newEvent a f s =
    (false, raise .trgNoCrib (s.trig.capt.map (·.part)) (arg0 0 ((s.trig.capt.map (·.part.val)).getD 0) 0)
      (f.time / 256) (bump .trgNoCrib 1 (logFire f 2 0 s.trig.eventSeq s))) := by
  have hbind : (s.trig.capt.bind fun k => cribIn 1 k s) = none := Option.bind_eq_none_iff.mpr h
  rw [newEvent, hbind, Option.map_map]
  cases capturing s <;> rfl

/-- With no event, and past a settled one whose ARM repeats, a fire is a new event's (Table 07-5). -/
theorem disposeFire_new (h : s.trig.event = none ∨ ∃ e, s.trig.event = some e ∧ freshAfter e f = true) :
    disposeFire a f s = newEvent a f s := by
  rcases h with hnone | ⟨e, he, hfresh⟩
  · rw [disposeFire, hnone]
  · rw [disposeFire, he]
    exact if_pos hfresh

/-- Before settle ends no fire is a new event's. -/
theorem freshAfter_unsettled {e : TrigEvent} (hopen : e.settled = false) : freshAfter e f = false := by
  rw [freshAfter, hopen, Bool.false_and, Bool.false_and]

variable {e : TrigEvent} (he : s.trig.event = some e)
include he

/-- After settle a fire that opens no event is LATE. -/
theorem disposeFire_late (hsettled : e.settled = true) (hfresh : freshAfter e f = false) :
    disposeFire a f s = (true, bump .trgLate 1 (logFire f 4 0 e.seq s)) := by
  simp only [disposeFire, he, hfresh, hsettled, Bool.false_eq_true, if_false, if_true]

variable (hopen : e.settled = false)
include hopen

/-- Before settle ends a fire below the coincidence window is OUTSIDE. -/
theorem disposeFire_outside (hbelow : f.time + e.arm.coinc * 256 < e.opened.time) :
    disposeFire a f s = (true, bump .trgOutside 1 (logFire f 3 0 e.seq s)) := by
  simp only [disposeFire, he, freshAfter_unsettled hopen, hopen, Bool.false_eq_true, if_false]
  exact if_pos hbelow

variable (hwindow : e.opened.time ≤ f.time + e.arm.coinc * 256)
include hwindow

/-- In the window a fire that is not earlier than the winner is MERGED. -/
theorem disposeFire_merged (hrank : e.winner.rank ≤ f.rank) : disposeFire a f s =
    (true, bump .trgMerged 1 (logFire f 1 e.crib e.seq
      { s with trig := { s.trig with event := some { e with fires := e.fires + 1 } } })) := by
  simp only [disposeFire, he, freshAfter_unsettled hopen, hopen, hwindow.not_gt, hrank.not_gt, Bool.false_eq_true, if_false]

/-- In the window a fire that is earlier than the winner becomes the winner, and the log shows the one before as superseded. -/
theorem disposeFire_wins (hrank : f.rank < e.winner.rank) : disposeFire a f s =
    (let s1 := logSuperseded e.entry s
     let s2 := { s1 with trig := { s1.trig with event := some { e with winner := f, fires := e.fires + 1, entry := (sysRing 3 s1).next } } }
     (true, logFire f 0 e.crib e.seq (setCrib e.crib { cribOf e.crib s2 with winner := some f } s2))) := by
  simp only [disposeFire, he, freshAfter_unsettled hopen, hopen, hwindow.not_gt, hrank, Bool.false_eq_true, if_false, if_true]

end

/-! ### The end of settle -/

section
variable {crib : Nat} {s : State} {e : TrigEvent} {k : CaptCfg} (he : s.trig.event = some e) (hcapt : capturing s = some k)
include he hcapt

/-- Settle of the event's crib ends once the crib is HELD and SETTLE has passed (R178). -/
theorem settleEnd_due (hcrib : e.crib = crib) (hopen : e.settled = false) (hheld : (cribOf crib s).state = 3)
    (hdue : e.settleAt ≤ s.tick) : settleEnd crib s = endSettle crib e k s := by
  rw [settleEnd, he, hcapt]
  refine if_pos ?_
  simp [hcrib, hopen, hheld, hdue]

/-- Before SETTLE has passed, and while the crib is not HELD, settle does not end. -/
theorem settleEnd_early (h : s.tick < e.settleAt ∨ (cribOf crib s).state ≠ 3) : settleEnd crib s = s := by
  rw [settleEnd, he, hcapt]
  refine if_neg ?_
  rcases h with htick | hstate
  · simp [htick]
  · simp [hstate]

end

/-- Settles O24: a fire by the event it finds and its place in that event's window, SETTLE_END by the crib and the time. -/
theorem fires : Obligations.Fires := by
  refine ⟨fun a f s => ⟨fun k c hnone hcapt hcrib => ?_, fun e k c he hfresh hcapt hcrib => ?_, fun hnew hfree => ?_,
      fun _ => disposeFire_late, fun _ => disposeFire_outside, fun _ => disposeFire_merged, fun _ => disposeFire_wins⟩,
    fun crib s e k hs he hcapt => ?_⟩
  · rw [disposeFire_new (.inl hnone), newEvent_opens hcapt hcrib]
  · rw [disposeFire_new (.inr ⟨e, he, hfresh⟩), newEvent_opens hcapt hcrib]
  · rw [disposeFire_new hnew, newEvent_noCrib hfree]
  · have hexec : exec (.settleEnd crib) s = .next (settleEnd crib.val s) := act_run hs
    refine ⟨fun hcrib hopen hheld hdue => ?_, fun hearly => ?_⟩
    · rw [hexec, settleEnd_due he hcapt hcrib hopen hheld hdue]
    · rw [hexec, settleEnd_early he hcapt hearly]

/-! ### The trigger pin -/

section
variable {p : Fin 8} {q : Int} {s : State}

/-- An edge before the partition's origin (R218). -/
theorem pinFire_beforeOrigin (h : (partOf p s).samplePos q = none) :
    pinFire p q s = raise .timeBeforeOrigin (some p) (arg0 0 p.val 0) 0 s := by
  rw [pinFire, h]

variable {ft : Nat} (hpos : (partOf p s).samplePos q = some ft)
include hpos

/-- The pin is a source of no ARM in force. -/
theorem pinFire_unarmed (h : armedFor 1 s = none) : pinFire p q s = s := by
  rw [pinFire, hpos, h]

/-- An edge with the pin armed fires where its sample is not below ARM_TIME (R173). -/
theorem pinFire_armed {a : Arm} (h : armedFor 1 s = some a) :
    pinFire p q s = if ft / 256 < a.time then s else (localFire a p 1 ft 0 0 s).2 := by
  rw [pinFire, hpos, h]

end

section
variable {x : RawStamp} {s : State}

/-- Where the capture partition runs an edge is stamped and placed in its samples (R217). -/
theorem trigInEdge_placed {k : CaptCfg} (hcapt : capturing (tdcEdge 1 x s) = some k)
    (hrun : (partOf k.part (tdcEdge 1 x s)).started = true) : trigInEdge x s = pinFire k.part (stampTime x s) (tdcEdge 1 x s) := by
  rw [trigInEdge, hcapt]
  exact if_pos hrun

/-- Where no capture partition runs an edge is stamped and no more. -/
theorem trigInEdge_stamped (h : ∀ k, capturing (tdcEdge 1 x s) = some k → (partOf k.part (tdcEdge 1 x s)).started = false) :
    trigInEdge x s = tdcEdge 1 x s := by
  rw [trigInEdge]
  cases hcapt : capturing (tdcEdge 1 x s) with
  | none => rfl
  | some k => exact if_neg (Bool.not_eq_true _ ▸ h k hcapt)

end

/-! ### ARMs taking effect -/

section
variable {s : State}

/-- The ARM that waits takes effect once the writer has placed a sample at or after its ARM_TIME (R168). -/
theorem armEffect_takes {a : Arm} {rest : List Arm} (hpend : s.trig.armPending = a :: rest) (hopen : eventOpen s = false)
    (hplaced : a.time < s.trig.placedMax) : armEffect s =
    raise .trgArmed (s.trig.capt.map (·.part)) (arg0 a.id ((s.trig.capt.map (·.part.val)).getD 0) 0) a.time
      { s with trig := { s.trig with armed := if a.sources = 0 then none else some a, armPending := rest, event := none, eventSeq := 0 } } := by
  simp only [armEffect, hpend, hopen, Bool.false_eq_true, if_false]
  exact if_pos hplaced

/-- Before that, while an event is open, and with no ARM that waits, none takes effect. -/
theorem armEffect_waits (h : eventOpen s = true ∨ s.trig.armPending = [] ∨
      ∃ a rest, s.trig.armPending = a :: rest ∧ s.trig.placedMax ≤ a.time) : armEffect s = s := by
  rw [armEffect]
  cases hpend : s.trig.armPending with
  | nil => rfl
  | cons a rest =>
    rcases h with hopen | hnone | ⟨b, rest', hb, hearly⟩
    · exact if_pos hopen
    · rw [hpend] at hnone
      cases hnone
    · rw [hpend] at hb
      cases hb
      have hnot : ¬s.trig.placedMax > a.time := hearly.not_gt
      simp only [hnot, if_false, ite_self]

end

/-- Settles O23: an edge by the partition that captures and the ARM in force, ARM_EFFECT by the ARM that waits. -/
theorem triggerArms : Obligations.TriggerArms := by
  refine ⟨fun x s hs => ?_, fun s hs => ?_⟩
  · have hexec : exec (.trigInEdge x) s = .next (trigInEdge x s) := act_run hs
    refine ⟨fun k hcapt hrun => ?_, fun h => hexec.trans (congrArg _ (trigInEdge_stamped h))⟩
    rw [hexec, trigInEdge_placed hcapt hrun]
    refine ⟨fun hpos => ?_, fun ft hpos => ⟨fun a harm hge => ?_, fun a harm hlt => ?_, fun harm => ?_⟩⟩
    · rw [pinFire_beforeOrigin hpos]
    · rw [pinFire_armed hpos harm, if_neg hge.not_gt]
    · rw [pinFire_armed hpos harm, if_pos hlt]
    · rw [pinFire_unarmed hpos harm]
  · have hexec : exec .armEffect s = .next (armEffect s) := act_run hs
    refine ⟨fun a rest hpend hopen hplaced => ?_, fun h => ?_⟩
    · exact hexec.trans (congrArg _ (armEffect_takes hpend hopen hplaced))
    · exact hexec.trans (congrArg _ (armEffect_waits h))

end Sys2Proof.Machine
end

section
/-!
SUPPORT. A crib's readout, packet by packet, and a capture configuration that takes effect.
-/
namespace Sys2Proof.Machine

/-! ### A crib's readout -/

section
variable {crib : Nat} {s : State}

/-- THROTTLE pauses the reader, and the stopped state ends it (R183). -/
theorem capturePacketSend_paused (h : throttled s = true ∨ s.sys.stopped = true) : capturePacketSend crib s = s := by
  rw [capturePacketSend]
  cases capturing s with
  | none => rfl
  | some k =>
    refine if_pos ?_
    rcases h with hhot | hstop
    · simp [hhot]
    · simp [hstop]

/-- A crib in READOUT sends its next packet, and the last one ends the readout (R182, R183). -/
theorem capturePacketSend_sends {k : CaptCfg} (hcapt : capturing s = some k) (hread : (cribOf crib s).state = 4)
    (hcool : throttled s = false) (hstop : s.sys.stopped = false) (hleft : (cribOf crib s).pos < (cribOf crib s).packets) :
    capturePacketSend crib s =
    (let x := cribOf crib s
     let slots := x.slots.getD []
     let per := ceilDiv (x.spanLast + 1 - x.spanFirst).toNat x.pc
     let sent := setCrib crib { x with pos := x.pos + 1 } (sendProductAs (if x.frozen then x.epoch else roleEpoch k.part s) k.part 0x04 k.route
       (capturePacket x (k.chanFirst + x.pos / (slots.length * per)) (slots.getD (x.pos / per % slots.length) ⟨0, 0⟩) (x.pos % per)) s)
     if x.pos + 1 = x.packets then readDone crib k.part sent else sent) := by
  have hgo : ¬(((cribOf crib s).state ≠ 4 || throttled s || s.sys.stopped || (cribOf crib s).pos ≥ (cribOf crib s).packets) = true) := by
    simp [hread, hcool, hstop, hleft]
  have hlast : (cribOf crib s).pos + 1 ≥ (cribOf crib s).packets ↔ (cribOf crib s).pos + 1 = (cribOf crib s).packets := by omega
  rw [capturePacketSend, hcapt]
  exact (if_neg hgo).trans (if_congr hlast rfl rfl)

end

/-! ### A new capture configuration -/

section
variable {s : State}

/-- With no configuration accepted, and while a crib is SEALING, HELD or in READOUT, none takes effect (R163). -/
theorem captureApply_waits (h : s.trig.accepted = [] ∨ cribBusy s = true) : captureApply s = s := by
  rw [captureApply]
  cases hacc : s.trig.accepted with
  | nil => rfl
  | cons c rest =>
    have hbusy : cribBusy s = true := h.resolve_left (by simp [hacc])
    exact if_pos hbusy

/-- Configuration `k` is in force and `rest` wait: the cribs are cleared, and one records where the partition runs (R163). -/
def configured (k : CaptCfg) (rest : List (Nat × CaptCfg)) (s : State) : State :=
  let x := partOf k.part s
  let s1 := { s with trig := { s.trig with accepted := rest, capt := if k.enable then some k else none, placedMax := 0,
                                           cribs := storeMap (fun _ => Crib.free) Crib.cleared s.trig.cribs } }
  if k.enable = true ∧ x.started = true ∧ x.stopped = false then startCrib k none none s1 else s1

section
variable {tag : Nat} {k : CaptCfg} {rest : List (Nat × CaptCfg)} (hacc : s.trig.accepted = (tag, k) :: rest) (hfree : cribBusy s = false)
include hacc hfree

/-- The oldest accepted configuration takes effect, and the descriptor that carried it completes where it is still there (R163, R314). -/
theorem captureApply_takes : captureApply s =
    (descOf tag (configured k rest s)).elim (configured k rest s) fun d => complete d 0 0 0 (configured k rest s) := by
  have hrecord : ((k.enable && (partOf k.part s).started && !(partOf k.part s).stopped) = true) =
      (k.enable = true ∧ (partOf k.part s).started = true ∧ (partOf k.part s).stopped = false) := by
    simp [and_assoc]
  simp only [captureApply, hacc, hfree, Bool.false_eq_true, if_false, hrecord, configured]
  generalize descOf tag _ = carrier
  cases carrier <;> rfl

theorem captureApply_completes {d : Desc} (hdesc : descOf tag (configured k rest s) = some d) :
    captureApply s = complete d 0 0 0 (configured k rest s) := by
  rw [captureApply_takes hacc hfree, hdesc, Option.elim_some]

theorem captureApply_uncarried (hdesc : descOf tag (configured k rest s) = none) : captureApply s = configured k rest s := by
  rw [captureApply_takes hacc hfree, hdesc, Option.elim_none]

end

end

/-- Settles O25: a packet by what may hold the reader, a configuration by the cribs that are busy and the descriptor that carried it. -/
theorem capture : Obligations.Capture := by
  refine ⟨fun crib s k hs hcapt => ?_, fun s hs => ?_⟩
  · have hexec : exec (.capturePacketSend crib) s = .next (capturePacketSend crib.val s) := act_run hs
    refine ⟨fun hread hcool hstop hleft => ?_, fun hpaused => ?_⟩
    · exact hexec.trans (congrArg _ (capturePacketSend_sends hcapt hread hcool hstop hleft))
    · exact hexec.trans (congrArg _ (capturePacketSend_paused hpaused))
  · have hexec : exec .captureConfigApply s = .next (captureApply s) := act_run hs
    refine ⟨fun hwaits => ?_, fun tag k rest d hacc hfree => ⟨fun hdesc => ?_, fun hdesc => ?_⟩⟩
    · exact hexec.trans (congrArg _ (captureApply_waits hwaits))
    · exact hexec.trans (congrArg _ (captureApply_completes hacc hfree hdesc))
    · exact hexec.trans (congrArg _ (captureApply_uncarried hacc hfree hdesc))

end Sys2Proof.Machine
end

section
/-!
SUPPORT. Memory configuration: the regions discarded, a layout applied or refused, an allotment admitted or refused.
-/
namespace Sys2Proof.Machine

/-! ### What discarding the regions leaves -/

/-- Clearing cribs changes nothing but the trigger unit's state. -/
theorem foldl_clearCrib_frame (l : List Nat) (s : State) :
    l.foldl (fun s k => setCrib k (cribOf k s).cleared s) s =
      { s with trig := (l.foldl (fun s k => setCrib k (cribOf k s).cleared s) s).trig } := by
  induction l generalizing s with
  | nil => rfl
  | cons k l ih => exact ih (setCrib k (cribOf k s).cleared s)

@[simp] theorem discardRegions_granary (s : State) : (discardRegions s).granary = [] := rfl
@[simp] theorem discardRegions_chans (s : State) : (discardRegions s).chans = [] := rfl
@[simp] theorem discardRegions_scratch (s : State) : (discardRegions s).scratch = [] := rfl
@[simp] theorem discardRegions_chains (s : State) : (discardRegions s).det.chains = [] := rfl

@[simp] theorem discardRegions_regs (s : State) : (discardRegions s).regs = s.regs := by
  rw [discardRegions, foldl_clearCrib_frame]

@[simp] theorem discardRegions_hostMem (s : State) : (discardRegions s).hostMem = s.hostMem := by
  rw [discardRegions, foldl_clearCrib_frame]

@[simp] theorem discardRegions_hif (s : State) : (discardRegions s).hif = s.hif := by
  rw [discardRegions, foldl_clearCrib_frame]

/-! ### MEM_LAYOUT -/

section
variable {v : Payload} {s : State}

/-- What refuses a layout: a partition started, capture enabled, or sizes that do not fit (R190). -/
theorem layoutBarred_iff :
    (((List.finRange 8).any fun p => (partOf p s).started) || (capturing s).isSome ||
      !layoutOk v (128 - (failedPcs s).length)) = true ↔
    (∃ p, (partOf p s).started = true) ∨ s.trig.capt ≠ none ∨ layoutOk v (128 - (failedPcs s).length) = false := by
  simp [capturing, Option.isSome_iff_ne_none, or_assoc]

theorem memLayout_refused
    (h : (∃ p, (partOf p s).started = true) ∨ s.trig.capt ≠ none ∨ layoutOk v (128 - (failedPcs s).length) = false) :
    memLayout v s = raise .memLayoutRefused none 0 0 s :=
  if_pos (layoutBarred_iff.mpr h)

theorem memLayout_applied (hidle : ∀ p, (partOf p s).started = false) (hcapt : s.trig.capt = none)
    (hfits : layoutOk v (128 - (failedPcs s).length) = true) : memLayout v s = applyLayout v s := by
  refine if_neg fun hbarred => ?_
  rcases layoutBarred_iff.mp hbarred with ⟨p, hstarted⟩ | hon | hover
  · exact Bool.false_ne_true ((hidle p).symm.trans hstarted)
  · exact hon hcapt
  · exact Bool.false_ne_true (hover.symm.trans hfits)

end

/-! ### MEM_ALLOT -/

/-- The plan with an allotment's rate `old` replaced by `rate`, as admission counts it (R199). -/
def Plan.withRate (l : Plan) (old rate : Nat) : Plan := { l with rates := l.rates - old + rate }

section
variable {k : Fin 3} {v : Payload} {s : State}

/-- A rate that is not raised, and one that the budget covers, is stored; RATE and BURST are at least 1 (R199). -/
theorem memAllot_admitted
    (h : max 1 (fld fMemAllotRate v) ≤ getF fMemAllotRate (.memAllot k) s ∨
      ((planNow s).withRate (getF fMemAllotRate (.memAllot k) s) (max 1 (fld fMemAllotRate v))).hbm s ≤ budget s) :
    memAllot k v s = setReg (.memAllot k)
      (setFld fMemAllotBurst (max 1 (fld fMemAllotBurst v)) (setFld fMemAllotRate (max 1 (fld fMemAllotRate v)) 0)) s := by
  refine if_neg fun hover => ?_
  obtain ⟨hraised, hbeyond⟩ := (Bool.and_eq_true_iff.mp hover).imp of_decide_eq_true of_decide_eq_true
  exact h.elim hraised.not_ge hbeyond.not_ge

/-- A raised rate that would take the admitted load beyond the budget is refused (R199). -/
theorem memAllot_refused (hraised : getF fMemAllotRate (.memAllot k) s < max 1 (fld fMemAllotRate v))
    (hbeyond : budget s < ((planNow s).withRate (getF fMemAllotRate (.memAllot k) s) (max 1 (fld fMemAllotRate v))).hbm s) :
    memAllot k v s = raise .memAllotRefused none (arg0 k.val 0 0) 0 s :=
  if_pos (Bool.and_eq_true_iff.mpr ⟨decide_eq_true hraised, decide_eq_true hbeyond⟩)

end

/-- Settles O34: a layout by what refuses it, an allotment by the budget, each on the state the access meets. -/
theorem memConfiguration : Obligations.MemConfiguration := by
  refine ⟨fun m v s hs => ?_, fun m k v s hs => ?_⟩
  · have hexec : exec (.memLayoutWrite m v) s = .next (memLayout v (accessed m s)) := actBy_accepts hs
    refine ⟨fun hidle hcapt hfits => ?_, fun hbarred => ?_, ?_⟩
    · exact hexec.trans (congrArg _ (memLayout_applied hidle hcapt hfits))
    · exact hexec.trans (congrArg _ (memLayout_refused hbarred))
    · exact ⟨discardRegions_granary _, discardRegions_chans _, discardRegions_scratch _, discardRegions_chains _,
        discardRegions_regs _, discardRegions_hostMem _, discardRegions_hif _⟩
  · have hexec : exec (.memAllotWrite m k v) s = .next (memAllot k v (accessed m s)) := actBy_accepts hs
    refine ⟨fun hadmitted => ?_, fun hraised hbeyond => ?_⟩
    · exact hexec.trans (congrArg _ (memAllot_admitted hadmitted))
    · exact hexec.trans (congrArg _ (memAllot_refused hraised hbeyond))

end Sys2Proof.Machine
end

section
/-!
SUPPORT. Every command, and with it every step, keeps the invariant; a step on an empty queue is one TCLK edge.
-/
namespace Sys2Proof.Machine

section
variable {κ : List Instr × Fuses} {c : Instr} {s : State}

/-- Every command keeps what Kept speaks of: command by command, in the order of exec's arms. -/
theorem exec_inv (h : Kept κ s) : KeptNext κ (exec c s) :=
  match c with
  | .registerWrite _ _ _ => execRegisterWrite_inv h | .splitWriteLow _ _ => execSplitWriteLow_inv h
  | .splitWriteHigh _ _ => execSplitWriteHigh_inv h | .mmioUnsupported _ => execMmioUnsupported_inv h
  | .inputMapWindowWrite _ _ _ => execInputMapWindowWrite_inv h | .delayWindowWrite _ _ _ => execDelayWindowWrite_inv h
  | .recoveryBufferWrite _ _ _ => execRecoveryBufferWrite_inv h | .fabricGrant _ _ _ => execFabricGrant_inv h
  | .qosAgeing _ _ => execQosAgeing_inv h | .fabMasterDrained _ => execFabMasterDrained_inv h | .clkMonFault _ => execClkMonFault_inv h
  | .remapSwap _ => execRemapSwap_inv h | .ethFrameReceive _ _ => execEthFrameReceive_inv h
  | .ptpTxInterval _ _ => execPtpTxInterval_inv h | .batchWindowExpire _ _ => execBatchWindowExpire_inv h
  | .ingTableInval _ _ => execIngTableInval_inv h | .regionRotate _ _ => execRegionRotate_inv h
  | .weightSynthesis _ _ => execWeightSynthesis_inv h | .millSegmentEnd => execMillSegmentEnd_inv h
  | .pieceDrain _ _ _ => execPieceDrain_inv h | .rerunDone _ _ => execRerunDone_inv h
  | .regionComputeDone _ => execRegionComputeDone_inv h | .shadowWindowEnd _ => execShadowWindowEnd_inv h
  | .testTaskDone _ _ => execTestTaskDone_inv h | .harvestBatch _ _ _ => execHarvestBatch_inv h
  | .sweepTimerExpire _ _ => execSweepTimerExpire_inv h | .chainBatch _ _ _ => execChainBatch_inv h
  | .detRangeSet _ _ => execDetRangeSet_inv h | .trigInEdge _ => execTrigInEdge_inv h | .armEffect => execArmEffect_inv h
  | .settleEnd _ => execSettleEnd_inv h | .capturePacketSend _ => execCapturePacketSend_inv h
  | .captureConfigApply => execCaptureConfigApply_inv h | .memLayoutWrite _ _ => execMemLayoutWrite_inv h
  | .memAllotWrite _ _ _ => execMemAllotWrite_inv h | .allotmentRefill => execAllotmentRefill_inv h | .hbmAccess _ => execHbmAccess_inv h
  | .refreshDue _ _ => execRefreshDue_inv h | .scrubRead _ _ _ _ => execScrubRead_inv h | .timeNowSRead _ => execTimeNowSRead_inv h
  | .timeRateWrite _ _ => execTimeRateWrite_inv h | .timeStep _ _ => execTimeStep_inv h | .timeSlewWrite _ _ => execTimeSlewWrite_inv h
  | .ppsInEdge _ => execPpsInEdge_inv h | .timePpsLost => execTimePpsLost_inv h | .timeSourceLost => execTimeSourceLost_inv h
  | .refGateEnd _ => execRefGateEnd_inv h | .timeRefLost _ => execTimeRefLost_inv h | .refSettleEnd => execRefSettleEnd_inv h
  | .tdcCalRequest _ _ => execTdcCalRequest_inv h | .tdcCalDone _ => execTdcCalDone_inv h | .tdcGo _ _ => execTdcGo_inv h
  | .tdcMeasureDone _ => execTdcMeasureDone_inv h | .timeTsqPop _ _ => execTimeTsqPop_inv h | .tsqClrDrops _ _ => execTsqClrDrops_inv h
  | .ppsOutPulse _ => execPpsOutPulse_inv h | .syncOutPulse => execSyncOutPulse_inv h | .syncInEdge _ => execSyncInEdge_inv h
  | .bellFrameLaunch _ _ => execBellFrameLaunch_inv h | .bellHeaderReceive _ _ _ _ => execBellHeaderReceive_inv h
  | .bellSlotReceive _ _ _ => execBellSlotReceive_inv h | .bellFireRecord _ _ => execBellFireRecord_inv h
  | .bellArmRecord _ _ => execBellArmRecord_inv h | .bellRoleRecord _ _ => execBellRoleRecord_inv h
  | .bellDeadRecord _ _ => execBellDeadRecord_inv h | .bellMsgRecord _ _ => execBellMsgRecord_inv h
  | .bellSilenceTimeout _ => execBellSilenceTimeout_inv h | .bellBackoffEnd _ => execBellBackoffEnd_inv h
  | .bellClaimReceive _ _ _ _ => execBellClaimReceive_inv h | .bellDeadTimeout _ _ => execBellDeadTimeout_inv h
  | .isolateFenceTimeout => execIsolateFenceTimeout_inv h | .roleBeaconTimer => execRoleBeaconTimer_inv h
  | .bellCfgWrite _ _ => execBellCfgWrite_inv h | .laneGroupCfgWrite _ _ _ => execLaneGroupCfgWrite_inv h
  | .laneCfgWrite _ _ _ => execLaneCfgWrite_inv h | .laneBellCfgWrite _ _ => execLaneBellCfgWrite_inv h
  | .laneNegTimer _ => execLaneNegTimer_inv h | .laneMarkerLock _ => execLaneMarkerLock_inv h
  | .virosNegFrame _ _ => execVirosNegFrame_inv h | .virosTrainFrame _ _ => execVirosTrainFrame_inv h
  | .laneStateTimeout _ => execLaneStateTimeout_inv h | .virosDataFrame _ _ _ => execVirosDataFrame_inv h
  | .virosCtrlFrame _ _ _ => execVirosCtrlFrame_inv h | .virosReplayTimeout _ _ => execVirosReplayTimeout_inv h
  | .virosIdleTimer _ => execVirosIdleTimer_inv h | .ethLinkLoss _ => execEthLinkLoss_inv h | .pcieLinkReset _ => execPcieLinkReset_inv h
  | .perstN => execPerstN_inv h | .pcieD3hot => execPcieD3hot_inv h | .pcieD0 => execPcieD0_inv h
  | .hifRingCfgWrite _ _ _ _ => execHifRingCfgWrite_inv h | .hifPollTick => execHifPollTick_inv h
  | .hifNudge _ v => execHifNudge_inv (_value := v) h | .descFetch _ _ => execDescFetch_inv h | .nop _ => execNop_inv h
  | .start _ => execStart_inv h | .configure _ => execConfigure_inv h | .stop _ => execStop_inv h
  | .tableWrite _ _ => execTableWrite_inv h | .bankCommit _ => execBankCommit_inv h | .bankCommitApply _ => execBankCommitApply_inv h
  | .captureConfig _ => execCaptureConfig_inv h | .triggerArm _ => execTriggerArm_inv h | .triggerFire _ => execTriggerFire_inv h
  | .statsRead _ => execStatsRead_inv h | .portConfig _ => execPortConfig_inv h | .roleAssign _ => execRoleAssign_inv h
  | .timeQuality _ => execTimeQuality_inv h | .stwLoad _ _ => execStwLoad_inv h | .stwRun _ => execStwRun_inv h
  | .stwStop _ => execStwStop_inv h | .fwWrite _ _ => execFwWrite_inv h | .query _ => execQuery_inv h
  | .badOpcode _ => execBadOpcode_inv h | .attnClrWithheld _ _ => execAttnClrWithheld_inv h | .attnClrSev _ _ => execAttnClrSev_inv h
  | .hbToggle => execHbToggle_inv h | .irqModExpire _ => execIrqModExpire_inv h | .hifEstop _ _ => execHifEstop_inv h
  | .reeveLockstep _ => execReeveLockstep_inv h | .depReeveRestarted => execDepReeveRestarted_inv h
  | .voltageSample _ => execVoltageSample_inv h | .voltageRecovered => execVoltageRecovered_inv h | .configScan _ => execConfigScan_inv h
  | .outageTick => execOutageTick_inv h | .outageCommitTimer => execOutageCommitTimer_inv h | .pwrWarn => execPwrWarn_inv h
  | .stwInterruptEntry _ => execStwInterruptEntry_inv h | .stwTimerExpire _ => execStwTimerExpire_inv h
  | .stwSlotStall _ => execStwSlotStall_inv h | .stwNop _ => execStwNop_inv h | .stwAdd _ => execStwAdd_inv h
  | .stwAdc _ => execStwAdc_inv h | .stwSub _ => execStwSub_inv h | .stwSbc _ => execStwSbc_inv h | .stwCmp _ => execStwCmp_inv h
  | .stwAnd _ => execStwAnd_inv h | .stwOr _ => execStwOr_inv h | .stwXor _ => execStwXor_inv h | .stwShl _ => execStwShl_inv h
  | .stwShr _ => execStwShr_inv h | .stwAsr _ => execStwAsr_inv h | .stwMul _ => execStwMul_inv h | .stwMin _ => execStwMin_inv h
  | .stwMax _ => execStwMax_inv h | .stwAbs _ => execStwAbs_inv h | .stwNeg _ => execStwNeg_inv h | .stwPopc _ => execStwPopc_inv h
  | .stwNorm _ => execStwNorm_inv h | .stwMov _ => execStwMov_inv h | .stwLdi _ => execStwLdi_inv h | .stwLdh _ => execStwLdh_inv h
  | .stwAddi _ => execStwAddi_inv h | .stwCmpi _ => execStwCmpi_inv h | .stwLd _ => execStwLd_inv h | .stwSt _ => execStwSt_inv h
  | .stwMpy _ => execStwMpy_inv h | .stwMac _ => execStwMac_inv h | .stwMsu _ => execStwMsu_inv h | .stwLd2 _ => execStwLd2_inv h
  | .stwMva _ => execStwMva_inv h | .stwLda _ => execStwLda_inv h | .stwSha _ => execStwSha_inv h | .stwAdda _ => execStwAdda_inv h
  | .stwClra _ => execStwClra_inv h | .stwBr _ => execStwBr_inv h | .stwCall _ => execStwCall_inv h | .stwRet _ => execStwRet_inv h
  | .stwRti _ => execStwRti_inv h | .stwRep _ => execStwRep_inv h | .stwMovp _ => execStwMovp_inv h | .stwSetp _ => execStwSetp_inv h
  | .stwMovs _ => execStwMovs_inv h | .stwXreq _ => execStwXreq_inv h | .stwXwait _ => execStwXwait_inv h
  | .stwWait _ => execStwWait_inv h | .stwHalt _ => execStwHalt_inv h | .stwIllegal _ _ => execStwIllegal_inv h
  | .stwXferRead _ => execStwXferRead_inv h | .stwXferWrite _ => execStwXferWrite_inv h | .stwXferCommit _ => execStwXferCommit_inv h
  | .stwXferRange _ => execStwXferRange_inv h | .stwXferDone _ => execStwXferDone_inv h
  | .dmaStartRegister _ _ _ => execDmaStartRegister_inv h | .dmaStartDescriptor _ _ _ => execDmaStartDescriptor_inv h
  | .dmaAbortWrite _ _ _ => execDmaAbortWrite_inv h | .dmaDescFetched _ _ => execDmaDescFetched_inv h
  | .dmaBurstReadDone _ _ => execDmaBurstReadDone_inv h | .dmaBurstWriteAck _ _ => execDmaBurstWriteAck_inv h
  | .smbReadAttn => execSmbReadAttn_inv h | .smbReadPart => execSmbReadPart_inv h | .smbReadTj => execSmbReadTj_inv h
  | .smbReadPower => execSmbReadPower_inv h | .smbReadTemps => execSmbReadTemps_inv h | .smbReadRails => execSmbReadRails_inv h
  | .smbReadOutage => execSmbReadOutage_inv h | .smbOther _ _ => execSmbOther_inv h | .chal => execChal_inv h | .unlk _ => execUnlk_inv h
  | .stat => execStat_inv h | .monEstop => execMonEstop_inv h | .monRd _ => execMonRd_inv h | .monWr _ _ => execMonWr_inv h
  | .monEvt _ => execMonEvt_inv h | .aud _ => execAud_inv h | .baud _ => execBaud_inv h | .lock => execLock_inv h
  | .fuseLockout _ => execFuseLockout_inv h | .monSyntax n => execMonSyntax_inv (_length := n) h
  | .monIdleTimeout => execMonIdleTimeout_inv h
  | .monThrottleEnd => execMonThrottleEnd_inv h | .monAuditTimeout => execMonAuditTimeout_inv h | .monRelock _ _ => execMonRelock_inv h
  | .monDisable _ _ => execMonDisable_inv h | .porNAssert => execPorNAssert_inv h | .porNRelease => execPorNRelease_inv h
  | .sysRstN _ => execSysRstN_inv h | .sysResetWrite _ _ => execSysResetWrite_inv h | .deviceReset => execDeviceReset_inv h
  | .bootRomDone _ _ => execBootRomDone_inv h | .bootLedgerDone => execBootLedgerDone_inv h | .bootVerifyDone => execBootVerifyDone_inv h
  | .sysBootDone => execSysBootDone_inv h | .ledgerProgramDone _ => execLedgerProgramDone_inv h
  | .eventLogCommitTimer => execEventLogCommitTimer_inv h | .thermSample _ => execThermSample_inv h
  | .thermDwellTimer => execThermDwellTimer_inv h | .standbyRequest _ _ => execStandbyRequest_inv h
  | .standbyExitRequest _ _ => execStandbyExitRequest_inv h | .standbyExitDone => execStandbyExitDone_inv h
  | .jtagExtest _ => execJtagExtest_inv h | .jtagSamplePreload _ _ => execJtagSamplePreload_inv h | .jtagIdcode => execJtagIdcode_inv h
  | .jtagClamp => execJtagClamp_inv h | .jtagHighz => execJtagHighz_inv h | .jtagBypass _ => execJtagBypass_inv h
  | .ethLinkUp _ _ => execEthLinkUp_inv h | .pcieLinkUp _ _ => execPcieLinkUp_inv h | .powerLoss => execPowerLoss_inv h
  | .jtagTestLogicReset => execJtagTestLogicReset_inv h

end

section
variable {s : State}

theorem step_empty (h : s.pending = []) : step s = .next (idleStep s) := by
  rw [step, h]

theorem step_front {c : Instr} {rest : List Instr} (h : s.pending = c :: rest) : step s = exec c { s with pending := rest } := by
  rw [step, h]

theorem idleStep_held (h : held s = true) : idleStep s = { s with tick := s.tick + 1 } := by
  rw [idleStep, if_pos h]

theorem idleStep_runs (h : Runs s) : idleStep s = { timeTick s with tick := s.tick + 1 } := by
  rw [idleStep, if_neg (ne_true_of_eq_false h)]

end

/-- Settles O4: with an empty queue the step is a TCLK edge, else it is the front's command on a state that keeps the invariant too. -/
theorem stepKeepsInv : Obligations.StepKeepsInv := by
  intro s t hinv hstep
  cases hqueue : s.pending with
  | nil =>
    obtain rfl : idleStep s = t := Host.Outcome.next.inj ((step_empty hqueue).symm.trans hstep)
    exact (idleStep_inv (Kept.self hinv)).inv
  | cons c rest =>
    have hexec : exec c { s with pending := rest } = .next t := (step_front hqueue).symm.trans hstep
    exact (exec_inv (Kept.self hinv.setPending) t hexec).inv

/-- Settles O2: a held device only counts the edge, one that runs takes it as well. -/
theorem emptyQueueTicks : Obligations.EmptyQueueTicks := fun _ hempty =>
  ⟨fun hheld => (step_empty hempty).trans (congrArg _ (idleStep_held hheld)),
    fun hruns => (step_empty hempty).trans (congrArg _ (idleStep_runs hruns))⟩

end Sys2Proof.Machine
end

section
/-!
SUPPORT. Local time: the timebase as one number, a TCLK edge without holdover, a load of TIME_SET, and who may change the time.
-/
namespace Sys2Proof.Machine

/-! ### The timebase as one number -/

theorem localQ_setLocalQ (q : Int) (s : State) : (localQ (setLocalQ q s) : Int) = q % (2 ^ 48 * secUnits : Nat) := by
  have hsplit : localQ (setLocalQ q s) = (q % (2 ^ 48 * secUnits : Nat)).toNat := Nat.div_add_mod' _ secUnits
  rw [hsplit, Int.toNat_of_nonneg (Int.emod_nonneg _ (by decide))]

theorem setLocalQ_sub_lt (q : Int) (s : State) : (setLocalQ q s).time.sub < secUnits := Nat.mod_lt _ (by decide)

/-- A time already split into seconds and their fraction is stored as it is. -/
theorem setLocalQ_time_of_split {sec sub : Nat} (hsec : sec < 2 ^ 48) (hsub : sub < secUnits) (s : State) :
    (setLocalQ (sec * secUnits + sub : Nat) s).time = { s.time with sec := sec, sub := sub } := by
  have hpos : 0 < secUnits := by decide
  have hlt : sec * secUnits + sub < 2 ^ 48 * secUnits := by
    calc sec * secUnits + sub < (sec + 1) * secUnits := by rw [Nat.succ_mul]; omega
      _ ≤ 2 ^ 48 * secUnits := Nat.mul_le_mul_right _ hsec
  have hmod : (((sec * secUnits + sub : Nat) : Int) % (2 ^ 48 * secUnits : Nat)).toNat = sec * secUnits + sub := by
    rw [← Int.natCast_emod, Int.toNat_natCast, Nat.mod_eq_of_lt hlt]
  have hdiv : (sec * secUnits + sub) / secUnits = sec := by
    rw [Nat.add_comm, Nat.add_mul_div_right _ _ hpos, Nat.div_eq_of_lt hsub, Nat.zero_add]
  have hrest : (sec * secUnits + sub) % secUnits = sub := by rw [Nat.mul_add_mod', Nat.mod_eq_of_lt hsub]
  simp only [setLocalQ, hmod, hdiv, hrest]

/-! ### What leaves the time as it is -/

@[simp] theorem noteAttn_time (o s : State) : (noteAttn o s).time = s.time := by
  obtain ⟨_, _, _, h⟩ := noteAttn_frame o s
  rw [h]

@[simp] theorem updateTimeq_time (s : State) : (updateTimeq s).time = s.time := by
  unfold updateTimeq
  dsimp only
  split
  · rfl
  · rw [raise_time, noteAttn_time]

/-- noteRun changes the record of runs and nothing else. -/
theorem noteRun_frame (n : Nat) (d : Int) (s : State) :
    noteRun n d s = { s with time := { s.time with runs := (noteRun n d s).time.runs } } := by
  unfold noteRun
  split
  · rfl
  · rfl

@[simp] theorem localQ_noteRun (n : Nat) (d : Int) (s : State) : localQ (noteRun n d s) = localQ s := by
  rw [noteRun_frame]
  rfl

@[simp] theorem noteRun_holdover (n : Nat) (d : Int) (s : State) : (noteRun n d s).time.holdover = s.time.holdover := by
  rw [noteRun_frame]

/-! ### A load of TIME_SET -/

section
variable {s : State}

/-- What TIME_SET holds below its seconds, in units of 2^-32 ns (R211). -/
def setFraction (s : State) : Nat := getF fTimeSetNsNs .timeSetNs s * 2 ^ 32 + getF fTimeSetNsFrac .timeSetNs s * 2 ^ 16

theorem loadStep_valid (h : getF fTimeSetNsNs .timeSetNs s < 1000000000) :
    loadStep s = updateTimeq (raise .timeStepped none 0 0
      (setLocalQ (getF fTimeSetSSec .timeSetS s * secUnits + setFraction s : Nat)
        (let c := setF fTimeCtlStep .timeCtl 0 s; { c with time := { c.time with everSet := true } }))) := by
  rw [setFraction, ← Nat.add_assoc]
  exact if_neg (Nat.not_le.mpr h)

theorem setFraction_lt (h : getF fTimeSetNsNs .timeSetNs s < 1000000000) : setFraction s < secUnits := by
  have hfrac : getF fTimeSetNsFrac .timeSetNs s < 2 ^ 16 := bitsOf_lt le_rfl
  unfold setFraction secUnits
  omega

/-- A valid load: the seconds of TIME_SET, with what it holds below them. -/
theorem loadStep_time (h : getF fTimeSetNsNs .timeSetNs s < 1000000000) : (loadStep s).time =
    { s.time with sec := getF fTimeSetSSec .timeSetS s, sub := setFraction s, everSet := true } := by
  have hsec : getF fTimeSetSSec .timeSetS s < 2 ^ 48 := bitsOf_lt le_rfl
  rw [loadStep_valid h, updateTimeq_time, raise_time, setLocalQ_time_of_split hsec (setFraction_lt h)]
  dsimp only
  rw [setF_time]

@[simp] theorem loadStep_holdover (s : State) : (loadStep s).time.holdover = s.time.holdover := by
  by_cases h : getF fTimeSetNsNs .timeSetNs s < 1000000000
  · rw [loadStep_time h]
  · have hvoid : loadStep s = raise .timeSetRefused none 0 0 (setF fTimeCtlStep .timeCtl 0 s) := if_pos (Nat.not_lt.mp h)
    rw [hvoid, raise_time, setF_time]

end

/-! ### A TCLK edge -/

theorem clampInt_below {lo hi x : Int} (h : x < lo) : clampInt lo hi x = lo := if_pos h

theorem clampInt_within {lo hi x : Int} (hlo : lo ≤ x) (hhi : x ≤ hi) : clampInt lo hi x = x := by
  rw [clampInt, if_neg hlo.not_gt, if_neg hhi.not_gt]

theorem clampInt_above {lo hi x : Int} (hle : lo ≤ hi) (h : hi < x) : clampInt lo hi x = hi := by
  rw [clampInt, if_neg (hle.trans h.le).not_gt, if_pos h]

theorem slewStep_within {x : Int} (h : x.natAbs ≤ 1073741) : slewStep x = x := clampInt_within (by omega) (by omega)

theorem slewStep_above {x : Int} (h : 1073741 < x) : slewStep x = 1073741 := clampInt_above (by decide) h

theorem slewStep_below {x : Int} (h : x < -1073741) : slewStep x = -1073741 := clampInt_below h

/-- What a TCLK edge adds to local time: the increment and the slew's step (R208, R211). -/
def edgeStep (s : State) : Int := increment s + slewStep s.time.slewLeft

/-- The device with local time advanced by an edge, the slew's step taken off what is left of the slew. -/
def advanced (s : State) : State :=
  let u := setLocalQ (localQ s + edgeStep s) s
  { u with time := { u.time with slewLeft := s.time.slewLeft - slewStep s.time.slewLeft } }

theorem localQ_advanced (s : State) : (localQ (advanced s) : Int) = (localQ s + edgeStep s) % (2 ^ 48 * secUnits : Nat) :=
  localQ_setLocalQ _ s

/-- The load of a step that waits for the edge, where one does (R211). -/
def stepLoaded (s : State) : State :=
  if getF fTimeCtlStep .timeCtl s = 1 && getF fTimeCtlStepAtPps .timeCtl s = 0 then loadStep s else s

theorem stepLoaded_unset {s : State} (hstep : getF fTimeCtlStep .timeCtl s = 0) : stepLoaded s = s :=
  if_neg (by rw [hstep]; exact Bool.false_ne_true)

theorem stepLoaded_waiting {s : State} (hstep : getF fTimeCtlStep .timeCtl s = 1) (hpps : getF fTimeCtlStepAtPps .timeCtl s = 0) :
    stepLoaded s = loadStep s :=
  if_pos (by rw [hstep, hpps]; rfl)

@[simp] theorem stepLoaded_holdover (s : State) : (stepLoaded s).time.holdover = s.time.holdover := by
  unfold stepLoaded
  split
  · exact loadStep_holdover s
  · rfl

section
variable {s : State} (hhold : s.time.holdover = false)
include hhold

/-- Outside holdover an edge advances local time, loads a step that waits for it and notes the run. -/
theorem timeTick_eq : timeTick s = noteRun (s.tick + 1) (edgeStep s) (stepLoaded (advanced s)) := by
  have hnoted (u : State) (hu : u = advanced s) :
      (let v := noteRun (s.tick + 1) (edgeStep s) (stepLoaded u)
      if v.time.holdover then updateTimeq v else v) = noteRun (s.tick + 1) (edgeStep s) (stepLoaded (advanced s)) := by
    subst hu
    refine if_neg ?_
    rw [noteRun_holdover, stepLoaded_holdover]
    exact ne_true_of_eq_false hhold
  unfold timeTick
  refine hnoted _ ?_
  rw [hhold]
  rfl

/-- An edge with no step set advances local time and notes the run. -/
theorem timeTick_unset (hstep : getF fTimeCtlStep .timeCtl s = 0) : timeTick s = noteRun (s.tick + 1) (edgeStep s) (advanced s) :=
  (timeTick_eq hhold).trans (congrArg _ (stepLoaded_unset (s := advanced s) hstep))

/-- An edge that a step waits for loads it. -/
theorem timeTick_loads (hstep : getF fTimeCtlStep .timeCtl s = 1) (hpps : getF fTimeCtlStepAtPps .timeCtl s = 0) :
    timeTick s = noteRun (s.tick + 1) (edgeStep s) (loadStep (advanced s)) :=
  (timeTick_eq hhold).trans (congrArg _ (stepLoaded_waiting (s := advanced s) hstep hpps))

/-- An edge with no step set changes local time, what is left of a slew and the record of runs, and nothing else. -/
theorem timeTick_frame (hstep : getF fTimeCtlStep .timeCtl s = 0) : timeTick s = { s with time := { s.time with
    sec := (timeTick s).time.sec, sub := (timeTick s).time.sub, slewLeft := (timeTick s).time.slewLeft,
    runs := (timeTick s).time.runs } } := by
  rw [timeTick_unset hhold hstep, noteRun_frame]
  rfl

end

/-! ### Who may change the time -/

theorem timeRefused_iff {m : Master} {s : State} : timeRefused m s = true ↔ timeSource s ≠ 3 ∧ m ≠ .reeve := by
  simp [timeRefused]

theorem timeRefused_of_source {m : Master} {s : State} (h : timeSource s ≠ 3) (hm : m ≠ .reeve) : timeRefused m s = true :=
  timeRefused_iff.mpr ⟨h, hm⟩

/-- Under SOURCE = HOST anyone may change the time, and the Reeve's servo always (R209, R211). -/
theorem timeRefused_not {m : Master} {s : State} (h : timeSource s = 3 ∨ m = .reeve) : ¬timeRefused m s = true :=
  fun href => (timeRefused_iff.mp href).elim fun hs hm => h.elim hs hm

/-! ### Writes of TIME_CTL -/

/-- What a write of TIME_CTL stores before it looks at STEP (R211, Table 09-2). -/
def timeCtlStored (v : Payload) (s : State) : State :=
  let a := setF fTimeCtlSource .timeCtl (fld fTimeCtlSource v) (setF fTimeCtlTqReq .timeCtl (fld fTimeCtlTqReq v) s)
  let b := if fld fTimeCtlSource v = 1 then a else { a with time := { a.time with ppsLocked := false } }
  updateTimeq (setF fTimeCtlStepAtPps .timeCtl (fld fTimeCtlStepAtPps v) (setF fTimeCtlTauLog2 .timeCtl (min 10 (fld fTimeCtlTauLog2 v)) b))

section
variable {m : Master} {v : Payload} {s : State}

theorem timeCtlWrite_eq : timeCtlWrite m v s =
    if fld fTimeCtlStep v = 0 then timeCtlStored v s
    else if timeRefused m (timeCtlStored v s) then raise .timeSetRefused none 0 0 (timeCtlStored v s)
    else if getF fTimeSetNsNs .timeSetNs (timeCtlStored v s) ≥ 1000000000 then
      raise .timeSetRefused none 0 0 (setF fTimeCtlStep .timeCtl 0 (timeCtlStored v s))
    else setF fTimeCtlStep .timeCtl 1 (timeCtlStored v s) := rfl

/-- Without STEP a write of TIME_CTL stores its other fields. -/
theorem timeCtlWrite_stores (hstep : fld fTimeCtlStep v = 0) : timeCtlWrite m v s = timeCtlStored v s := by
  rw [timeCtlWrite_eq, if_pos hstep]

variable (hstep : fld fTimeCtlStep v = 1)
include hstep

theorem timeCtlWrite_refused (href : timeRefused m (timeCtlStored v s) = true) :
    timeCtlWrite m v s = raise .timeSetRefused none 0 0 (timeCtlStored v s) := by
  rw [timeCtlWrite_eq, if_neg (by omega), if_pos href]

variable (href : timeRefused m (timeCtlStored v s) = false)
include href

/-- STEP with a valid TIME_SET is set. -/
theorem timeCtlWrite_step (hns : getF fTimeSetNsNs .timeSetNs (timeCtlStored v s) < 1000000000) :
    timeCtlWrite m v s = setF fTimeCtlStep .timeCtl 1 (timeCtlStored v s) := by
  rw [timeCtlWrite_eq, if_neg (by omega), if_neg (ne_true_of_eq_false href), if_neg (Nat.not_le.mpr hns)]

/-- STEP with a TIME_SET of 10^9 ns or more is void. -/
theorem timeCtlWrite_void (hns : 1000000000 ≤ getF fTimeSetNsNs .timeSetNs (timeCtlStored v s)) :
    timeCtlWrite m v s = raise .timeSetRefused none 0 0 (setF fTimeCtlStep .timeCtl 0 (timeCtlStored v s)) := by
  rw [timeCtlWrite_eq, if_neg (by omega), if_neg (ne_true_of_eq_false href), if_pos hns]

end

/-- Settles O37: an edge and a load by the number local time is, each write by who may make it. -/
theorem timeChanges : Obligations.TimeChanges := by
  refine ⟨fun s hstep hhold => ?_, fun m v s hs => ?_, fun m v s hs => ?_, fun s _ hns => ?_, fun s _ hstep hpps hhold => ?_⟩
  · refine ⟨?_, ?_, ?_, slewStep_within, slewStep_above, slewStep_below, timeTick_frame hhold hstep⟩
    · rw [timeTick_unset hhold hstep, localQ_noteRun, localQ_advanced, edgeStep, ← add_assoc]
      rfl
    · rw [timeTick_unset hhold hstep, noteRun_frame]
      exact setLocalQ_sub_lt _ s
    · rw [timeTick_unset hhold hstep, noteRun_frame]
      rfl
  · have hexec : exec (.timeSlewWrite m v) s = .next (timeSlewWrite m v (accessed m s)) := actBy_accepts hs
    refine ⟨fun hmay => hexec.trans (congrArg _ ?_), fun hsource hm => hexec.trans (congrArg _ ?_)⟩
    · exact if_neg (timeRefused_not hmay)
    · exact if_pos (timeRefused_of_source hsource hm)
  · have hexec : exec (.timeStep m v) s = .next (timeCtlWrite m v (accessed m s)) := actBy_accepts hs
    refine ⟨fun hstep => hexec.trans (congrArg _ ?_), fun hstep href => hexec.trans (congrArg _ ?_),
      fun hstep href hns => hexec.trans (congrArg _ ?_), fun hstep href hns => hexec.trans (congrArg _ ?_)⟩
    · exact timeCtlWrite_stores hstep
    · exact timeCtlWrite_refused hstep href
    · exact timeCtlWrite_step hstep href hns
    · exact timeCtlWrite_void hstep href hns
  · dsimp only
    rw [loadStep_time hns]
    exact ⟨rfl, rfl, rfl⟩
  · exact timeTick_loads hhold hstep hpps

end Sys2Proof.Machine
end

section
/-!
SUPPORT. Reading local time and setting its rate: each master's latch of TIME_NOW_NS, and ADJ within its bounds.
-/
namespace Sys2Proof.Machine

/-! ### The latches of TIME_NOW_NS -/

theorem masterKey_ne {m o : Master} (h : o ≠ m) : masterKey o ≠ masterKey m := by
  cases o <;> cases m <;> simp_all [masterKey]

section
variable {m o : Master} {s : State}

/-- A latch of TIME_NOW_NS is in no Crier word: the word read is the same before and after it. -/
theorem readWord_timeNowLatch (v : Payload) : readWord v (timeNowLatch m s) = readWord v s := rfl

/-- The master that read TIME_NOW_S reads NS and FRAC of that moment in TIME_NOW_NS (R210). -/
theorem readReg_timeNowLatch_same (h : storeSorted none s.time.latches = true) :
    readReg m .timeNowNs (timeNowLatch m s) = BitVec.ofNat 48 (s.time.sub / 2 ^ 16) :=
  congrArg (BitVec.ofNat 48) (storeGet_set_same _ _ _ _ h)

/-- A read of TIME_NOW_S that takes effect returns SEC and latches NS and FRAC for its master (R210). -/
theorem exec_timeNowSRead (hs : Accepts m s) : exec (.timeNowSRead m) s =
    .next (emit (.readData m (readWord (BitVec.ofNat 48 (accessed m s).time.sec) (timeNowLatch m (accessed m s))))
      (timeNowLatch m (accessed m s))) := by
  change execTimeNowSRead m s = _
  rw [execTimeNowSRead, actBy_accepts hs, readWord_timeNowLatch]

/-- Another master's copy of TIME_NOW_NS stays. -/
theorem readReg_timeNowLatch_other (h : o ≠ m) : readReg o .timeNowNs (timeNowLatch m s) = readReg o .timeNowNs s :=
  congrArg (BitVec.ofNat 48) (storeGet_set_other _ _ _ _ _ (masterKey_ne h))

end

/-! ### ADJ -/

/-- A number within 32-bit two's complement is read back from its low 32 bits. -/
theorem signedOf_unsignedOf {x : Int} (hlo : -(2 ^ 31) ≤ x) (hhi : x < 2 ^ 31) : signedOf 32 (unsignedOf 32 x) = x := by
  simp only [signedOf, unsignedOf]
  omega

section
variable {m : Master} {v : Payload} {s : State}

theorem adj_setF {x : Int} (h : StateInv s) (hlo : -(2 ^ 31) ≤ x) (hhi : x < 2 ^ 31) :
    adj (setF fTimeRateAdj .timeRate (unsignedOf 32 x) s) = x := by
  have hlt : unsignedOf 32 x < 2 ^ 32 := by unfold unsignedOf; omega
  have hread : getF fTimeRateAdj .timeRate (setF fTimeRateAdj .timeRate (unsignedOf 32 x) s) = unsignedOf 32 x :=
    (getF_setF h (by decide) (by decide)).trans (Nat.mod_eq_of_lt hlt)
  rw [adj, hread]
  exact signedOf_unsignedOf hlo hhi

theorem timeRateWrite_refused (hsource : timeSource s ≠ 3) (hm : m ≠ .reeve) :
    timeRateWrite m v s = raise .timeSetRefused none 0 0 s :=
  if_pos (timeRefused_of_source hsource hm)

/-- Who may write ADJ stores it clamped (R209). -/
theorem timeRateWrite_stores (hmay : timeSource s = 3 ∨ m = .reeve) {x : Int}
    (hx : clampInt (-10737418) 10737418 (signedOf 32 (fld fTimeRateAdj v)) = x) :
    timeRateWrite m v s = setF fTimeRateAdj .timeRate (unsignedOf 32 x) s := by
  rw [timeRateWrite, if_neg (timeRefused_not hmay), hx]

end

/-- Settles O36: a read by the latch it sets, a write of TIME_RATE by who makes it and where ADJ lies against its bounds. -/
theorem timeNowAndRate : Obligations.TimeNowAndRate := by
  intro m v s hs
  have hrate : exec (.timeRateWrite m v) s = .next (timeRateWrite m v (accessed m s)) := actBy_accepts hs
  refine ⟨⟨timeNowLatch m (accessed m s), exec_timeNowSRead hs, rfl,
      fun hsorted => ⟨readReg_timeNowLatch_same hsorted, fun _ => readReg_timeNowLatch_other⟩⟩,
    fun hmay => ⟨fun hlow => ?_, fun hlo hhi => ?_, fun hhigh => ?_⟩,
    fun hsource hm => hrate.trans (congrArg _ (timeRateWrite_refused hsource hm)), fun _ _ => rfl, rfl,
    fun hinv x => adj_setF hinv⟩
  · exact hrate.trans (congrArg _ (timeRateWrite_stores hmay (clampInt_below hlow)))
  · exact hrate.trans (congrArg _ (timeRateWrite_stores hmay (clampInt_within hlo hhi)))
  · exact hrate.trans (congrArg _ (timeRateWrite_stores hmay (clampInt_above (by decide) hhigh)))

end Sys2Proof.Machine
end

section
/-!
SUPPORT. References: one gate's judgement by the cases of its offset, a reference that stops, and the source in use that is kept.
-/
namespace Sys2Proof.Machine

/-! ### One gate of one reference -/

section
variable {y : Int} {r : RefMon} {s : State}

/-- Gates in a row beyond TOL, this one counted. -/
def beyondRun (y : Int) (r : RefMon) (s : State) : Nat := if y.natAbs > (refTol s).1 then r.beyond + 1 else 0

/-- Gates in a row within TOL less HYST, this one counted. -/
def goodRun (y : Int) (r : RefMon) (s : State) : Nat := if y.natAbs < (refTol s).2 then r.good + 1 else 0

/-- The quality a gate finds: a reference that was absent counts as OUT (log 81). -/
def judgedQual (r : RefMon) : Nat := if r.qual = 0 then 1 else r.qual

/-- A gate that measured an enabled reference (R219), its grounds in their order. -/
theorem judgeRef_measured : judgeRef true (some y) r s =
    if judgedQual r ≠ 1 ∧ getF fTimeRefCfgDwell .timeRefCfg s ≤ beyondRun y r s then
      (⟨1, 0, goodRun y r s, y⟩, some .timeRefOutTol)
    else if judgedQual r ≠ 3 ∧ getF fTimeRefCfgReturn .timeRefCfg s ≤ goodRun y r s then
      (⟨3, beyondRun y r s, 0, y⟩, some .timeRefGood)
    else if judgedQual r = 3 ∧ 0 < beyondRun y r s then
      (⟨2, beyondRun y r s, goodRun y r s, y⟩, none)
    else (⟨judgedQual r, beyondRun y r s, goodRun y r s, y⟩, none) := by
  simp only [judgeRef, beyondRun, goodRun, judgedQual, Bool.and_eq_true, decide_eq_true_eq, ge_iff_le, gt_iff_lt]

/-- The DWELL-th gate beyond TOL in a row makes a reference OUT. -/
theorem judgeRef_out (hy : (refTol s).1 < y.natAbs) (hout : r.qual ≠ 1) (habsent : r.qual ≠ 0)
    (hrun : getF fTimeRefCfgDwell .timeRefCfg s ≤ r.beyond + 1) :
    judgeRef true (some y) r s = (⟨1, 0, goodRun y r s, y⟩, some .timeRefOutTol) := by
  have hbeyond : beyondRun y r s = r.beyond + 1 := if_pos hy
  have hqual : judgedQual r = r.qual := if_neg habsent
  rw [judgeRef_measured, if_pos ⟨hqual ▸ hout, hbeyond ▸ hrun⟩]

/-- A gate beyond TOL before that makes a reference that was GOOD SUSPECT. -/
theorem judgeRef_suspect (hy : (refTol s).1 < y.natAbs) (hgood : r.qual = 3)
    (hrun : r.beyond + 1 < getF fTimeRefCfgDwell .timeRefCfg s) :
    judgeRef true (some y) r s = (⟨2, beyondRun y r s, goodRun y r s, y⟩, none) := by
  have hbeyond : beyondRun y r s = r.beyond + 1 := if_pos hy
  have hqual : judgedQual r = 3 := by rw [judgedQual, hgood]; rfl
  rw [judgeRef_measured, if_neg fun hout => (hbeyond ▸ hout.2).not_gt hrun, if_neg fun hback => hback.1 hqual,
    if_pos ⟨hqual, by omega⟩]

/-- The RETURN-th gate in a row within TOL less HYST makes a reference GOOD. -/
theorem judgeRef_good (hdwell : 1 ≤ getF fTimeRefCfgDwell .timeRefCfg s) (hy : y.natAbs < (refTol s).2)
    (hin : (refTol s).2 ≤ (refTol s).1) (hgood : r.qual ≠ 3)
    (hrun : getF fTimeRefCfgReturn .timeRefCfg s ≤ r.good + 1) :
    judgeRef true (some y) r s = (⟨3, beyondRun y r s, 0, y⟩, some .timeRefGood) := by
  have hbeyond : beyondRun y r s = 0 := if_neg (by omega)
  have hback : goodRun y r s = r.good + 1 := if_pos hy
  have hqual : judgedQual r ≠ 3 := by
    unfold judgedQual
    split
    · decide
    · exact hgood
  rw [judgeRef_measured, if_neg fun hout => by omega, if_pos ⟨hqual, hback ▸ hrun⟩]

end

/-! ### References lost and kept -/

section
variable {s : State}

theorem timeRefLost_a (hon : getF fTimeRefCfgEnA .timeRefCfg s = 1) (hqual : s.time.refA.qual ≠ 0) : timeRefLost .a s =
    refSwitch (raise .timeRefLost none (arg0 0 0 0) 0 { s with time := { s.time with refA := ⟨1, 0, 0, s.time.refA.off⟩ } }) :=
  if_neg (by simp [hon, hqual])

theorem timeRefLost_b (hon : getF fTimeRefCfgEnB .timeRefCfg s = 1) (hqual : s.time.refB.qual ≠ 0) : timeRefLost .b s =
    refSwitch (raise .timeRefLost none (arg0 1 0 0) 0 { s with time := { s.time with refB := ⟨1, 0, 0, s.time.refB.off⟩ } }) :=
  if_neg (by simp [hon, hqual])

/-- Without REVERT the source in use is kept while it is not OUT (R220). -/
theorem pllNext_keeps_a (hrevert : getF fTimeRefCfgRevert .timeRefCfg s = 0) (hpll : s.time.pll = 1) (hqual : 2 ≤ s.time.refA.qual) :
    pllNext s = 1 := by
  simp [pllNext, hrevert, hpll, hqual]

theorem pllNext_keeps_b (hrevert : getF fTimeRefCfgRevert .timeRefCfg s = 0) (hpll : s.time.pll = 2) (hqual : 2 ≤ s.time.refB.qual) :
    pllNext s = 2 := by
  simp [pllNext, hrevert, hpll, hqual]

theorem exec_refSettleEnd (hs : Runs s) :
    exec .refSettleEnd s = .next (updateTimeq { s with time := { s.time with settling := false } }) := by
  change execRefSettleEnd s = _
  rw [execRefSettleEnd, act_run hs]

end

/-- Settles O39: a gate by what it measured of each reference, the source in use by its quality. -/
theorem references : Obligations.References := by
  refine ⟨fun g s hs => act_run hs, fun y r s hdwell _ => ⟨fun hy hout habsent hrun => ?_, fun hy hgood hrun => ?_,
    fun hy hin hgood hrun => ?_⟩, fun s hs => ⟨fun hon hqual => ?_, fun hon hqual => ?_, pllNext_keeps_a, pllNext_keeps_b,
    exec_refSettleEnd hs⟩⟩
  · rw [judgeRef_out hy hout habsent hrun]
    exact ⟨rfl, rfl⟩
  · rw [judgeRef_suspect hy hgood hrun]
    exact ⟨rfl, rfl⟩
  · rw [judgeRef_good hdwell hy hin hgood hrun]
    exact ⟨rfl, rfl⟩
  · exact (act_run hs).trans (congrArg _ (timeRefLost_a hon hqual))
  · exact (act_run hs).trans (congrArg _ (timeRefLost_b hon hqual))

end Sys2Proof.Machine
end

section
/-!
SUPPORT. PPS and SYNC: which PPS_IN edge is accepted and what it then does, a lost source, and the pulses sent.
-/
namespace Sys2Proof.Machine

/-! ### PPS_IN edges -/

/-- An edge by its stamp's count `v` lies half a second or more after the last accepted one, if there is one (R230). -/
def PpsLate (v : Nat) (t : State) : Prop :=
  ∀ l, t.time.ppsLast = some l → 128000000000000 ≤ (v + 2 ^ 48 * 160000 - l) % (2 ^ 48 * 160000)

/-- An edge at offset `th` from the second lies in the window, or no window applies as PPS is not locked (R230). -/
def PpsInWindow (th : Int) (t : State) : Prop :=
  t.time.ppsLocked = false ∨ th.natAbs ≤ max 1 (getF fTimePpsCfgWin .timePpsCfg t) * 1000 * 2 ^ 32

/-- What an edge tests first, as the model computes it. -/
def ppsEarly (v : Nat) (t : State) : Bool :=
  match t.time.ppsLast with
  | some l => (v + 2 ^ 48 * 160000 - l) % (2 ^ 48 * 160000) < 128000000000000
  | none => false

/-- An accepted edge: a step that waits for it, else the servo's offset under SOURCE = PPS (R230). -/
def ppsTaken (v : Nat) (th : Int) (t : State) : State :=
  let noted := { t with time := { t.time with ppsLast := some v } }
  if getF fTimeCtlStep .timeCtl t = 1 && getF fTimeCtlStepAtPps .timeCtl t = 1 then loadStep noted
  else if timeSource t = 1 then servoUpdate th { noted with time := { noted.time with ppsLocked := th.natAbs ≤ 100000 * 2 ^ 32 } }
  else noted

section
variable {v : Nat} {th : Int} {t : State}

theorem ppsEarly_iff : ppsEarly v t = true ↔ ¬PpsLate v t := by
  unfold ppsEarly PpsLate
  cases t.time.ppsLast with
  | none => simp
  | some l => simp

theorem ppsIgnored_iff : (ppsEarly v t ||
    (t.time.ppsLocked && th.natAbs > max 1 (getF fTimePpsCfgWin .timePpsCfg t) * 1000 * 2 ^ 32)) = true ↔
    ¬(PpsLate v t ∧ PpsInWindow th t) := by
  rw [Bool.or_eq_true, ppsEarly_iff, not_and_or, PpsInWindow, not_or, Bool.and_eq_true, decide_eq_true_eq, Bool.not_eq_false, not_le]

theorem ppsTaken_step (h : getF fTimeCtlStep .timeCtl t = 1 ∧ getF fTimeCtlStepAtPps .timeCtl t = 1) :
    ppsTaken v th t = loadStep { t with time := { t.time with ppsLast := some v } } :=
  if_pos (by simp [h])

variable (h : ¬(getF fTimeCtlStep .timeCtl t = 1 ∧ getF fTimeCtlStepAtPps .timeCtl t = 1))
include h

theorem ppsTaken_servo (hsource : timeSource t = 1) : ppsTaken v th t =
    servoUpdate th { t with time := { t.time with ppsLast := some v, ppsLocked := th.natAbs ≤ 100000 * 2 ^ 32 } } :=
  (if_neg (by simpa using h)).trans (if_pos hsource)

theorem ppsTaken_noted (hsource : timeSource t ≠ 1) : ppsTaken v th t = { t with time := { t.time with ppsLast := some v } } :=
  (if_neg (by simpa using h)).trans (if_neg hsource)

end

/-- The count of an edge's stamp, by the TDC's own table. -/
def ppsCount (x : RawStamp) (s : State) : Nat := (rawValue s.time.bins x).toNat

/-- The stamp of an edge less DELAY, less the second boundary nearest to it (R230). -/
def ppsOffset (x : RawStamp) (s : State) : Int :=
  offSecond (stampTime x s - signedOf 32 (getF fTimePpsCfgDelay .timePpsCfg (tdcEdge 0 x s)) * 2 ^ 32 / 1000)

section
variable {x : RawStamp} {s : State}

/-- An edge that is not accepted is stamped and no more. -/
theorem ppsInEdge_ignored (h : ¬(PpsLate (ppsCount x s) (tdcEdge 0 x s) ∧ PpsInWindow (ppsOffset x s) (tdcEdge 0 x s))) :
    ppsInEdge x s = tdcEdge 0 x s :=
  if_pos (ppsIgnored_iff.mpr h)

theorem ppsInEdge_accepted (h : PpsLate (ppsCount x s) (tdcEdge 0 x s) ∧ PpsInWindow (ppsOffset x s) (tdcEdge 0 x s)) :
    ppsInEdge x s = ppsTaken (ppsCount x s) (ppsOffset x s) (tdcEdge 0 x s) :=
  if_neg (mt ppsIgnored_iff.mp (not_not_intro h))

end

/-! ### Sources lost -/

section
variable {s : State}

theorem exec_timePpsLost (hs : Runs s) : exec .timePpsLost s =
    .next (raise .timePpsLost none 0 0 { s with time := { s.time with ppsLocked := false } }) := by
  change execTimePpsLost s = _
  rw [execTimePpsLost, act_run hs]

theorem loseSource_begins (hsource : timeSource s ≠ 3) (hhold : s.time.holdover = false) :
    loseSource s = raise .timeSourceLost none 0 0 { s with time := { s.time with holdover := true } } :=
  if_neg (by simp [hsource, hhold])

theorem loseSource_stays (h : timeSource s = 3 ∨ s.time.holdover = true) : loseSource s = s :=
  if_pos (by simpa using h)

end

/-! ### Pulses -/

section
variable {x : RawStamp} {s : State}

/-- What keeps a PPS_OUT pulse from being sent: the pins held, OUT_EN off, or the gate on low time quality (R231, R414). -/
theorem ppsOut_barred_iff : (!pinsLive s || getF fTimePpsCfgOutEn .timePpsCfg s = 0 ||
      (getF fTimePpsCfgOutGate .timePpsCfg s = 1 && s.hif.timeq)) = true ↔
    pinsLive s = false ∨ getF fTimePpsCfgOutEn .timePpsCfg s = 0 ∨
      (getF fTimePpsCfgOutGate .timePpsCfg s = 1 ∧ s.hif.timeq = true) := by
  simp [or_assoc]

/-- The pulse sent, stamped on channel 14; the delay line takes a free value (log 4). -/
theorem ppsOutPulse_sent (hpins : pinsLive s = true) (hon : getF fTimePpsCfgOutEn .timePpsCfg s = 1)
    (hgate : ¬(getF fTimePpsCfgOutGate .timePpsCfg s = 1 ∧ s.hif.timeq = true)) :
    ppsOutPulse x s = tdcEdge 14 x { s with
      out := .pulse 1 100000 :: s.out, time := { s.time with ppsDelay := Config.freeValue s.free % 256 }, free := s.free + 1 } := by
  refine if_neg (mt ppsOut_barred_iff.mp ?_)
  rw [hpins, hon]
  simpa using hgate

theorem ppsOutPulse_none (h : pinsLive s = false ∨ getF fTimePpsCfgOutEn .timePpsCfg s = 0 ∨
    (getF fTimePpsCfgOutGate .timePpsCfg s = 1 ∧ s.hif.timeq = true)) : ppsOutPulse x s = s :=
  if_pos (ppsOut_barred_iff.mpr h)

theorem pulse_live {pin ns : Nat} (h : pinsLive s = true) : pulse pin ns s = { s with out := .pulse pin ns :: s.out } := if_pos h

theorem pulse_heldPins {pin ns : Nat} (h : pinsLive s = false) : pulse pin ns s = s := if_neg (ne_true_of_eq_false h)

end

/-- Settles O38: a PPS_IN edge by whether it is accepted and what waits for it, a pulse by what may hold it back. -/
theorem timeSources : Obligations.TimeSources := by
  refine ⟨fun x s hs => ?_, fun x s hs => ?_⟩
  · have hedge : exec (.ppsInEdge x) s = .next (ppsInEdge x s) := act_run hs
    have hlost : exec .timeSourceLost s = .next (loseSource s) := act_run hs
    refine ⟨fun hnot => ?_, fun hok hstep => ?_, fun hok hstep hsource => ?_, fun hok hstep hsource => ?_, exec_timePpsLost hs,
      fun hsource hhold => ?_, fun h => ?_⟩
    · exact hedge.trans (congrArg _ (ppsInEdge_ignored hnot))
    · exact hedge.trans (congrArg _ ((ppsInEdge_accepted hok).trans (ppsTaken_step hstep)))
    · exact hedge.trans (congrArg _ ((ppsInEdge_accepted hok).trans (ppsTaken_servo hstep hsource)))
    · exact hedge.trans (congrArg _ ((ppsInEdge_accepted hok).trans (ppsTaken_noted hstep hsource)))
    · exact hlost.trans (congrArg _ (loseSource_begins hsource hhold))
    · exact hlost.trans (congrArg _ (loseSource_stays h))
  · have hout : exec (.ppsOutPulse x) s = .next (ppsOutPulse x s) := act_run hs
    have hsync : exec .syncOutPulse s = .next (pulse 2 100 s) := act_run hs
    refine ⟨fun hpins hon hgate => ?_, fun h => ?_, fun hpins => ?_, fun hpins => ?_, act_run hs⟩
    · exact ⟨_, _, hout.trans (congrArg _ (ppsOutPulse_sent hpins hon hgate)), Nat.mod_lt _ (by decide), rfl⟩
    · exact hout.trans (congrArg _ (ppsOutPulse_none h))
    · exact hsync.trans (congrArg _ (pulse_live hpins))
    · exact hsync.trans (congrArg _ (pulse_heldPins hpins))

end Sys2Proof.Machine
end

section
/-!
SUPPORT. The TDC: a write of TIME_TDC_CTL by its request, how a calibration ends, and when a measurement does.
-/
namespace Sys2Proof.Machine

@[simp] theorem accessed_time (m : Master) (s : State) : (accessed m s).time = s.time := by
  unfold accessed
  split
  · exact dropLatch_time s
  · rfl

/-! ### Requests -/

/-- The device with TIME_TDC_CTL stored less its request bits, CAL_EXTRA at most 4 (Table 09-9). -/
def tdcCtlStored (v : Payload) (s : State) : State :=
  let w := setFld fTimeTdcCtlCalExtra (min 4 (fld fTimeTdcCtlCalExtra v)) (setFld fTimeTdcCtlCal 0 (setFld fTimeTdcCtlGo 0 v))
  setReg .timeTdcCtl (w &&& BitVec.ofNat 48 0xFFFFFFFFFFF8) s

section
variable {v : Payload} {s : State}

theorem timeTdcCtlWrite_cal (hcal : fld fTimeTdcCtlCal v = 1) (hgo : fld fTimeTdcCtlGo v = 0) :
    timeTdcCtlWrite v s = tdcCalBegin (tdcCtlStored v s) := by
  simp only [timeTdcCtlWrite, hcal, hgo, if_true, zero_ne_one, if_false, tdcCtlStored]

theorem timeTdcCtlWrite_go (hgo : fld fTimeTdcCtlGo v = 1) (hcal : fld fTimeTdcCtlCal v = 0) :
    timeTdcCtlWrite v s = tdcStart (tdcCtlStored v s) := by
  simp only [timeTdcCtlWrite, hcal, hgo, if_true, zero_ne_one, if_false, tdcCtlStored]

theorem tdcCalBegin_idle (h : s.time.busy = false) :
    tdcCalBegin s = { s with time := { s.time with calBusy := true, calPending := false } } :=
  if_neg (ne_true_of_eq_false h)

/-- While a measurement runs a calibration waits (R228). -/
theorem tdcCalBegin_busy (h : s.time.busy = true) : tdcCalBegin s = { s with time := { s.time with calPending := true } } := if_pos h

theorem tdcStart_starts (h : getF fTimeTdcCtlMode .timeTdcCtl s < 2) : tdcStart s = { s with time := { s.time with
    busy := true, done := false, missed := false, used := 0, ovf := 0, engine := ⟨0, [], 0, none⟩ } } :=
  if_neg (Nat.not_le.mpr h)

theorem tdcStart_badMode (h : 2 ≤ getF fTimeTdcCtlMode .timeTdcCtl s) : tdcStart s = raise .timeTdcBadCfg none 0 0 s := if_pos h

end

/-! ### Calibrations -/

/-- The device with its calibration ended, the table as it was (log 66 for the sensor). -/
def calEnded (s : State) : State :=
  { s with time := { s.time with calBusy := false, calTemp := s.therm.sensors.getD 22 0, calEver := true } }

/-- The bin widths that the hits of a calibration give (R226). -/
def calWidths (hits : List Nat) (s : State) : List Nat := binWidths hits (2 ^ (20 + getF fTimeTdcCtlCalExtra .timeTdcCtl s))

section
variable {hits : List Nat} {s : State}

theorem exec_tdcCalDone (hs : Runs s) (hfits : fits (.tdcCalDone hits) s = true) :
    exec (.tdcCalDone hits) s = .next (tdcCalDone hits s) := by
  have hok : ¬(hits.length ≠ 256 || hits.foldl (· + ·) 0 ≠ 2 ^ (20 + getF fTimeTdcCtlCalExtra .timeTdcCtl s)) = true := by
    simpa [fits, Instr.wellFormed] using hfits
  exact (if_neg hok).trans (act_run hs)

theorem tdcCalDone_idle (h : s.time.calBusy = false) : tdcCalDone hits s = s := if_pos (by rw [h]; rfl)

/-- A running calibration takes its table where every bin is hit and none too wide, else the old one stands (R226, R227). -/
theorem tdcCalDone_busy (h : s.time.calBusy = true) : tdcCalDone hits s =
    if 0 ∈ hits ∨ ∃ b ∈ calWidths hits s, 2500 < b then raise .timeTdcCalFail none 0 0 (calEnded s)
    else updateTimeq (raise .timeTdcCalDone none 0 0
      { calEnded s with time := { (calEnded s).time with bins := some (calWidths hits s) } }) := by
  simp [tdcCalDone, h, calWidths, calEnded]

end

/-! ### Measurements -/

section
variable {s : State}

theorem tdcFinish_waits (h : ¬(s.time.busy = true ∧ getF fTimeTdcCtlCountM1 .timeTdcCtl s + 1 ≤ s.time.engine.taken)) :
    tdcFinish s = s := by
  refine if_pos ?_
  rw [not_and_or] at h
  simpa using h

/-- With its last sample a measurement ends with its results; a calibration that waited begins (R228). -/
theorem tdcFinish_last (h : s.time.busy = true ∧ getF fTimeTdcCtlCountM1 .timeTdcCtl s + 1 ≤ s.time.engine.taken) {r : State}
    (hr : r = raise .timeTdcDone none 0 0 (tdcResults s.time.engine.xs { s with time := { s.time with
      busy := false, done := true, used := s.time.engine.xs.length, ovf := min 0x7FFF s.time.engine.excluded } })) :
    tdcFinish s = if r.time.calPending then tdcCalBegin r else r := by
  subst hr
  obtain ⟨hbusy, htaken⟩ := h
  exact if_neg (by simp [hbusy]; omega)

end

/-- Settles O40: a request by what runs, a calibration's end by its bins, a measurement's by the samples taken. -/
theorem tdcEngine : Obligations.TdcEngine := by
  intro m v hits edges s hs
  have hcalRequest (hb : barred m s = false) : exec (.tdcCalRequest m v) s = .next (timeTdcCtlWrite v (accessed m s)) :=
    actBy_accepts ⟨hs, hb⟩
  have hgoRequest (hb : barred m s = false) : exec (.tdcGo m v) s = .next (timeTdcCtlWrite v (accessed m s)) :=
    actBy_accepts ⟨hs, hb⟩
  have hbusyStored : (tdcCtlStored v (accessed m s)).time.busy = s.time.busy := congrArg TimeSt.busy (accessed_time m s)
  have hmeasure : exec (.tdcMeasureDone edges) s = .next (tdcFinish (edges.foldl (fun s a => tdcArrive a s) s)) := act_run hs
  refine ⟨fun hb hcal hgo hidle => ?_, fun hb hcal hgo hbusy => ?_, fun hb hgo hcal hmode => ?_, fun hb hgo hcal hmode => ?_,
    fun hfits hcal hhit hwide => ?_, fun hfits hcal hbad => ?_, fun hfits hidle => ?_, fun hmore => ?_,
    fun hlast r hr => ⟨fun hnone => ?_, fun hwaits => ?_⟩⟩
  · exact (hcalRequest hb).trans (congrArg _ ((timeTdcCtlWrite_cal hcal hgo).trans (tdcCalBegin_idle (hbusyStored.trans hidle))))
  · exact (hcalRequest hb).trans (congrArg _ ((timeTdcCtlWrite_cal hcal hgo).trans (tdcCalBegin_busy (hbusyStored.trans hbusy))))
  · exact (hgoRequest hb).trans (congrArg _ ((timeTdcCtlWrite_go hgo hcal).trans (tdcStart_starts hmode)))
  · exact (hgoRequest hb).trans (congrArg _ ((timeTdcCtlWrite_go hgo hcal).trans (tdcStart_badMode hmode)))
  · refine (exec_tdcCalDone hs hfits).trans (congrArg _ ((tdcCalDone_busy hcal).trans (if_neg ?_)))
    rintro (hzero | ⟨b, hb, hover⟩)
    · exact hhit 0 hzero rfl
    · exact (hwide b hb).not_gt hover
  · exact (exec_tdcCalDone hs hfits).trans (congrArg _ ((tdcCalDone_busy hcal).trans (if_pos hbad)))
  · exact (exec_tdcCalDone hs hfits).trans (congrArg _ (tdcCalDone_idle hidle))
  · exact hmeasure.trans (congrArg _ (tdcFinish_waits hmore))
  · exact hmeasure.trans (congrArg _ ((tdcFinish_last hlast hr).trans (if_neg (ne_true_of_eq_false hnone))))
  · exact hmeasure.trans (congrArg _ ((tdcFinish_last hlast hr).trans (if_pos hwaits)))

end Sys2Proof.Machine
end

section
/-!
SUPPORT. The timestamp queue: a stamp offered to a queue with room and to a full one, a POP and the count of drops.
-/
namespace Sys2Proof.Machine

section
variable {q : Int} {id source msg : Nat} {s : State}

/-- A queue with room takes the stamp as its newest entry (R235). -/
theorem tsqOffer_room (h : s.time.tsq.length < 256) : tsqOffer q id source msg s =
    let u := (q % (2 ^ 48 * secUnits : Nat)).toNat
    let e : TsqEntry := ⟨u / secUnits, u % secUnits / 2 ^ 16, wrap 16 id, s.time.qseq, source, msg⟩
    { s with time := { s.time with qseq := wrap 16 (s.time.qseq + 1), tsq := s.time.tsq ++ [e] } } :=
  if_neg (Nat.not_le.mpr h)

/-- A full queue drops the stamp, counts it and raises the overflow it has not raised yet (R236). -/
theorem tsqOffer_full (h : 256 ≤ s.time.tsq.length) : tsqOffer q id source msg s =
    let d := { s with time := { s.time with
      qseq := wrap 16 (s.time.qseq + 1), drops := min 65535 (s.time.drops + 1), overflowed := true } }
    if s.time.overflowed then d else raise .timeTsqOverflow none 0 0 d :=
  if_pos h

/-- Of the time's state a stamp offered changes the queue's own fields alone. -/
theorem tsqOffer_time : (tsqOffer q id source msg s).time = { s.time with
    qseq := (tsqOffer q id source msg s).time.qseq, tsq := (tsqOffer q id source msg s).time.tsq,
    drops := (tsqOffer q id source msg s).time.drops, overflowed := (tsqOffer q id source msg s).time.overflowed } := by
  rcases lt_or_ge s.time.tsq.length 256 with hroom | hfull
  · rw [tsqOffer_room hroom]
  · rw [tsqOffer_full hfull]
    dsimp only
    split
    · rfl
    · rw [raise_time]

end

section
variable {v : Payload} {s : State}

theorem tsqPop_pops (h : fld fTimeTsqPopPop v = 1) : tsqPop v s =
    { s with time := { s.time with tsq := s.time.tsq.drop 1,
                                   overflowed := s.time.overflowed && (s.time.tsq.drop 1).length > 128 } } :=
  if_neg (by omega)

theorem timeTsqCfgWrite_clears (h : fld fTimeTsqCfgClrDrops v = 1) : timeTsqCfgWrite v s =
    let t := setF fTimeTsqCfgPtpEn .timeTsqCfg (fld fTimeTsqCfgPtpEn v) (setF fTimeTsqCfgChEn .timeTsqCfg (fld fTimeTsqCfgChEn v) s)
    { t with time := { t.time with drops := 0 } } :=
  if_pos h

end

/-- Settles O41: a stamp offered by the queue's length, POP and CLR_DROPS by their writes. -/
theorem timestampQueue : Obligations.TimestampQueue := by
  refine ⟨fun q id source msg s => ⟨tsqOffer_room, tsqOffer_full, tsqOffer_time⟩,
    fun m v s hs => ⟨fun hpop => ?_, fun hclear => ?_⟩⟩
  · have hexec : exec (.timeTsqPop m v) s = .next (tsqPop v (accessed m s)) := actBy_accepts hs
    exact hexec.trans (congrArg _ (tsqPop_pops hpop))
  · have hexec : exec (.tsqClrDrops m v) s = .next (timeTsqCfgWrite v (accessed m s)) := actBy_accepts hs
    exact ⟨_, hexec.trans (congrArg _ (timeTsqCfgWrite_clears hclear)), rfl⟩

end Sys2Proof.Machine
end

section
/-!
SUPPORT. Records received over Bell: what becomes of a record at its lane, and of a role record against the known epoch.
-/
namespace Sys2Proof.Machine

/-! ### A record at its lane -/

section
variable {lane typ : Nat} {r : List Byte} {use : State → State} {s : State}

/-- A record's command checks its length, and does as receiveRec on the 32 bytes that a record has (R244). -/
theorem record_runs {f : State → State} (hs : Runs s) (hlen : r.length = 32) :
    (if r.length ≠ 32 then .fault .malformed else act f s : Host.Outcome State Fault Refusal) = .next (f s) :=
  (if_neg (not_not_intro hlen)).trans (act_run hs)

/-- What keeps a record from being received: a level the unit is not on, a reserved field, another type (R237, R244). -/
theorem record_barred_iff : (!onLevel (lane / 2) s || recType r ≠ typ || !recRsvdOk r) = true ↔
    onLevel (lane / 2) s = false ∨ recRsvdOk r = false ∨ recType r ≠ typ := by
  simp only [Bool.or_eq_true, Bool.not_eq_true', decide_eq_true_eq, or_assoc, or_comm (a := recType r ≠ typ)]

theorem receiveRec_ignored (h : onLevel (lane / 2) s = false ∨ recRsvdOk r = false ∨ recType r ≠ typ) :
    receiveRec lane typ r use s = s :=
  if_pos (record_barred_iff.mpr h)

variable (hlevel : onLevel (lane / 2) s = true) (hok : recRsvdOk r = true) (htype : recType r = typ)
include hlevel hok htype

theorem receiveRec_taken : receiveRec lane typ r use s = if recSeen r s then bump .bellDup 1 s else
    let marked := markSeen r s
    use (bridgeCopy (lane / 2) r (if isMaster (lane / 2) marked then queueRec (2 + lane / 2) r marked else marked)) :=
  if_neg (mt record_barred_iff.mp (by simp [hlevel, hok, htype]))

/-- A record seen within the last second is counted and no more (R246). -/
theorem receiveRec_duplicate (hseen : recSeen r s = true) : receiveRec lane typ r use s = bump .bellDup 1 s :=
  (receiveRec_taken hlevel hok htype).trans (if_pos hseen)

/-- A fresh record is marked seen, relayed by a master, copied by a bridge and used (R237, R246, R249). -/
theorem receiveRec_fresh (hseen : recSeen r s = false) : receiveRec lane typ r use s =
    let marked := markSeen r s
    use (bridgeCopy (lane / 2) r (if isMaster (lane / 2) marked then queueRec (2 + lane / 2) r marked else marked)) :=
  (receiveRec_taken hlevel hok htype).trans (if_neg (ne_true_of_eq_false hseen))

end

/-! ### A role record against the known epoch -/

section
variable {r : Nat} {x k : RoleRec} {s : State}

/-- A role record names this unit. -/
def RoleRec.names (x : RoleRec) (s : State) : Bool := !x.vacant && x.holder = unitId s

/-- The state with a role record kept, each partition that holds the role looked at (R262, R263). -/
def roleTaken (r : Nat) (x : RoleRec) (s : State) : State :=
  let kept := { s with bell := { s.bell with roles := storeSet (fun _ => none) s.bell.roles r (some x) } }
  (holdersOf r kept).foldl (fun u p => roleAt r x (x.names s) p u) kept

/-- Below the known epoch a role record is stale (R260). -/
theorem applyRole_stale (hknown : roleKnown r s = some k) (hepoch : x.epoch < k.epoch) : applyRole r x s = staleDrop r s := by
  unfold applyRole
  rw [hknown]
  exact if_pos (decide_eq_true hepoch)

/-- At the known epoch a record of another holder is a conflict (R260). -/
theorem applyRole_conflicts (hknown : roleKnown r s = some k) (hepoch : x.epoch = k.epoch)
    (hother : x.holder ≠ k.holder ∨ x.vacant ≠ k.vacant) : applyRole r x s = roleConflict r x.epoch s := by
  unfold applyRole
  rw [hknown]
  simp [hepoch, hother]

/-- A record that is neither stale nor in conflict: the role is not known, or its known epoch is lower, or the record repeats it (R260). -/
def RoleRec.Stands (x : RoleRec) (known : Option RoleRec) : Prop :=
  ∀ k, known = some k → k.epoch < x.epoch ∨ (k.epoch = x.epoch ∧ x.holder = k.holder ∧ x.vacant = k.vacant)

/-- A record that stands is kept and its role's partitions looked at; then the unit it names takes the role, and of role 0 another unit is
trigger master no longer (R259, R262). -/
theorem applyRole_stands (h : x.Stands (roleKnown r s)) : applyRole r x s =
    let seen := if r = 0 && !x.names s then loseMaster x.epoch (roleTaken r x s) else roleTaken r x s
    if x.names s then takeRole r x.epoch (Fin.ofNat 8 x.part) seen else seen := by
  unfold applyRole
  cases hknown : roleKnown r s with
  | none => rfl
  | some k =>
    have hk := h k hknown
    have hfresh : ¬x.epoch < k.epoch := by omega
    have hsame : ¬(x.epoch = k.epoch ∧ (x.holder ≠ k.holder ∨ x.vacant ≠ k.vacant)) := by
      rintro ⟨hepoch, hother⟩
      obtain hlater | ⟨-, hholder, hvacant⟩ := hk
      · omega
      · exact hother.elim (· hholder) (· hvacant)
    refine (if_neg (by simpa using hfresh)).trans (if_neg ?_)
    simpa only [Bool.and_eq_true, Bool.or_eq_true, decide_eq_true_eq] using hsame

theorem applyRole_named (h : x.Stands (roleKnown r s)) (hmine : x.names s = true) :
    applyRole r x s = takeRole r x.epoch (Fin.ofNat 8 x.part) (roleTaken r x s) := by
  simp [applyRole_stands h, hmine]

theorem applyRole_lost (h : x.Stands (roleKnown r s)) (hmine : x.names s = false) (hrole : r = 0) :
    applyRole r x s = loseMaster x.epoch (roleTaken r x s) := by
  rw [applyRole_stands h, hmine, hrole]
  rfl

theorem applyRole_other (h : x.Stands (roleKnown r s)) (hmine : x.names s = false) (hrole : r ≠ 0) :
    applyRole r x s = roleTaken r x s := by
  simp [applyRole_stands h, hmine, hrole]

end

section
variable {r : Nat} {x : RoleRec} {mine : Bool} {p : Fin 8} {u : State}

/-- A partition that is fence-pending reopens for a record that names this unit at its own epoch, and is fenced by any other (R263). -/
theorem roleAt_pending (hpending : bitOf (getF fBellFencePending .bellFence u) p.val = true) : roleAt r x mine p u =
    if mine = true ∧ roleEpoch p u = x.epoch ∧ x.part = p.val then reopenPart p u else fencePart p r x.epoch u := by
  simp [roleAt, hpending, and_assoc]

/-- Any other partition is fenced by a higher epoch of another holder (R262). -/
theorem roleAt_open (hpending : bitOf (getF fBellFencePending .bellFence u) p.val = false) : roleAt r x mine p u =
    if mine = false ∧ roleEpoch p u < x.epoch then fencePart p r x.epoch u else u := by
  simp [roleAt, hpending, and_comm]

end

/-- Settles O26: a record by what its lane finds of it, a role record by its epoch against the known one, a partition by its fence. -/
theorem bellRecords : Obligations.BellRecords := by
  refine ⟨fun lane rec s hs hlen row hrow => ?_, fun r x s => ⟨fun k => applyRole_stale, fun k => applyRole_conflicts,
    fun hstands => ⟨applyRole_named hstands, applyRole_lost hstands, applyRole_other hstands⟩,
    fun p u => ⟨fun hpending hnamed => ?_, fun hpending hnamed => ?_, fun hpending hfences => ?_, fun hpending hfences => ?_⟩⟩⟩
  · have hexec : exec row.1 s = .next (receiveRec lane.val row.2.1 rec row.2.2 s) := by
      simp only [List.mem_cons, List.not_mem_nil, or_false] at hrow
      obtain rfl | rfl | rfl | rfl | rfl := hrow <;> exact record_runs hs hlen
    refine ⟨fun hignored => ?_, fun hlevel hok htype => ⟨fun hseen => ?_, fun hseen => ?_⟩⟩
    · exact hexec.trans (congrArg _ (receiveRec_ignored hignored))
    · exact hexec.trans (congrArg _ (receiveRec_duplicate hlevel hok htype hseen))
    · exact hexec.trans (congrArg _ (receiveRec_fresh hlevel hok htype hseen))
  · exact (roleAt_pending hpending).trans (if_pos hnamed)
  · exact (roleAt_pending hpending).trans (if_neg hnamed)
  · exact (roleAt_open hpending).trans (if_pos hfences)
  · exact (roleAt_open hpending).trans (if_neg hfences)

end Sys2Proof.Machine
end

section
/-!
SUPPORT. Headers received over Bell: the bytes a lane's symbols give, and what a header does by its CRC and its type.
-/
namespace Sys2Proof.Machine

/-! ### The bytes of a lane's symbols -/

/-- What a Bell lane's symbols do where `f` is what their bytes do: on a level the unit is not on, nothing more than being received (R237,
R279). -/
def onBellLine (lane : Nat) (line : List Nat) (f : List Byte → State → State) (s : State) : State :=
  onLine (64 + lane) line (fun bs received => if onLevel (lane / 2) received then f bs received else received) s

section
variable {lane : Nat} {line : List Nat} {f : List Byte → State → State} {arrival sent : RawStamp} {s : State}

/-- Symbols without a start marker are received and no more. -/
theorem onLine_eq : onLine lane line f s = (lineReceive lane line s).1.elim (lineReceive lane line s).2
    (f · (lineReceive lane line s).2) := by
  unfold onLine
  obtain ⟨_ | bs, received⟩ := lineReceive lane line s
  · rfl
  · rfl

theorem bellHeaderLine_eq : bellHeaderLine lane line arrival sent s = onBellLine lane line (bellHeader lane · arrival sent ·) s := rfl

theorem onBellLine_silent (h : (lineReceive (64 + lane) line s).1 = none ∨ onLevel (lane / 2) (lineReceive (64 + lane) line s).2 = false) :
    onBellLine lane line f s = (lineReceive (64 + lane) line s).2 := by
  rw [onBellLine, onLine_eq]
  cases hbytes : (lineReceive (64 + lane) line s).1 with
  | none => rfl
  | some bs => exact if_neg (ne_true_of_eq_false (h.resolve_left (by simp [hbytes])))

theorem onBellLine_bytes {bs : List Byte} (hbytes : (lineReceive (64 + lane) line s).1 = some bs)
    (hlevel : onLevel (lane / 2) (lineReceive (64 + lane) line s).2 = true) :
    onBellLine lane line f s = f bs (lineReceive (64 + lane) line s).2 := by
  rw [onBellLine, onLine_eq, hbytes]
  exact if_pos hlevel

end

/-! ### A header -/

/-- A header's arrival stamped on its lane's TDC channel (R223). -/
def headerStamped (lane : Nat) (arrival : RawStamp) (s : State) : State := tdcEdge (6 + lane) arrival (bellFrame lane s)

/-- The arrival of a good header noted, for the link's measurement (R248). -/
def headerNoted (lane : Nat) (bs : List Byte) (arrival : RawStamp) (s : State) : State :=
  noteArrival lane (beAt bs 8 5) (beAt bs 38 2 % 16384) arrival (headerStamped lane arrival s)

/-- The watch for silence begun again by a FRAME header (R251, R263). -/
def watchRestarted (s : State) : State :=
  { rejoin s with bell := { (rejoin s).bell with lastValid := (rejoin s).tick, isolatedAt := none } }

/-- A header is too short or its CRC is wrong (R245). -/
def HeaderBad (bs : List Byte) : Prop := bs.length < 52 ∨ crcGood bs = false

section
variable {lane : Fin 4} {bs : List Byte} {arrival sent : RawStamp} {s : State}

theorem headerBad_iff : (bs.length < 52 || !crcGood bs) = true ↔ HeaderBad bs := by
  simp [HeaderBad]

/-- A bad header is counted, passed on by a unit that is no master, and a collision to a claimant (R245, R252). -/
theorem bellHeader_bad (hbad : HeaderBad bs) : bellHeader lane.val bs arrival sent s =
    let failed := bellLaneFail lane.val (bump (.bellCrcErr lane) 1 (headerStamped lane.val arrival s))
    showBell (claimCollision (lane.val / 2)
      (if isMaster (lane.val / 2) failed then failed else bellSend (onward lane.val) none bs failed)) := by
  rw [bellHeader, if_pos (headerBad_iff.mpr hbad), Fin.ofNat_val_eq_self]
  rfl

variable (hgood : ¬HeaderBad bs)
include hgood

theorem bellHeader_good : bellHeader lane.val bs arrival sent s =
    let noted := headerNoted lane.val bs arrival s
    let followed := watchRestarted noted
    if beAt bs 0 1 / 16 = 2 then showBell (bellClaim lane.val bs arrival sent noted)
    else if beAt bs 0 1 / 16 ≠ 1 then noted
    else showBell (if isMaster (lane.val / 2) followed && beAt bs 2 2 % 16384 = unitId followed then masterHeader lane.val followed
      else memberHeader lane.val bs arrival sent followed) :=
  if_neg (mt headerBad_iff.mp hgood)

theorem bellHeader_claim (htype : beAt bs 0 1 / 16 = 2) :
    bellHeader lane.val bs arrival sent s = showBell (bellClaim lane.val bs arrival sent (headerNoted lane.val bs arrival s)) :=
  (bellHeader_good hgood).trans (if_pos htype)

theorem bellHeader_otherType (hclaim : beAt bs 0 1 / 16 ≠ 2) (hframe : beAt bs 0 1 / 16 ≠ 1) :
    bellHeader lane.val bs arrival sent s = headerNoted lane.val bs arrival s :=
  (bellHeader_good hgood).trans ((if_neg hclaim).trans (if_pos hframe))

/-- A good FRAME header restarts the watch for silence, returns to the master that launched it, and is relaunched by any other unit. -/
theorem bellHeader_frame (htype : beAt bs 0 1 / 16 = 1) : bellHeader lane.val bs arrival sent s =
    let followed := watchRestarted (headerNoted lane.val bs arrival s)
    showBell (if isMaster (lane.val / 2) followed = true ∧ beAt bs 2 2 % 16384 = unitId followed then masterHeader lane.val followed
      else memberHeader lane.val bs arrival sent followed) := by
  have hclaim : beAt bs 0 1 / 16 ≠ 2 := by omega
  rw [bellHeader_good hgood, if_neg hclaim, if_neg (not_not_intro htype)]
  simp only [Bool.and_eq_true, decide_eq_true_eq]

end

/-- Settles O27: a lane's symbols by the bytes they give, a header by its CRC and its type. -/
theorem bellHeaders : Obligations.BellHeaders := by
  intro lane line arrival sent s hs c hc
  have hexec : exec c s = .next (bellHeaderLine lane.val line arrival sent s) := by
    simp only [List.mem_cons, List.not_mem_nil, or_false] at hc
    obtain rfl | rfl := hc <;> exact act_run hs
  rw [bellHeaderLine_eq] at hexec
  refine ⟨fun hsilent => hexec.trans (congrArg _ (onBellLine_silent hsilent)), fun bs hbytes hlevel => ?_⟩
  have hreceived := hexec.trans (congrArg _ (onBellLine_bytes hbytes hlevel))
  refine ⟨fun hbad => ?_, fun hgood htype => ?_, fun hgood hclaim hframe => ?_, fun hgood htype => ?_⟩
  · exact hreceived.trans (congrArg _ (bellHeader_bad hbad))
  · exact hreceived.trans (congrArg _ (bellHeader_claim hgood htype))
  · exact hreceived.trans (congrArg _ (bellHeader_otherType hgood hclaim hframe))
  · exact hreceived.trans (congrArg _ (bellHeader_frame hgood htype))

end Sys2Proof.Machine
end

section
/-!
SUPPORT. Claims, launches and slot bodies: a claim by what this unit is on the level, a launch by the same, a slot body by its CRC.
-/
namespace Sys2Proof.Machine

/-! ### A claim received -/

/-- A claim with this unit's ID. -/
abbrev ClaimMine (bs : List Byte) (s : State) : Prop := beAt bs 2 2 % 16384 = unitId s

/-- A claim with this unit's ID that this unit did not launch (R253). -/
def ClaimStrange (lane : Nat) (bs : List Byte) (s : State) : Prop :=
  ClaimMine bs s ∧ headerMark bs ∉ (ringSt (lane / 2) s).claims

/-- A claimant that gives up. -/
def claimYielded (k : Nat) (s : State) : State := onRing k (fun r => { r with state := 0, returns := [(0, 0), (0, 0)] }) s

section
variable {lane : Nat} {bs : List Byte} {arrival sent : RawStamp} {s : State}

theorem bellClaim_strange (h : ClaimStrange lane bs s) : bellClaim lane bs arrival sent s =
    idConflict (if (ringSt (lane / 2) s).state = 1 then claimYielded (lane / 2) s else s) := by
  obtain ⟨hmine, hunknown⟩ := h
  exact if_pos (by simpa using ⟨hmine, hunknown⟩)

variable (hknown : ¬ClaimStrange lane bs s)
include hknown

theorem bellClaim_known : bellClaim lane bs arrival sent s =
    if (ringSt (lane / 2) s).state = 4 then
      if !(beAt bs 2 2 % 16384 = unitId s) && claimKey bs < 16384 && claimPrio s = 1 then
        passHeader lane bs arrival sent (onRing (lane / 2) (fun r => { r with state := 0, missing := [3, 3] }) s)
      else s
    else if (ringSt (lane / 2) s).state = 1 then
      if beAt bs 2 2 % 16384 = unitId s then claimReturn (lane / 2) (dirOf lane) (beAt bs 8 5) s
      else if claimKey bs < ownKey s then passHeader lane bs arrival sent (claimYielded (lane / 2) s)
      else s
    else passHeader lane bs arrival sent s :=
  if_neg (by simpa [ClaimStrange, ClaimMine] using hknown)

theorem bellClaim_master (hmaster : (ringSt (lane / 2) s).state = 4) : bellClaim lane bs arrival sent s =
    if ¬ClaimMine bs s ∧ claimKey bs < 16384 ∧ claimPrio s = 1 then
      passHeader lane bs arrival sent (onRing (lane / 2) (fun r => { r with state := 0, missing := [3, 3] }) s)
    else s := by
  simp [bellClaim_known hknown, hmaster, and_assoc]

/-- A master that is no bridge gives up to a bridge's claim (R251). -/
theorem bellClaim_master_yields (hmaster : (ringSt (lane / 2) s).state = 4) (hother : ¬ClaimMine bs s) (hbridge : claimKey bs < 16384)
    (hprio : claimPrio s = 1) : bellClaim lane bs arrival sent s =
      passHeader lane bs arrival sent (onRing (lane / 2) (fun r => { r with state := 0, missing := [3, 3] }) s) :=
  (bellClaim_master hknown hmaster).trans (if_pos ⟨hother, hbridge, hprio⟩)

theorem bellClaim_master_drops (hmaster : (ringSt (lane / 2) s).state = 4)
    (h : ClaimMine bs s ∨ 16384 ≤ claimKey bs ∨ claimPrio s ≠ 1) : bellClaim lane bs arrival sent s = s := by
  refine (bellClaim_master hknown hmaster).trans (if_neg ?_)
  rintro ⟨hother, hbridge, hprio⟩
  obtain hmine | hkey | hnot := h
  · exact hother hmine
  · omega
  · exact hnot hprio

theorem bellClaim_claimant (hclaimant : (ringSt (lane / 2) s).state = 1) : bellClaim lane bs arrival sent s =
    if beAt bs 2 2 % 16384 = unitId s then claimReturn (lane / 2) (dirOf lane) (beAt bs 8 5) s
    else if claimKey bs < ownKey s then passHeader lane bs arrival sent (claimYielded (lane / 2) s)
    else s := by
  simp [bellClaim_known hknown, hclaimant]

theorem bellClaim_claimant_own (hclaimant : (ringSt (lane / 2) s).state = 1) (hmine : ClaimMine bs s) :
    bellClaim lane bs arrival sent s = claimReturn (lane / 2) (dirOf lane) (beAt bs 8 5) s :=
  (bellClaim_claimant hknown hclaimant).trans (if_pos hmine)

/-- A claimant gives up to a claim that ranks before its own and forwards it (R251). -/
theorem bellClaim_claimant_yields (hclaimant : (ringSt (lane / 2) s).state = 1) (hother : ¬ClaimMine bs s)
    (hrank : claimKey bs < ownKey s) :
    bellClaim lane bs arrival sent s = passHeader lane bs arrival sent (claimYielded (lane / 2) s) :=
  (bellClaim_claimant hknown hclaimant).trans ((if_neg hother).trans (if_pos hrank))

theorem bellClaim_claimant_drops (hclaimant : (ringSt (lane / 2) s).state = 1) (hother : ¬ClaimMine bs s)
    (hrank : ownKey s ≤ claimKey bs) : bellClaim lane bs arrival sent s = s :=
  (bellClaim_claimant hknown hclaimant).trans ((if_neg hother).trans (if_neg hrank.not_gt))

theorem bellClaim_forwards (hclaimant : (ringSt (lane / 2) s).state ≠ 1) (hmaster : (ringSt (lane / 2) s).state ≠ 4) :
    bellClaim lane bs arrival sent s = passHeader lane bs arrival sent s :=
  (bellClaim_known hknown).trans ((if_neg hmaster).trans (if_neg hclaimant))

end

/-! ### The return of a claim -/

/-- Consecutive frames of a direction in which this unit's claim has returned, this one counted (R251). -/
def returnRun (k d frame : Nat) (s : State) : Nat :=
  let last := (ringSt k s).returns.getD d (0, 0)
  if last.2 > 0 && frame = (last.1 + 1) % 2 ^ 40 then last.2 + 1 else 1

/-- The level mastered by this unit, its margins begun anew. -/
def levelMastered (k : Nat) (s : State) : State :=
  let t := onRing k (fun r => { r with state := 4, masterId := unitId s, returns := [(0, 0), (0, 0)], missing := [0, 0], held := none,
                                       silent := false }) s
  { t with bell := { t.bell with margins := (t.bell.margins.set (2 * k) 10000).set (2 * k + 1) 10000 } }

section
variable {k d frame : Nat} {s : State}

theorem claimReturn_eq : claimReturn k d frame s =
    if 3 ≤ returnRun k d frame s then raise .bellMasterChange none (arg0 (unitId s) k 0) 0 (levelMastered k s)
    else onRing k (fun r => { r with returns := r.returns.set d (frame, returnRun k d frame s) }) s := rfl

theorem returnRun_eq : returnRun k d frame s =
    let last := (ringSt k s).returns.getD d (0, 0)
    if 0 < last.2 ∧ frame = (last.1 + 1) % 2 ^ 40 then last.2 + 1 else 1 := by
  simp only [returnRun, Bool.and_eq_true, decide_eq_true_eq, gt_iff_lt]

/-- The third of consecutive frames makes a claimant master (R251). -/
theorem claimReturn_third (hrun : 2 ≤ ((ringSt k s).returns.getD d (0, 0)).2)
    (hnext : frame = (((ringSt k s).returns.getD d (0, 0)).1 + 1) % 2 ^ 40) :
    claimReturn k d frame s = raise .bellMasterChange none (arg0 (unitId s) k 0) 0 (levelMastered k s) := by
  have hthird : returnRun k d frame s = ((ringSt k s).returns.getD d (0, 0)).2 + 1 :=
    returnRun_eq.trans (if_pos ⟨by omega, hnext⟩)
  rw [claimReturn_eq, if_pos (by omega)]

theorem claimReturn_counts (h : ((ringSt k s).returns.getD d (0, 0)).2 < 2 ∨
      frame ≠ (((ringSt k s).returns.getD d (0, 0)).1 + 1) % 2 ^ 40) :
    claimReturn k d frame s = onRing k (fun r => { r with returns := r.returns.set d (frame, returnRun k d frame s) }) s := by
  have hfew : returnRun k d frame s < 3 := by
    rw [returnRun_eq]
    dsimp only
    split <;> omega
  rw [claimReturn_eq, if_neg (by omega)]

end

/-! ### A launch -/

/-- The markers of a launch stamped on both lanes of the level. -/
def launchStamped (k : Nat) (sent : RawStamp) (s : State) : State :=
  noteSend (2 * k) (frameNow s) (rawValue s.time.bins sent)
    (noteSend (2 * k + 1) (frameNow s) (rawValue s.time.bins sent) (tdcEdge (10 + 2 * k) sent (tdcEdge (11 + 2 * k) sent s)))

@[simp] theorem ringSt_applyBellCfg (k : Nat) (s : State) : ringSt k (applyBellCfg s) = ringSt k s := rfl

section
variable {k : Nat} {sent : RawStamp} {s : State}

theorem bellFrameLaunch_offLevel (h : onLevel k s = false) : bellFrameLaunch k sent s = s :=
  if_pos (by simp [h])

variable (hlevel : onLevel k s = true)
include hlevel

theorem bellFrameLaunch_member (hmaster : (ringSt k s).state ≠ 4) (hclaimant : (ringSt k s).state ≠ 1) :
    bellFrameLaunch k sent s = showBell (sendSlot k (applyBellCfg s)) := by
  simp [bellFrameLaunch, hlevel, hmaster, hclaimant]

theorem bellFrameLaunch_claimant (hclaimant : (ringSt k s).state = 1) :
    bellFrameLaunch k sent s =
      let configured := applyBellCfg s
      let claim := ownHeader 2 k 0 [] configured
      let noted := onRing k (fun r => { r with claims := (headerMark claim :: r.claims).take 16 }) configured
      showBell (launchStamped k sent (bellSend (2 * k) none (ownHeader 2 k 1 [] noted) (bellSend (2 * k + 1) none claim noted))) := by
  simp [bellFrameLaunch, hlevel, hclaimant, launchStamped]

theorem bellFrameLaunch_master (hmaster : (ringSt k s).state = 4) :
    bellFrameLaunch k sent s =
      let taken := takeRecs (2 + k) 64 (masterBreak k (applyBellCfg s))
      showBell (sendSlot k (launchStamped k sent
        (bellSend (2 * k) none (ownHeader 1 k 1 taken.1 taken.2) (bellSend (2 * k + 1) none (ownHeader 1 k 0 taken.1 taken.2) taken.2)))) := by
  simp [bellFrameLaunch, hlevel, hmaster, launchStamped]

end

/-! ### A slot body -/

/-- A slot body as a unit leaves it: passed on, unless the unit masters the level or the slot is its own and it may speak (R246, log
155). -/
def slotPassed (lane slot : Nat) (bs : List Byte) (s : State) : State :=
  if isMaster (lane / 2) s || (slot = ownSlot (lane / 2) s && !s.bell.muted) then s else bellSend (onward lane) (some slot) bs s

/-- A member heard on a level, with its heartbeat and its slot (R258). -/
def memberHeard (lane slot : Nat) (bs : List Byte) (s : State) : State :=
  let m := memberKey (lane / 2) (beAt bs 0 2 % 16384)
  { s with bell := { s.bell with members := storeSet (fun _ => none) s.bell.members m (some (beAt bs 4 4, slot)),
                                 dead := s.bell.dead.filter (· ≠ m) } }

section
variable {lane : Fin 4} {slot : Nat} {line : List Nat} {bs : List Byte} {s : State}

theorem bellSlotLine_eq : bellSlotLine lane.val slot line s = onBellLine lane.val line (bellSlot lane.val slot) s := rfl

/-- A slot body too short or with a wrong CRC is counted and passed on (R245). -/
theorem bellSlot_bad (hbad : bs.length < 28 ∨ crcGood bs = false) : bellSlot lane.val slot bs s =
    slotPassed lane.val slot bs (bellLaneFail lane.val (bump (.bellCrcErr lane) 1 s)) := by
  rw [bellSlot, if_pos (by simpa using hbad), Fin.ofNat_val_eq_self]
  rfl

/-- Another unit's good body marks it heard, measures the link and is passed on (R243, R248). -/
theorem bellSlot_heard (hlen : 28 ≤ bs.length) (hcrc : crcGood bs = true) (hother : beAt bs 0 2 % 16384 ≠ unitId s) :
    bellSlot lane.val slot bs s = slotPassed lane.val slot bs (measureLink lane.val bs (memberHeard lane.val slot bs s)) := by
  rw [bellSlot, if_neg (by simp [hlen, hcrc]), if_neg hother]
  rfl

end

/-- Settles O28: a claim by what this unit is on its level, its return by the run of frames, a launch by the same, a slot body by its
CRC. -/
theorem bellClaims : Obligations.BellClaims := by
  refine ⟨fun lane bs arrival sent s => ⟨bellClaim_strange, fun hknown hmaster hother hbridge hprio => ?_, fun hknown hmaster h => ?_,
      fun hknown => bellClaim_claimant_own hknown, fun hknown => bellClaim_claimant_yields hknown,
      fun hknown => bellClaim_claimant_drops hknown, fun hknown => bellClaim_forwards hknown,
      fun d frame => ⟨claimReturn_third, fun hcounts => ?_⟩⟩,
    fun ring sent lane slot line s hs => ?_⟩
  · exact bellClaim_master_yields hknown hmaster hother hbridge hprio
  · exact bellClaim_master_drops hknown hmaster h
  · exact (claimReturn_counts hcounts).trans (by rw [returnRun_eq])
  have hlaunch : exec (.bellFrameLaunch ring sent) s = .next (bellFrameLaunch (ringNo ring) sent s) := act_run hs
  have hslot : exec (.bellSlotReceive lane slot line) s = .next (bellSlotLine lane.val slot.val line s) := act_run hs
  rw [bellSlotLine_eq] at hslot
  refine ⟨fun hoff => ?_, fun hlevel hmaster hclaimant => ?_, fun hlevel hclaimant => ?_, fun hlevel hmaster => ?_,
    fun hsilent => ?_, fun bs hbytes hlevel => ⟨fun hbad => ?_, fun hlen hcrc hother => ?_⟩⟩
  · exact hlaunch.trans (congrArg _ (bellFrameLaunch_offLevel hoff))
  · exact hlaunch.trans (congrArg _ (bellFrameLaunch_member hlevel hmaster hclaimant))
  · exact hlaunch.trans (congrArg _ (bellFrameLaunch_claimant hlevel hclaimant))
  · exact hlaunch.trans (congrArg _ (bellFrameLaunch_master hlevel hmaster))
  · exact hslot.trans (congrArg _ (onBellLine_silent hsilent))
  · exact hslot.trans (congrArg _ ((onBellLine_bytes hbytes hlevel).trans (bellSlot_bad hbad)))
  · exact hslot.trans (congrArg _ ((onBellLine_bytes hbytes hlevel).trans (bellSlot_heard hlen hcrc hother)))

end Sys2Proof.Machine
end

section
/-!
SUPPORT. Bell timers and the unit's identity: a level's silence and waits, members declared dead, fences and beacons, and BELL_CFG.
-/
namespace Sys2Proof.Machine

/-! ### Silence and back-off -/

/-- A level fallen silent: ISOLATED, with no frame of either direction. -/
def levelSilent (k : Nat) (s : State) : State :=
  onRing k (fun r => { r with state := 0, missing := [3, 3], silent := true }) (useHeld k s)

/-- The unit isolated from now, unless it is already, where every level it is on is silent (R258). -/
def isolationNoted (t : State) : State :=
  if (ringSt 0 t).silent && (!isBridge t || (ringSt 1 t).silent)
  then { t with bell := { t.bell with isolatedAt := some (t.bell.isolatedAt.getD t.tick) } } else t

section
variable {k : Nat} {s : State}

theorem silence_isolates (hlevel : onLevel k s = true) (hclaim : (ringSt k s).state ≠ 1) (hwait : (ringSt k s).state ≠ 2) :
    silence k s = beginBackoff k (isolationNoted (levelSilent k s)) :=
  if_pos (by simp [hlevel, hclaim, hwait])

theorem silence_ignored (h : onLevel k s = false ∨ (ringSt k s).state = 1 ∨ (ringSt k s).state = 2) : silence k s = s := by
  refine if_neg ?_
  simp only [Bool.and_eq_true, decide_eq_true_eq, not_and_or, not_not, Bool.not_eq_true, or_assoc]
  exact h

theorem backoffEnd_idle (hwait : (ringSt k s).state ≠ 2) : backoffEnd k s = s := if_pos hwait

theorem backoffEnd_collided (hwait : (ringSt k s).state = 2) (hcollided : (ringSt k s).collided = true) :
    backoffEnd k s = onRing k (fun r => { r with state := 0, collided := false }) s :=
  (if_neg (not_not_intro hwait)).trans (if_pos hcollided)

theorem backoffEnd_claims (hwait : (ringSt k s).state = 2) (hclear : (ringSt k s).collided = false) :
    backoffEnd k s = onRing k (fun r => { r with state := 1, returns := [(0, 0), (0, 0)] }) s :=
  (if_neg (not_not_intro hwait)).trans (if_neg (ne_true_of_eq_false hclear))

/-- What a silence check leaves is shown in BELL_STATUS. -/
theorem exec_bellSilenceTimeout {ring : BellRing} {t : State} (hs : Runs s) (h : silence (ringNo ring) s = t) :
    exec (.bellSilenceTimeout ring) s = .next (showBell t) := by
  rw [← h]
  exact act_run (f := fun s => showBell (silence (ringNo ring) s)) hs

/-- What the end of a wait leaves is shown in BELL_STATUS. -/
theorem exec_bellBackoffEnd {ring : BellRing} {t : State} (hs : Runs s) (h : backoffEnd (ringNo ring) s = t) :
    exec (.bellBackoffEnd ring) s = .next (showBell t) := by
  rw [← h]
  exact act_run (f := fun s => showBell (backoffEnd (ringNo ring) s)) hs

end

/-! ### Members, fences and beacons -/

section
variable {k u : Nat} {s : State}

/-- A master that misses a member declares it dead and sends a DEAD record (R258). -/
theorem deadTimeout_declares {hb slot : Nat} (hmember : storeGet (fun _ => none) s.bell.members (memberKey k u) = some (hb, slot))
    (hmaster : isMaster k s = true) (hlive : memberKey k u ∉ s.bell.dead) : deadTimeout k u s =
      originate 4 (beBytes 2 u ++ beBytes 4 hb ++ beBytes 5 (frameNow s) ++ beBytes 15 0)
        { s with bell := { s.bell with dead := memberKey k u :: s.bell.dead } } := by
  rw [deadTimeout, hmember]
  exact if_pos (by simp [hmaster, hlive])

theorem deadTimeout_notMaster (h : isMaster k s = false) : deadTimeout k u s = s := by
  unfold deadTimeout
  split
  · rfl
  · exact if_neg (by simp [h])

theorem isolateFence_fences (hon : fld fBellCfgIsolateFence s.bell.eff = 1) (hisolated : s.bell.isolatedAt.isSome) : isolateFence s =
    (List.finRange 8).foldl (fun s p => if holdsRole p s then fencePart p (roleIdOf p s) (roleEpoch p s) s else s) s :=
  if_pos (by simp [hon, hisolated])

theorem isolateFence_ignored (h : fld fBellCfgIsolateFence s.bell.eff ≠ 1 ∨ s.bell.isolatedAt = none) : isolateFence s = s := by
  refine if_neg ?_
  simp only [Bool.and_eq_true, decide_eq_true_eq, not_and_or, Bool.not_eq_true, Option.isSome_eq_false_iff, Option.isNone_iff_eq_none]
  exact h

theorem exec_roleBeaconTimer (hs : Runs s) : exec .roleBeaconTimer s = .next (if fld fBellCfgAuth s.bell.eff = 1 then
    s.bell.assigned.foldl (fun s a => originate 3 (roleBody a.1 a.2) s) s else s) :=
  act_run hs

end

/-! ### Registers that an event leaves -/

theorem regOf_congr {r : Reg} {s t : State} (h : t.regs = s.regs) : regOf r t = regOf r s := by
  rw [regOf, h, regOf]

@[simp] theorem noteAttn_regs (o s : State) : (noteAttn o s).regs = s.regs := by
  obtain ⟨_, _, _, h⟩ := noteAttn_frame o s
  rw [h]

@[simp] theorem noteAttn_bell (o s : State) : (noteAttn o s).bell = s.bell := by
  obtain ⟨_, _, _, h⟩ := noteAttn_frame o s
  rw [h]

@[simp] theorem ringIrq_regs (n : Fin 16384) (force : Bool) (s : State) : (ringIrq n force s).regs = s.regs := by
  obtain ⟨_, _, _, h⟩ := ringIrq_frame n force s
  rw [h]

@[simp] theorem hostWrite_regs (a : Nat) (bs : List Byte) (s : State) : (hostWrite a bs s).regs = s.regs := by
  rw [hostWrite_frame]

@[simp] theorem ledgerQueue_regs (o : LedOp) (s : State) : (ledgerQueue o s).regs = s.regs := by
  unfold ledgerQueue
  split
  · rfl
  · exact noteAttn_regs _ _

@[simp] theorem ledgerQueue_bell (o : LedOp) (s : State) : (ledgerQueue o s).bell = s.bell := by
  unfold ledgerQueue
  split
  · rfl
  · exact noteAttn_bell _ _

section
variable {r : Reg} {e : Event} {part : Option (Fin 8)} {a0 a1 : Nat} {s : State}
variable (hcount : r.offset ≠ (Reg.cnt .hifEvtDrop).offset) (hring : ∀ n, r.offset ≠ (Reg.ringIdx n).offset)
include hcount hring

/-- Posting an event changes no register but the count of dropped events and a ring's index. -/
theorem regOf_postEvent : regOf r (postEvent e part a0 a1 s) = regOf r s := by
  cases htaker : (if hostOpen s then evtRingFor part s else none) with
  | none =>
    rw [postEvent_none htaker]
    exact regOf_setReg_other hcount
  | some n =>
    rcases le_or_gt (ringSize n s) (ringUsed n s) with hfull | hroom
    · rw [postEvent_full htaker hfull]
      exact regOf_setReg_other hcount
    · rw [postEvent_room htaker hroom, regOf_congr (ringIrq_regs _ _ _)]
      refine (regOf_setReg_other (hring n)).trans (regOf_congr ?_)
      rw [setRingCtx_regs, hostWrite_regs]

theorem regOf_raise : regOf r (raise e part a0 a1 s) = regOf r s := by
  unfold raise
  dsimp only
  rw [regOf_congr (noteAttn_regs _ _), regOf_postEvent hcount hring]
  split <;> rfl

end

/-- An event leaves BELL_CFG. -/
theorem regOf_bellCfg_raise (e : Event) (part : Option (Fin 8)) (a0 a1 : Nat) (s : State) :
    regOf .bellCfg (raise e part a0 a1 s) = regOf .bellCfg s :=
  regOf_raise (by decide) fun n => by
    have hoffset : (Reg.ringIdx n).offset = 0x800010 + 32 * n.val := rfl
    have hbell : Reg.bellCfg.offset = 0xB0000 := rfl
    omega

/-! ### BELL_CFG -/

theorem fld_lt {n : Nat} (f : Fld) (x : BitVec n) : fld f x < 2 ^ (f.hi + 1 - f.lo) := Nat.mod_lt _ (by positivity)

theorem fld_mod {n : Nat} (f : Fld) (x : BitVec n) : fld f x % 2 ^ (f.hi + 1 - f.lo) = fld f x := Nat.mod_mod _ _

/-- The identity fields of BELL_CFG: UNIT_ID, RATE, BRIDGE and MASTER_ELIG (R267). -/
def bellIdentity (w : Payload) : List Nat := [fld fBellCfgUnitId w, fld fBellCfgRate w, fld fBellCfgBridge w, fld fBellCfgMasterElig w]

/-- BELL_CFG with a write's fields other than the identity stored, DEAD_FRAMES and TAU_LOG2 not below their least values. -/
def bellRestStored (v w : Payload) : Payload :=
  setFld fBellCfgAuth (fld fBellCfgAuth v) (setFld fBellCfgIsolateFence (fld fBellCfgIsolateFence v)
    (setFld fBellCfgDeadFrames (max 1 (fld fBellCfgDeadFrames v)) (setFld fBellCfgTauLog2 (max 6 (fld fBellCfgTauLog2 v)) w)))

/-- A payload holds the fields of a write of BELL_CFG other than the identity. -/
def HoldsBellRest (v w : Payload) : Prop :=
  fld fBellCfgAuth w = fld fBellCfgAuth v ∧ fld fBellCfgIsolateFence w = fld fBellCfgIsolateFence v ∧
  fld fBellCfgDeadFrames w = max 1 (fld fBellCfgDeadFrames v) ∧ fld fBellCfgTauLog2 w = max 6 (fld fBellCfgTauLog2 v)

section
variable {v w : Payload}

theorem holdsBellRest_bellRestStored : HoldsBellRest v (bellRestStored v w) := by
  have hdead : max 1 (fld fBellCfgDeadFrames v) < 2 ^ (fBellCfgDeadFrames.hi + 1 - fBellCfgDeadFrames.lo) :=
    max_lt (by decide) (fld_lt _ _)
  have htau : max 6 (fld fBellCfgTauLog2 v) < 2 ^ (fBellCfgTauLog2.hi + 1 - fBellCfgTauLog2.lo) := max_lt (by decide) (fld_lt _ _)
  unfold HoldsBellRest bellRestStored
  simp (disch := decide) only [fld_setFld_other, fld_setFld, fld_mod, Nat.mod_eq_of_lt hdead, Nat.mod_eq_of_lt htau, and_self]

theorem bellIdentity_bellRestStored : bellIdentity (bellRestStored v w) = bellIdentity w := by
  unfold bellIdentity bellRestStored
  simp (disch := decide) only [fld_setFld_other]

theorem bellIdentity_withIdentity : bellIdentity (withIdentity v w) = bellIdentity v := by
  unfold bellIdentity withIdentity
  simp (disch := decide) only [fld_setFld_other, fld_setFld, fld_mod]

theorem holdsBellRest_withIdentity {u : Payload} (h : HoldsBellRest v w) : HoldsBellRest v (withIdentity u w) := by
  unfold HoldsBellRest withIdentity at *
  simp (disch := decide) only [fld_setFld_other]
  exact h

end

/-- Every Bell lane is disabled: not enabled, and DOWN (R267). -/
def bellLanesOff (s : State) : Bool :=
  (List.range 4).all fun l => !bitOf (getF fLaneBellCfgEn .laneBellCfg s) l && laneState (64 + l) s = 0

/-- The state with a whole write of BELL_CFG stored and its identity in force. -/
def bellIdentityStored (v : Payload) (s : State) : State :=
  let t := setReg .bellCfg (withIdentity v (bellRestStored v (regOf .bellCfg s))) s
  { t with bell := { t.bell with eff := withIdentity v t.bell.eff } }

theorem regOf_bellIdentityStored {v : Payload} {s : State} (hinv : StateInv s) :
    regOf .bellCfg (bellIdentityStored v s) = withIdentity v (bellRestStored v (regOf .bellCfg s)) := by
  have hregs : (bellIdentityStored v s).regs = (setReg .bellCfg (withIdentity v (bellRestStored v (regOf .bellCfg s))) s).regs := rfl
  rw [regOf_congr hregs, regOf_setReg hinv]

theorem bellIdentityStored_eff (v : Payload) (s : State) : (bellIdentityStored v s).bell.eff = withIdentity v s.bell.eff :=
  congrArg (fun b : Bell => withIdentity v b.eff) (setReg_bell _ _ _)

section
variable {v : Payload} {s : State} (hid : s.bell.idConflict = false)
include hid

/-- A write of BELL_CFG without an ID conflict, by whether the Bell lanes are disabled. -/
theorem bellCfgWrite_eq : bellCfgWrite v s =
    if bellLanesOff s then
      if fld fBellCfgUnitId v = fld fBellCfgUnitId (regOf .bellCfg s) then bellIdentityStored v s
      else ledgerQueue (.record (.setting Reg.bellCfg.offset (fld fBellCfgUnitId v))) (bellIdentityStored v s)
    else
      let t := setReg .bellCfg (bellRestStored v (regOf .bellCfg s)) s
      if bellIdentity v = bellIdentity (regOf .bellCfg s) then t else raise .bellCfgRefused none 0 0 t := by
  simp only [bellCfgWrite, hid, Bool.false_eq_true, if_false, bellLanesOff, bellIdentityStored, bellRestStored, bellIdentity,
    Prod.mk.injEq, List.cons.injEq, and_true]

/-- With the Bell lanes disabled BELL_CFG holds the write whole, and its identity is in force. -/
theorem bellCfgWrite_off (hinv : StateInv s) (hoff : bellLanesOff s = true) :
    regOf .bellCfg (bellCfgWrite v s) = withIdentity v (bellRestStored v (regOf .bellCfg s)) ∧
    (bellCfgWrite v s).bell.eff = withIdentity v s.bell.eff := by
  rw [bellCfgWrite_eq hid, if_pos hoff]
  split
  · exact ⟨regOf_bellIdentityStored hinv, bellIdentityStored_eff v s⟩
  · exact ⟨(regOf_congr (ledgerQueue_regs _ _)).trans (regOf_bellIdentityStored hinv),
      (congrArg Bell.eff (ledgerQueue_bell _ _)).trans (bellIdentityStored_eff v s)⟩

/-- With a Bell lane in use a write of BELL_CFG that repeats the identity stores the rest. -/
theorem bellCfgWrite_inUse_same (huse : bellLanesOff s = false) (hsame : bellIdentity v = bellIdentity (regOf .bellCfg s)) :
    bellCfgWrite v s = setReg .bellCfg (bellRestStored v (regOf .bellCfg s)) s :=
  (bellCfgWrite_eq hid).trans ((if_neg (ne_true_of_eq_false huse)).trans (if_pos hsame))

/-- With a Bell lane in use a write of BELL_CFG that would change the identity stores the rest and is reported. -/
theorem bellCfgWrite_inUse_changed (huse : bellLanesOff s = false) (hchanged : bellIdentity v ≠ bellIdentity (regOf .bellCfg s)) :
    bellCfgWrite v s = raise .bellCfgRefused none 0 0 (setReg .bellCfg (bellRestStored v (regOf .bellCfg s)) s) :=
  (bellCfgWrite_eq hid).trans ((if_neg (ne_true_of_eq_false huse)).trans (if_neg hchanged))

/-- With a Bell lane in use BELL_CFG takes the rest of a write, and the identity in force stays. -/
theorem bellCfgWrite_inUse (hinv : StateInv s) (huse : bellLanesOff s = false) :
    regOf .bellCfg (bellCfgWrite v s) = bellRestStored v (regOf .bellCfg s) ∧ (bellCfgWrite v s).bell.eff = s.bell.eff := by
  by_cases hsame : bellIdentity v = bellIdentity (regOf .bellCfg s)
  · rw [bellCfgWrite_inUse_same hid huse hsame]
    exact ⟨regOf_setReg hinv, congrArg Bell.eff (setReg_bell _ _ _)⟩
  · rw [bellCfgWrite_inUse_changed hid huse hsame, regOf_bellCfg_raise, raise_bell]
    exact ⟨regOf_setReg hinv, congrArg Bell.eff (setReg_bell _ _ _)⟩

/-- The fields other than the identity are stored either way. -/
theorem holdsBellRest_bellCfgWrite (hinv : StateInv s) : HoldsBellRest v (regOf .bellCfg (bellCfgWrite v s)) := by
  cases hlanes : bellLanesOff s with
  | true =>
    rw [(bellCfgWrite_off hid hinv hlanes).1]
    exact holdsBellRest_withIdentity holdsBellRest_bellRestStored
  | false =>
    rw [(bellCfgWrite_inUse hid hinv hlanes).1]
    exact holdsBellRest_bellRestStored

end

/-- A register access keeps the invariant: it drops no more than the split-write latch (R286). -/
theorem StateInv.accessed {m : Master} {s : State} (h : StateInv s) : StateInv (accessed m s) := by
  unfold Machine.accessed
  split
  · exact (dropLatch_inv (Kept.self h)).inv
  · exact h

/-- Settles O29: a timer by the level's ring and what the unit is there, BELL_CFG by whether its lanes are disabled. -/
theorem bellTimers : Obligations.BellTimers := by
  refine ⟨fun ring u s hs => ?_, fun m value s hs hinv hid => ?_⟩
  · have hdead : exec (.bellDeadTimeout ring u) s = .next (deadTimeout (ringNo ring) u.toNat s) := act_run hs
    have hfence : exec .isolateFenceTimeout s = .next (isolateFence s) := act_run hs
    refine ⟨fun hlevel hclaim hwait => ?_, fun h => ?_, fun hidle => ?_, fun hwait hcollided => ?_, fun hwait hclear => ?_,
      fun hb slot hmember hmaster hlive => ?_, fun hother => ?_, fun hon hisolated => ?_, fun h => ?_, fun hauth => ?_, fun hauth => ?_⟩
    · exact exec_bellSilenceTimeout hs (silence_isolates hlevel hclaim hwait)
    · exact exec_bellSilenceTimeout hs (silence_ignored h)
    · exact exec_bellBackoffEnd hs (backoffEnd_idle hidle)
    · exact exec_bellBackoffEnd hs (backoffEnd_collided hwait hcollided)
    · exact exec_bellBackoffEnd hs (backoffEnd_claims hwait hclear)
    · exact hdead.trans (congrArg _ (deadTimeout_declares hmember hmaster hlive))
    · exact hdead.trans (congrArg _ (deadTimeout_notMaster hother))
    · exact hfence.trans (congrArg _ (isolateFence_fences hon hisolated))
    · exact hfence.trans (congrArg _ (isolateFence_ignored h))
    · exact (exec_roleBeaconTimer hs).trans (congrArg _ (if_pos hauth))
    · exact (exec_roleBeaconTimer hs).trans (congrArg _ (if_neg hauth))
  · have hexec : exec (.bellCfgWrite m value) s = .next (bellCfgWrite value (accessed m s)) := actBy_accepts hs
    obtain ⟨hauth, hisolate, hframes, htau⟩ := holdsBellRest_bellCfgWrite (v := value) hid hinv.accessed
    refine ⟨_, hexec, hauth, hisolate, hframes, htau, fun hlanes => ?_, fun hlanes => ?_⟩
    · obtain ⟨hreg, heff⟩ := bellCfgWrite_off (v := value) hid hinv.accessed hlanes
      exact ⟨(congrArg bellIdentity hreg).trans bellIdentity_withIdentity, heff⟩
    · obtain ⟨hreg, heff⟩ := bellCfgWrite_inUse (v := value) hid hinv.accessed hlanes
      exact ⟨(congrArg bellIdentity hreg).trans bellIdentity_bellRestStored, heff, _, bellCfgWrite_inUse_same hid hlanes,
        bellCfgWrite_inUse_changed hid hlanes⟩

end Sys2Proof.Machine
end

section
/-!
SUPPORT. The whole machine: the step at the queue's front, the invariant after reset, what no command changes, and a device that is held.
-/
namespace Sys2Proof.Machine

/-- Settles O1: the front of a queue that is given is the command the step runs. -/
theorem stepRunsFront : Obligations.StepRunsFront := fun _ _ _ => step_front rfl

/-- Nothing is stored in the memories and tables of the reset state. -/
theorem State.reset_canonical : Canonical State.reset ∧ State.reset.sys.canonical :=
  ⟨⟨rfl, rfl, rfl, rfl, rfl, rfl, rfl, rfl, rfl, rfl⟩, rfl, rfl, rfl⟩

/-- Settles O3: empty memories are canonical, the cores are as built, and time and fuses start at zero. -/
theorem resetWellKept : Obligations.ResetWellKept where
  canonical := State.reset_canonical.1
  memories := State.reset_canonical.2
  cores := State.reset_cores
  time := by decide
  svn := Nat.zero_le 64

/-- Settles O5: what every command keeps speaks of the queue and the fuses as well. -/
theorem commandsKeepQueueAndFuses : Obligations.CommandsKeepQueueAndFuses := by
  intro c s t hinv hexec
  have hkept : Kept (s.pending, s.fuses) t := exec_inv (Kept.self hinv) t hexec
  exact ⟨hkept.pending, hkept.fuses⟩

/-- A meaning that checks its operands first is the meaning itself where they pass. -/
theorem act_checked_held {bad : Prop} [Decidable bad] {f : State → State} {s : State} (h : held s = true) (hb : ¬bad) :
    (if bad then .fault .malformed else act f s) = .next s :=
  (if_neg hb).trans (act_held h)

/-- Settles O7: every command but those of the pins, the supply and the boundary-scan port acts only on a device that is not held. -/
theorem heldDeviceIgnores : Obligations.HeldDeviceIgnores := by
  intro c s hheld hfits
  cases c with
  | porNAssert | porNRelease | sysRstN _ | powerLoss | jtagExtest _ | jtagSamplePreload _ _ | jtagIdcode | jtagClamp | jtagHighz
  | jtagBypass _ | jtagTestLogicReset => trivial
  | bellFireRecord _ _ | bellArmRecord _ _ | bellRoleRecord _ _ | bellDeadRecord _ _ | bellMsgRecord _ _ | voltageSample _
  | thermSample _ => exact act_checked_held hheld (length_fits_iff.mp hfits)
  | tdcCalDone hits => exact act_checked_held hheld (by simpa [fits, Instr.wellFormed] using hfits)
  | hbmAccess a => exact (if_pos ((Bool.and_true _).symm.trans hfits)).trans (act_held hheld)
  | _ => exact congrArg Host.Outcome.next (if_pos hheld)

end Sys2Proof.Machine
end

section
/-!
SUPPORT. Of several failing checks the one found is of lowest code.
-/
namespace Sys2Proof.Machine

/-- The check found is a failing one of the list, of lowest code among those that fail. -/
def IsLowest (cs : List Check) (c : Check) : Prop :=
  c ∈ cs ∧ c.fails = true ∧ ∀ d ∈ cs, d.fails = true → c.code ≤ d.code

section
variable {cs : List Check} {b c : Check}

/-- A check that fails and is of no higher code than the lowest takes its place. -/
theorem IsLowest.cons_takes (h : IsLowest cs c) (hb : b.fails = true) (hle : b.code ≤ c.code) : IsLowest (b :: cs) b :=
  ⟨List.mem_cons_self, hb, fun d hd hfails => (List.mem_cons.mp hd).elim (fun hdb => hdb ▸ le_rfl)
    fun hd => hle.trans (h.2.2 d hd hfails)⟩

/-- A check that passes, or is of higher code, leaves the lowest. -/
theorem IsLowest.cons_keeps (h : IsLowest cs c) (hb : b.fails = true → c.code ≤ b.code) : IsLowest (b :: cs) c :=
  ⟨List.mem_cons_of_mem b h.1, h.2.1, fun d hd hfails => (List.mem_cons.mp hd).elim (fun hdb => hdb ▸ hb (hdb ▸ hfails))
    fun hd => h.2.2 d hd hfails⟩

/-- A failing check before checks of which none fails is the lowest. -/
theorem isLowest_cons_of_pass (hb : b.fails = true) (hpass : ∀ d ∈ cs, d.fails = false) : IsLowest (b :: cs) b :=
  ⟨List.mem_cons_self, hb, fun d hd hfails => (List.mem_cons.mp hd).elim (fun hdb => hdb ▸ le_rfl)
    fun hd => absurd hfails (ne_true_of_eq_false (hpass d hd))⟩

theorem firstFail_cons_none (h : firstFail cs = none) : firstFail (b :: cs) = if b.fails then some b else none := by
  rw [firstFail, h]

theorem firstFail_cons_some (h : firstFail cs = some c) :
    firstFail (b :: cs) = if b.fails && b.code ≤ c.code then some b else some c := by
  rw [firstFail, h]

end

/-- What firstFail answers: the lowest failing check, or none where none fails (R305). -/
theorem firstFail_spec (cs : List Check) :
    (∀ c, firstFail cs = some c → IsLowest cs c) ∧ (firstFail cs = none ↔ ∀ c ∈ cs, c.fails = false) := by
  induction cs with
  | nil => exact ⟨nofun, fun _ => nofun, fun _ => rfl⟩
  | cons b cs ih =>
    obtain ⟨ihsome, ihnone⟩ := ih
    cases hrest : firstFail cs with
    | none =>
      have hpass : ∀ d ∈ cs, d.fails = false := ihnone.mp hrest
      rw [firstFail_cons_none hrest]
      cases hb : b.fails with
      | true => exact ⟨fun c hc => Option.some.inj hc ▸ isLowest_cons_of_pass hb hpass, nofun,
          fun h => absurd (h b List.mem_cons_self) (by simp [hb])⟩
      | false => exact ⟨nofun, fun _ => List.forall_mem_cons.mpr ⟨hb, hpass⟩, fun _ => rfl⟩
    | some c =>
      have hlow : IsLowest cs c := ihsome c hrest
      have hfails : ¬∀ d ∈ b :: cs, d.fails = false := fun h =>
        absurd (h c (List.mem_cons_of_mem b hlow.1)) (by simp [hlow.2.1])
      rw [firstFail_cons_some hrest]
      split_ifs with hb
      · obtain ⟨hbf, hle⟩ := Bool.and_eq_true_iff.mp hb
        exact ⟨fun d hd => Option.some.inj hd ▸ hlow.cons_takes hbf (of_decide_eq_true hle), nofun, fun h => absurd h hfails⟩
      · have hkeep : b.fails = true → c.code ≤ b.code := fun hbf =>
          le_of_not_ge fun hle => hb (Bool.and_eq_true_iff.mpr ⟨hbf, decide_eq_true hle⟩)
        exact ⟨fun d hd => Option.some.inj hd ▸ hlow.cons_keeps hkeep, nofun, fun h => absurd h hfails⟩

/-- Settles O45: what firstFail answers of a list of checks. -/
theorem lowestCode : Obligations.LowestCode := firstFail_spec

end Sys2Proof.Machine
end

section
/-!
SUPPORT. The device's writes to host memory.
-/
namespace Sys2Proof.Machine

theorem hostWrite_open {a : Nat} {bs : List Byte} {s : State} (h : hostOpen s = true) :
    hostWrite a bs s = { s with hostMem := storeSetList (fun _ => 0) s.hostMem a bs } := if_pos h

/-- While the link is down, and in D3hot, nothing is written (R287, R403). -/
theorem hostWrite_closed {a : Nat} {bs : List Byte} {s : State} (h : hostOpen s = false) : hostWrite a bs s = s :=
  if_neg (ne_true_of_eq_false h)

/-- Settles O9: a run of writes reads back inside and leaves what lies outside. -/
theorem hostMemoryReadsBack : Obligations.HostMemoryReadsBack := by
  intro a bs s hinv
  obtain ⟨-, hmem, -⟩ := hinv.canonical
  refine ⟨fun hopen k b hb => ?_, fun k hk => ?_, hostWrite_closed⟩
  · rw [hostWrite_open hopen]
    exact storeGet_setList hmem hb
  · cases hopen : hostOpen s with
    | true =>
      rw [hostWrite_open hopen]
      exact storeGet_setList_other hk
    | false => rw [hostWrite_closed hopen]

end Sys2Proof.Machine
end

section
/-!
SUPPORT. What raising an event does to the host interface, the Ledger, the registers and host memory, and the register write in two halves.
-/
namespace Sys2Proof.Machine

/-! ### What an event changes before it is posted -/

/-- The state once an event's severity is in ATTN.SEV and an event of severity 2 or 3 in the event log (R312, R395). -/
def eventNoted (e : Event) (part : Option (Fin 8)) (a0 a1 : Nat) (s : State) : State :=
  { s with hif := { s.hif with sev := max s.hif.sev e.sev }, led := if 2 ≤ e.sev then { s.led with
      events := s.led.events ++ [⟨e.id, part, a0, a1, timeWord s⟩], oldestAt := some (s.led.oldestAt.getD s.tick) } else s.led }

section
variable (e : Event) (part : Option (Fin 8)) (a0 a1 : Nat) (s : State)

/-- Raising an event: it is noted, then posted, then the Crier word's vector (R338). -/
theorem raise_eq : raise e part a0 a1 s = noteAttn s (postEvent e part a0 a1 (eventNoted e part a0 a1 s)) := by
  unfold raise eventNoted
  dsimp only
  split <;> rfl

/-- The Crier word of an entry counts the event's severity (log 38). -/
theorem attnNat_eventNoted : attnNat (eventNoted e part a0 a1 s) = attnNat { s with hif := { s.hif with sev := max s.hif.sev e.sev } } := by
  unfold eventNoted
  split <;> rfl

/-- The ring that takes an event is settled by the registers and the link. -/
theorem taker_eventNoted : (if hostOpen (eventNoted e part a0 a1 s) then evtRingFor part (eventNoted e part a0 a1 s) else none) =
    if hostOpen s then evtRingFor part s else none := rfl

@[simp] theorem noteAttn_led (o s : State) : (noteAttn o s).led = s.led := by
  obtain ⟨_, _, _, h⟩ := noteAttn_frame o s
  rw [h]

@[simp] theorem noteAttn_hostMem (o s : State) : (noteAttn o s).hostMem = s.hostMem := by
  obtain ⟨_, _, _, h⟩ := noteAttn_frame o s
  rw [h]

@[simp] theorem noteAttn_sev (o s : State) : (noteAttn o s).hif.sev = s.hif.sev := by
  obtain ⟨_, _, _, h⟩ := noteAttn_frame o s
  rw [h]

@[simp] theorem ringIrq_sev (n : Fin 16384) (force : Bool) (s : State) : (ringIrq n force s).hif.sev = s.hif.sev := by
  obtain ⟨_, _, _, h⟩ := ringIrq_frame n force s
  rw [h]

@[simp] theorem ringIrq_hostMem (n : Fin 16384) (force : Bool) (s : State) : (ringIrq n force s).hostMem = s.hostMem := by
  obtain ⟨_, _, _, h⟩ := ringIrq_frame n force s
  rw [h]

@[simp] theorem setRingCtx_sev (n : Nat) (c : RingCtx) (s : State) : (setRingCtx n c s).hif.sev = s.hif.sev := rfl

@[simp] theorem hostWrite_hif (a : Nat) (bs : List Byte) (s : State) : (hostWrite a bs s).hif = s.hif := by
  rw [hostWrite_frame]

@[simp] theorem postEvent_led : (postEvent e part a0 a1 s).led = s.led := by
  obtain ⟨_, _, _, _, h⟩ := postEvent_frame e part a0 a1 s
  rw [h]

/-- Posting an event leaves ATTN.SEV. -/
@[simp] theorem postEvent_sev : (postEvent e part a0 a1 s).hif.sev = s.hif.sev := by
  cases htaker : (if hostOpen s then evtRingFor part s else none) with
  | none => rw [postEvent_none htaker, bump_hif]
  | some n =>
    rcases le_or_gt (ringSize n s) (ringUsed n s) with hfull | hroom
    · rw [postEvent_full htaker hfull]
      rfl
    · rw [postEvent_room htaker hroom, ringIrq_sev, setF_hif, setRingCtx_sev, hostWrite_hif]

theorem ringIdx_congr {n : Fin 16384} {s t : State} (h : t.regs = s.regs) : ringIdx n t = ringIdx n s :=
  congrArg (fld fRingIdxIdx) (regOf_congr h)

section
variable {e : Event} {part : Option (Fin 8)} {a0 a1 : Nat} {s : State} {n : Fin 16384}
variable (h : (if hostOpen s then evtRingFor part s else none) = some n) (hroom : ringUsed n s < ringSize n s)
include h hroom

/-- Posting an event to a ring with room writes its entry to host memory. -/
theorem hostMem_postEvent : (postEvent e part a0 a1 s).hostMem = (hostWrite (ringAddr n (ringIdx n s) s)
    (eventEntry e part a0 a1 (ringPhase n (ringIdx n s) s) (ringCtx n.val s).lost (attnNat s) (timeWord s)) s).hostMem := by
  rw [postEvent_room h hroom, ringIrq_hostMem, setF_hostMem, setRingCtx_hostMem]

theorem ringIdx_postEvent (hinv : StateInv s) : ringIdx n (postEvent e part a0 a1 s) = (ringIdx n s + 1) % 2 ^ 32 := by
  rw [postEvent_room h hroom, ringIdx_congr (ringIrq_regs _ _ _)]
  exact getF_setF (setRingCtx_inv (hostWrite_inv (Kept.self hinv))).inv (by decide) (by decide)

end

theorem raise_sev : (raise e part a0 a1 s).hif.sev = max s.hif.sev e.sev := by
  rw [raise_eq, noteAttn_sev, postEvent_sev, eventNoted]

theorem raise_led : (raise e part a0 a1 s).led = (eventNoted e part a0 a1 s).led := by
  rw [raise_eq, noteAttn_led, postEvent_led]

theorem eventNoted_inv (h : StateInv s) : StateInv (eventNoted e part a0 a1 s) := ((Kept.self h).upd rfl rfl rfl).inv

end

/-! ### Where an event is posted -/

section
variable {e : Event} {part : Option (Fin 8)} {a0 a1 : Nat} {s : State} (hinv : StateInv s)
include hinv

/-- An event that no ring takes only counts as dropped (R307). -/
theorem raise_noRing (h : (if hostOpen s then evtRingFor part s else none) = none) : (raise e part a0 a1 s).hostMem = s.hostMem ∧
    regOf (.cnt .hifEvtDrop) (raise e part a0 a1 s) = BitVec.ofNat 48 ((regOf (.cnt .hifEvtDrop) s).toNat + 1) := by
  rw [raise_eq, postEvent_none ((taker_eventNoted ..).trans h), noteAttn_hostMem, regOf_congr (noteAttn_regs _ _)]
  exact ⟨rfl, regOf_bump (eventNoted_inv _ _ _ _ _ hinv)⟩

section
variable {n : Fin 16384} (h : (if hostOpen s then evtRingFor part s else none) = some n)
include h

/-- So does an event for a full ring. -/
theorem raise_fullRing (hfull : ringSize n s ≤ ringUsed n s) : (raise e part a0 a1 s).hostMem = s.hostMem ∧
    regOf (.cnt .hifEvtDrop) (raise e part a0 a1 s) = BitVec.ofNat 48 ((regOf (.cnt .hifEvtDrop) s).toNat + 1) := by
  rw [raise_eq, postEvent_full ((taker_eventNoted ..).trans h) hfull, noteAttn_hostMem, regOf_congr (noteAttn_regs _ _),
    regOf_congr (setRingCtx_regs _ _ _)]
  exact ⟨rfl, regOf_bump (eventNoted_inv _ _ _ _ _ hinv)⟩

/-- With room the entry stands at the ring's next place and IDX counts it (R291, R307). -/
theorem raise_room (hroom : ringUsed n s < ringSize n s) :
    (raise e part a0 a1 s).hostMem = (hostWrite (ringAddr n (ringIdx n s) s)
      (eventEntry e part a0 a1 (ringPhase n (ringIdx n s) s) (ringCtx n.val s).lost
        (attnNat { s with hif := { s.hif with sev := max s.hif.sev e.sev } }) (timeWord s)) s).hostMem ∧
    ringIdx n (raise e part a0 a1 s) = (ringIdx n s + 1) % 2 ^ 32 := by
  have hopen : hostOpen s = true := by
    by_contra hc
    rw [if_neg hc] at h
    cases h
  have htaker := (taker_eventNoted e part a0 a1 s).trans h
  rw [raise_eq, noteAttn_hostMem, ringIdx_congr (noteAttn_regs _ _)]
  refine ⟨?_, ringIdx_postEvent htaker hroom (eventNoted_inv e part a0 a1 s hinv)⟩
  rw [hostMem_postEvent htaker hroom, attnNat_eventNoted, hostWrite_open hopen, hostWrite_open (s := eventNoted e part a0 a1 s) hopen]
  rfl

end
end

/-- Settles O8: what the event is noted in, then the cases of the ring that takes it. -/
theorem raiseTakesEffect : Obligations.RaiseTakesEffect := by
  intro e part a0 a1 s hinv
  refine ⟨raise_sev .., fun hlow => ?_, fun hhigh => ?_, raise_noRing hinv, fun n h hfull => raise_fullRing hinv h hfull,
    fun n h hroom => raise_room hinv h hroom, ?_⟩
  · exact (raise_led ..).trans (if_neg (Nat.not_le.mpr hlow))
  · exact (raise_led ..).trans (if_pos hhigh)
  · obtain ⟨_, _, _, _, _, h⟩ := raise_frame e part a0 a1 s
    rw [h]

/-! ### A register write in two halves -/

/-- Without a half held, a second half to a register is reported alone (log 36). -/
theorem splitHigh_nothingHeld {o : Nat} {v : BitVec 32} {s : State} (h : s.hif.latch = none) (hreg : (Reg.ofOffset o).isSome) :
    splitHigh o v s = raise .hifSplitDiscard none 0 0 s := by
  rw [splitHigh, h]
  exact if_pos hreg

section
variable {o k : Nat} {low high : BitVec 32} {s : State} (hheld : s.hif.latch = some (k, low))
include hheld

/-- A second half writes its register whole where the latch holds the first half. -/
theorem splitHigh_matches (hk : k = o) : splitHigh o high s =
    offsetWrite .host o (pay (high.toNat * 2 ^ 32 + low.toNat)) { s with hif := { s.hif with latch := none } } := by
  rw [splitHigh, hheld]
  exact if_pos hk

/-- A second half to another register empties the latch and is reported once (log 36). -/
theorem splitHigh_differs (hk : k ≠ o) :
    splitHigh o high s = raise .hifSplitDiscard none 0 0 { s with hif := { s.hif with latch := none } } := by
  rw [splitHigh, hheld]
  refine (if_neg hk).trans ?_
  rw [dropLatch, hheld]

end

/-- Settles O11: the first half goes to the latch, the second by what the latch holds. -/
theorem splitWrite : Obligations.SplitWrite := by
  intro offset low high s hs
  have hlow : exec (.splitWriteLow offset low) s = _ := actBy_accepts hs
  have hhigh : exec (.splitWriteHigh offset high) s = .next (splitHigh (offset.toNat / 8 * 8) high s) := actFrom_accepts hs
  refine ⟨fun hreg => hlow.trans (congrArg _ (if_pos hreg)), fun r hr hheld => ?_, fun k hheld hk => ?_, fun h hreg => ?_⟩
  · rw [hhigh, splitHigh_matches hheld rfl, offsetWrite_some hr, pay]
  · rw [hhigh, splitHigh_differs hheld hk]
  · rw [hhigh, splitHigh_nothingHeld h hreg]

end Sys2Proof.Machine
end

section
/-!
SUPPORT. The board's ports: the SMBus target and the boundary-scan port.
-/
namespace Sys2Proof.Machine

/-! ### The SMBus target -/

section
variable {s : State} (hs : Runs s)
include hs

/-- An SMBus command of the table answers, or is a NACK while the Reeve restarts (R378). -/
theorem smbAnswer_run (f : State → List Byte) :
    smbAnswer f s = .next (emit (.smbus (if s.sys.reeveRuns then some (f s) else none)) s) := by
  rw [smbAnswer, act_run hs]

theorem smbAnswer_answers (hreeve : s.sys.reeveRuns = true) (f : State → List Byte) :
    smbAnswer f s = .next (emit (.smbus (some (f s))) s) := by
  rw [smbAnswer_run hs, if_pos hreeve]

theorem smbAnswer_nack (hreeve : s.sys.reeveRuns = false) (f : State → List Byte) :
    smbAnswer f s = .next (emit (.smbus none) s) := by
  rw [smbAnswer_run hs, if_neg (ne_true_of_eq_false hreeve)]

/-- The power that is read is the next free value (log 63). -/
theorem execSmbReadPower_answers (hreeve : s.sys.reeveRuns = true) : execSmbReadPower s =
    .next (emit (.smbus (some (leBytes 2 (Config.freeValue s.free)))) { s with free := s.free + 1 }) :=
  (act_run hs).trans (congrArg _ (if_pos hreeve))

theorem execSmbReadPower_nack (hreeve : s.sys.reeveRuns = false) : execSmbReadPower s = .next (emit (.smbus none) s) :=
  (act_run hs).trans (congrArg _ (if_neg (ne_true_of_eq_false hreeve)))

/-- A write, or a command of no row, is a NACK; a read command of a row is that row's own (R378). -/
theorem execSmbOther_eq (command : BitVec 8) (write : Bool) : execSmbOther command write s =
    .next (if write = true ∨ 6 < command.toNat then emit (.smbus none) s else s) := by
  rw [execSmbOther, act_run hs]
  simp only [Bool.or_eq_true, decide_eq_true_eq, gt_iff_lt]

end

/-! ### The boundary-scan port -/

/-- A boundary-scan command of a powered device has its effect (R418). -/
theorem jtagAct_powered {f : State → State} {s : State} (h : s.sys.powered = true) : jtagAct f s = .next (f s) :=
  congrArg _ (if_pos h)

theorem execJtagIdcode_powered {s : State} (h : s.sys.powered = true) :
    execJtagIdcode s = .next (emit (.jtag idcodeBits) (jtagLoad 2 0 s)) := by
  rw [execJtagIdcode, jtagAct_powered h]

theorem execJtagClamp_powered {s : State} (h : s.sys.powered = true) :
    execJtagClamp s = .next (scanBypass (jtagLoad 4 (if s.sys.rstLow then 1 else 0) s)) := by
  rw [execJtagClamp, jtagAct_powered h]

theorem execJtagHighz_powered {s : State} (h : s.sys.powered = true) :
    execJtagHighz s = .next (scanBypass (jtagLoad 5 (if s.sys.rstLow then 2 else 0) s)) := by
  rw [execJtagHighz, jtagAct_powered h]

theorem idcodeBits_getElem? {i : Nat} (h : i < 32) : idcodeBits[i]? = some (Nat.testBit 0x14096E5B i) := by
  have hbit : bitOf 0x14096E5B i = Nat.testBit 0x14096E5B i := by
    rw [bitOf, Nat.testBit_eq_decide_div_mod_eq, bitsOf, Nat.add_sub_cancel_left]
    rfl
  rw [idcodeBits, List.getElem?_map, List.getElem?_range h, Option.map_some, hbit]

/-- EXTEST while SYS_RST_N is low scans 16 captured cells, whose values are free (log 67). -/
theorem extest_low {scan : List Bool} {s : State} (h : s.sys.rstLow = true) : extest scan s =
    scanBoundary ((List.range 16).map fun i => bitOf (Config.freeValue s.free) i) scan
      { s with jtag := { s.jtag with ir := 0, drive := 1 }, free := s.free + 1 } := by
  rw [extest, if_pos h]
  rfl

theorem extest_high {scan : List Bool} {s : State} (h : s.sys.rstLow = false) : extest scan s = scanBypass (jtagLoad 0 0 s) :=
  if_neg (ne_true_of_eq_false h)

/-- A code is BYPASS exactly where it names no other instruction. -/
theorem isBypass_iff {code : BitVec 8} : isBypass code = true ↔ ¬code.toNat ∈ [0x00, 0x01, 0x02, 0x04, 0x05] := by
  rw [isBypass, Bool.not_eq_true', decide_eq_false_iff_not]

theorem execJtagBypass_powered {code : BitVec 8} {s : State} (h : s.sys.powered = true) :
    execJtagBypass code s = .next (if isBypass code then scanBypass (jtagLoad code 0 s) else s) := jtagAct_powered h

/-- Settles O59: the SMBus target by whether the Reeve runs, each boundary-scan command by its own effect. -/
theorem boardPorts : Obligations.BoardPorts := by
  refine ⟨fun s hs => ⟨fun hreeve => ?_, fun hreeve => ?_, fun command hread => ?_, fun command write hnack => ?_⟩,
    fun pins scan code s hpower => ⟨fun hpins => ?_, fun hlow => ?_, fun hhigh => ?_, ?_, execJtagClamp_powered hpower,
      execJtagHighz_powered hpower, fun hcode => ?_, fun hcode => ?_, jtagAct_powered hpower⟩⟩
  · have hread := smbAnswer_answers hs hreeve
    exact ⟨hread fun s => leBytes 2 (attnNat s), hread fun s => leBytes 2 (getF fSysIdPart .sysId s), hread fun s => word16 (tj s),
      ⟨_, execSmbReadPower_answers hs hreeve, rfl⟩, hread fun s => s.therm.sensors.flatMap word16,
      hread fun s => s.dep.rails.flatMap fun r => word16 (r / 10), hread fun s => leBytes 4 (getF fDepOutageTotalMs .depOutage s)⟩
  · have hnack := smbAnswer_nack hs hreeve
    simp only [List.forall_mem_cons]
    exact ⟨hnack fun s => leBytes 2 (attnNat s), hnack fun s => leBytes 2 (getF fSysIdPart .sysId s), hnack fun s => word16 (tj s),
      execSmbReadPower_nack hs hreeve, hnack fun s => s.therm.sensors.flatMap word16,
      hnack fun s => s.dep.rails.flatMap fun r => word16 (r / 10), hnack fun s => leBytes 4 (getF fDepOutageTotalMs .depOutage s),
      List.forall_mem_nil _⟩
  · exact (execSmbOther_eq hs command false).trans (congrArg _ (if_neg (by simpa using hread)))
  · exact (execSmbOther_eq hs command write).trans (congrArg _ (if_pos hnack))
  · exact (if_neg (not_not_intro hpins)).trans (jtagAct_powered hpower)
  · exact ⟨(List.range 16).map fun i => bitOf (Config.freeValue s.free) i,
      { s with jtag := { s.jtag with ir := 0, drive := 1 }, free := s.free + 1 }, by simp,
      (jtagAct_powered hpower).trans (congrArg _ (extest_low hlow)), rfl⟩
  · exact (jtagAct_powered hpower).trans (congrArg _ (extest_high hhigh))
  · exact ⟨idcodeBits, execJtagIdcode_powered hpower, by simp [idcodeBits], fun i hi => idcodeBits_getElem? hi⟩
  · exact (execJtagBypass_powered hpower).trans (congrArg _ (if_neg (mt isBypass_iff.mp (not_not_intro hcode))))
  · exact (execJtagBypass_powered hpower).trans (congrArg _ (if_pos (isBypass_iff.mpr hcode)))

end Sys2Proof.Machine
end

section
/-!
SUPPORT. Ethernet ports that come up and restart, and the frames and timers of a Viros lane.
-/
namespace Sys2Proof.Machine

/-! ### Ethernet ports -/

section
variable {g : Nat} {rsFec : Bool} {s : State}

/-- The group is in an Ethernet mode (Table 11-1). -/
def EthMode (g : Nat) (s : State) : Prop := gmode g s ≠ 0 ∧ gmode g s < 6

theorem not_ethMode_iff : ¬EthMode g s ↔ gmode g s = 0 ∨ gmode g s ≥ 6 := by
  unfold EthMode
  omega

theorem ethLinkUp_barred_iff : (gmode g s = 0 || gmode g s ≥ 6 || (portOf g s).ethUp || s.sys.standby || s.sys.exiting) = true ↔
    ¬EthMode g s ∨ (portOf g s).ethUp = true ∨ s.sys.standby = true ∨ s.sys.exiting = true := by
  simp only [not_ethMode_iff, Bool.or_eq_true, decide_eq_true_eq, or_assoc]

theorem ethLinkLoss_barred_iff : (gmode g s = 0 || gmode g s ≥ 6 || !(portOf g s).ethUp) = true ↔
    ¬EthMode g s ∨ (portOf g s).ethUp = false := by
  simp only [not_ethMode_iff, Bool.or_eq_true, decide_eq_true_eq, Bool.not_eq_true']

theorem ethLinkUp_ignored (h : ¬EthMode g s ∨ (portOf g s).ethUp = true ∨ s.sys.standby = true ∨ s.sys.exiting = true) :
    ethLinkUp g rsFec s = s := if_pos (ethLinkUp_barred_iff.mpr h)

/-- The port comes up: its lanes ACTIVE, with the FEC of its mode or of its partner (R269). -/
theorem ethLinkUp_up (hmode : EthMode g s) (hdown : (portOf g s).ethUp = false) (hawake : s.sys.standby = false)
    (hstays : s.sys.exiting = false) : ethLinkUp g rsFec s =
      (let s1 := ethLanes g 4 (onPort g (fun p => { p with ethUp := true, fec := gmode g s ≠ 1 || portIface g s = 0 || rsFec }) s)
       raise .laneUp none (arg0 (8 * g) g 0) 0 { s1 with egr := { s1.egr with short := s1.egr.short.filter (· ≠ g) } }) := by
  refine if_neg (mt ethLinkUp_barred_iff.mp ?_)
  simp [hmode, hdown, hawake, hstays]

theorem ethLinkLoss_ignored (h : ¬EthMode g s ∨ (portOf g s).ethUp = false) : ethLinkLoss g s = s :=
  if_pos (ethLinkLoss_barred_iff.mpr h)

/-- The port restarts: its lanes count it, train or wait for the module, and its mode is advertised again (R269, R278). -/
theorem ethLinkLoss_restarts (hmode : EthMode g s) (hup : (portOf g s).ethUp = true) : ethLinkLoss g s =
    raise .laneRetrain none (arg0 (8 * g) g 0) 0 (advertise g (ethLanes g (if portIface g s ≠ 0 then 3 else 0)
      (onPort g (fun p => { p with ethUp := false, fecRecent := [] })
        ((portLanes g s).foldl (fun s n => bump (.laneRetrain (Fin.ofNat 64 n)) 1 s) s)))) := by
  refine if_neg (mt ethLinkLoss_barred_iff.mp ?_)
  simp [hmode, hup]

end

/-- Settles O33: each command by whether the port is in an Ethernet mode and up. -/
theorem ethernetLink : Obligations.EthernetLink := by
  intro g rsFec s hs
  have hup : exec (.ethLinkUp g rsFec) s = .next (ethLinkUp g.val rsFec s) := act_run hs
  have hloss : exec (.ethLinkLoss g) s = .next (ethLinkLoss g.val s) := act_run hs
  exact ⟨fun hmode hdown hawake hstays => hup.trans (congrArg _ (ethLinkUp_up hmode hdown hawake hstays)),
    fun h => hup.trans (congrArg _ (ethLinkUp_ignored h)),
    fun hmode h => hloss.trans (congrArg _ (ethLinkLoss_restarts hmode h)),
    fun h => hloss.trans (congrArg _ (ethLinkLoss_ignored h))⟩

/-! ### Frames of a Viros lane -/

section
variable {n : Nat} {bs : List Byte} {full : Bool} {q : LowPowerRequest} {s : State}

theorem virosData_ignored (h : isViros n s = false ∨ laneState n s ≠ 4) : virosData n bs full s = s :=
  if_pos (by simpa using h)

theorem virosCtrl_ignored (h : isViros n s = false ∨ laneState n s < 4 ∨ laneState n s = 7) : virosCtrl n bs q s = s :=
  if_pos (by simpa [or_assoc] using h)

/-- What an in-order or out-of-order DATA frame does once its acknowledgement is taken (R277). -/
def dataTaken (n : Nat) (bs : List Byte) (full : Bool) (h : Nat) (s : State) : State :=
  let g := n / 8
  if bitsOf h 59 48 = ((portOf g s).lastGot + 1) % 4096 then
    joinPayload g (bitOf h 34) (bitOf h 33) full ((bs.drop 8).take (bs.length - 12))
      (onPort g (fun p => { p with lastGot := bitsOf h 59 48, naking := false }) s)
  else if (portOf g s).naking then s
  else sendCtrl g true (onPort g (fun p => { p with naking := true }) s)

section
variable (hviros : isViros n s = true) (hactive : laneState n s = 4)
include hviros hactive

/-- A DATA frame that an ACTIVE lane of a Viros port receives, by its header. -/
theorem virosData_active : virosData n bs full s = (linkHeader bs).elim (linkCrcFail n bs s) fun h =>
    if bitsOf h 63 60 ≠ 1 then s else dataTaken n bs full h (takeAck (n / 8) n (bitsOf h 47 36) (bitOf h 35) s) := by
  refine (if_neg (by simp [hviros, hactive])).trans ?_
  cases linkHeader bs with
  | none => rfl
  | some h => rfl

theorem virosCtrl_active : virosCtrl n bs q s = (linkHeader bs).elim (linkCrcFail n bs s) fun h =>
    if bitsOf h 63 60 ≠ 2 then s else partnerLowPower n q (takeAck (n / 8) n (bitsOf h 47 36) (bitOf h 35) s) := by
  refine (if_neg (by simp [hviros, hactive])).trans ?_
  cases linkHeader bs with
  | none => rfl
  | some h => rfl

end

/-- Symbols that hold no frame are received and no more, and so is a frame that is not used. -/
theorem onLine_ignored {line : List Nat} {f : List Byte → State → State} (h : (lineReceive n line s).1 = none ∨
    ∀ bs, f bs (lineReceive n line s).2 = (lineReceive n line s).2) : onLine n line f s = (lineReceive n line s).2 := by
  rw [onLine_eq]
  cases hbytes : (lineReceive n line s).1 with
  | none => rfl
  | some bs => exact h.resolve_left (by simp [hbytes]) bs

theorem onLine_bytes {line : List Nat} {f : List Byte → State → State} (hbytes : (lineReceive n line s).1 = some bs) :
    onLine n line f s = f bs (lineReceive n line s).2 := by
  rw [onLine_eq, hbytes]
  rfl

end

/-! ### The timers of a Viros port -/

/-- A port's unacknowledged frames sent again, counted on lane `l` (R277, R278). -/
def replayed (g : Nat) (l : Fin 64) (s : State) : State :=
  onLane l.val (fun x => { x with replays := s.tick :: (laneOf l.val s).replays.filter fun t => s.tick < t + 400000 })
    ((portOf g s).unacked.foldl (fun s f => sendLink g f s) (bump (.laneReplay l) 1 s))

section
variable {g : Nat} {l : Fin 64} {s : State}

theorem replayTimeout_ignored (h : g ≠ l.val / 8 ∨ isViros l.val s = false ∨ (portOf g s).unacked = []) :
    replayTimeout g l.val s = s := by
  refine if_pos ?_
  simp only [Bool.or_eq_true, decide_eq_true_eq, Bool.not_eq_true']
  tauto

theorem replayTimeout_replays (hport : g = l.val / 8) (hviros : isViros l.val s = true) (hsent : (portOf g s).unacked ≠ []) :
    replayTimeout g l.val s = if 64 < (s.tick :: (laneOf l.val s).replays.filter fun t => s.tick < t + 400000).length then
      retrainLane l.val (replayed g l s) else replayed g l s := by
  refine (if_neg ?_).trans ?_
  · simp [hsent, hviros, ← hport]
  · rw [Fin.ofNat_val_eq_self]
    rfl

end

/-- Settles O32: a frame by what its symbols hold and its header, the timers by the port. -/
theorem virosFrames : Obligations.VirosFrames := by
  intro l line full q s hs
  have hdata : exec (.virosDataFrame l line full) s = .next (onLine l.val line (fun bs s => virosData l.val bs full s) s) := act_run hs
  have hctrl : exec (.virosCtrlFrame l line q) s = .next (onLine l.val line (fun bs s => virosCtrl l.val bs q s) s) := act_run hs
  have hreplay : ∀ g, exec (.virosReplayTimeout g l) s = .next (replayTimeout g.val l.val s) := fun _ => act_run hs
  have hidle : ∀ g, exec (.virosIdleTimer g) s = .next (if gmode g.val s = 6 then sendCtrl g.val false s else s) := fun _ => act_run hs
  refine ⟨fun h => ⟨?_, ?_⟩, fun bytes hbytes hviros hactive => ?_, fun g hg hviros hsent => ?_, fun g h => ?_,
    fun g hg => (hidle g).trans (congrArg _ (if_pos hg)), fun g hg => (hidle g).trans (congrArg _ (if_neg hg))⟩
  · refine hdata.trans (congrArg _ (onLine_ignored (h.imp_right fun h bs => virosData_ignored (h.imp_right ?_))))
    omega
  · exact hctrl.trans (congrArg _ (onLine_ignored (h.imp_right fun h bs => virosCtrl_ignored h)))
  · have hd := hdata.trans (congrArg _ ((onLine_bytes hbytes).trans (virosData_active hviros hactive)))
    have hc := hctrl.trans (congrArg _ ((onLine_bytes hbytes).trans (virosCtrl_active hviros hactive)))
    refine ⟨fun hheader => ?_, fun h hheader => ?_⟩
    · rw [hheader] at hd hc
      exact ⟨hd, hc⟩
    · rw [hheader] at hd hc
      refine ⟨fun hkind hseq => ?_, fun hkind hseq hfirst => ?_, fun hkind hseq hagain => ?_, fun hkind => ?_, fun hkind => ?_, fun hkind => ?_⟩
      · exact hd.trans (congrArg _ ((if_neg (not_not_intro hkind)).trans (if_pos hseq)))
      · exact hd.trans (congrArg _ ((if_neg (not_not_intro hkind)).trans ((if_neg hseq).trans (if_neg (ne_true_of_eq_false hfirst)))))
      · exact hd.trans (congrArg _ ((if_neg (not_not_intro hkind)).trans ((if_neg hseq).trans (if_pos hagain))))
      · exact hd.trans (congrArg _ (if_pos hkind))
      · exact hc.trans (congrArg _ (if_neg (not_not_intro hkind)))
      · exact hc.trans (congrArg _ (if_pos hkind))
  · rw [← hg] at hsent
    refine (hreplay g).trans (congrArg _ ((replayTimeout_replays hg hviros hsent).trans ?_))
    rw [hg]
    rfl
  · exact (hreplay g).trans (congrArg _ (replayTimeout_ignored h))

end Sys2Proof.Machine
end

section
/-!
SUPPORT. A lane's bring-up, state by state, and what entering a state does.
-/
namespace Sys2Proof.Machine

/-! ### Entering a state -/

/-- The state of a lane set, and a Bell lane that is not ACTIVE stopped (R246). -/
def laneMoved (n st : Nat) (s : State) : State :=
  if 64 ≤ n ∧ st ≠ 4 then bellLaneStops (n - 64) (setF fLaneStatusState (laneReg n) st s) else setF fLaneStatusState (laneReg n) st s

/-- The arguments of a lane's event: its number and its group, or 8 for the Bell (R338). -/
def laneWho (n : Nat) : Nat := arg0 (n % 64) (if n < 64 then n / 8 else 8) 0

section
variable {n st : Nat} {s : State}

/-- A lane enters a state: LANE_UP and LANE_DOWN on an entry from another state (R274). -/
theorem laneEnter_eq : laneEnter n st s = if laneState n s = st then laneMoved n st s
    else if st = 4 then raise .laneUp none (laneWho n) 0 (laneMoved n st s)
    else if st = 0 then raise .laneDown none (laneWho n) 0 (laneMoved n st s)
    else laneMoved n st s := by
  simp only [laneEnter, laneMoved, laneWho, Bool.and_eq_true, decide_eq_true_eq]

theorem laneEnter_up (hold : laneState n s ≠ 4) (hst : st = 4) :
    laneEnter n st s = raise .laneUp none (laneWho n) 0 (laneMoved n st s) := by
  subst hst
  rw [laneEnter_eq, if_neg hold, if_pos rfl]

theorem laneEnter_down (hold : laneState n s ≠ 0) (hst : st = 0) :
    laneEnter n st s = raise .laneDown none (laneWho n) 0 (laneMoved n st s) := by
  subst hst
  rw [laneEnter_eq, if_neg hold, if_neg (by decide), if_pos rfl]

theorem laneEnter_silent (h : laneState n s = st ∨ (st ≠ 0 ∧ st ≠ 4)) : laneEnter n st s = laneMoved n st s := by
  rw [laneEnter_eq]
  split_ifs with hsame hup hdown
  · rfl
  · exact absurd hup (h.resolve_left hsame).2
  · exact absurd hdown (h.resolve_left hsame).1
  · rfl

/-- The STATE stored reads back (Table 11-9). -/
theorem laneState_setF (hinv : StateInv s) (hst : st < 8) : laneState n (setF fLaneStatusState (laneReg n) st s) = st :=
  (getF_setF hinv (by decide) (by decide)).trans (Nat.mod_eq_of_lt hst)

end

/-! ### NEG frames -/

section
variable (n : Nat) (f : NegFrame) (s : State)

/-- How many NEG frames in a row match, with this one (R274). -/
def negMatched : Nat :=
  if (laneOf n s).partner = some f ∧ (agreedRate n f s).isSome then (laneOf n s).negGot + 1
  else if (agreedRate n f s).isSome then 1 else 0

/-- How many NEG frames came since the ends agree, with this one. -/
def negAgreed : Nat := if 8 ≤ negMatched n f s ∧ 8 ≤ (laneOf n s).negSent + 1 then (laneOf n s).negAfter + 1 else 0

/-- A NEG frame noted and answered. -/
def negAnswered : State :=
  sendNeg n (onLane n (fun x => { x with negSent := x.negSent + 1, negGot := negMatched n f s, negAfter := negAgreed n f s,
                                         partner := some f, target := (agreedRate n f s).getD 0 }) s)

end

section
variable {n : Nat} {f : NegFrame} {s : State}

theorem negFrame_ignored (h : ¬laneUsed n s = true ∨ laneState n s ≠ 1) : negFrame n f s = s :=
  if_pos (by simpa using h)

theorem negFrame_neg (hused : laneUsed n s = true) (hst : laneState n s = 1) : negFrame n f s =
    if 64 ≤ negAgreed n f s then laneEnter n 2 (setRate n (laneOf n (negAnswered n f s)).target (negAnswered n f s))
    else negAnswered n f s := by
  refine (if_neg (by simp [hused, hst])).trans ?_
  simp only [Bool.and_eq_true, decide_eq_true_eq, ge_iff_le]
  rfl

end

/-! ### TRAIN frames -/

section
variable (n : Nat) (f : TrainFrame) (s : State)

/-- The taps a TRAIN frame's requests start from: the preset's, or the lane's (R275). -/
def trainTaps : List Nat := if f.preset then [0, 4, 8] else (laneOf n s).taps

/-- The pre-cursor 2, pre-cursor 1 and post-cursor taps after a TRAIN frame's requests, each with its status. -/
def trainStepped : (Nat × Nat) × (Nat × Nat) × (Nat × Nat) :=
  (tapStep (if n < 64 ∧ 6 ≤ laneRate n s then 6 else 0) ((trainTaps n f s).getD 0 0) f.pre2,
    tapStep 16 ((trainTaps n f s).getD 1 0) f.pre1, tapStep 24 ((trainTaps n f s).getD 2 0) f.post)

/-- TRAIN frames in a row with both ends READY, with this one. -/
def trainRun : Nat := if f.ready = true ∧ f.ownReady = true then (laneOf n s).readyRun + 1 else 0

/-- A tap request as it stands in a TRAIN frame (log 92). -/
def requestCode (r : TapRequest) : Nat := match r with | .hold => 0 | .inc => 1 | .dec => 2

/-- A TRAIN frame's requests applied and answered. -/
def trainAnswered : State :=
  let t := trainStepped n f s
  linkSend n 1 (linkFrame 3 0 0 false false false
    (beBytes 1 (requestCode f.ownPre2 * 16 + requestCode f.ownPre1 * 4 + requestCode f.ownPost) ++
      beBytes 1 ((if f.ownPreset then 2 else 0) + (if f.ownReady then 1 else 0)) ++ beBytes 1 (t.1.2 * 16 + t.2.1.2 * 4 + t.2.2.2)))
    (onLane n (fun x => { x with taps := [t.1.1, t.2.1.1, t.2.2.1], readyRun := trainRun n f s }) s)

end

section
variable {n : Nat} {f : TrainFrame} {s : State}

theorem trainFrame_ignored (h : ¬laneUsed n s = true ∨ laneState n s ≠ 3) : trainFrame n f s = s :=
  if_pos (by simpa using h)

theorem trainFrame_train (hused : laneUsed n s = true) (hst : laneState n s = 3) : trainFrame n f s =
    if 64 ≤ trainRun n f s then laneEnter n (if (laneOf n (trainAnswered n f s)).asleep.tx = true ∨
      (laneOf n (trainAnswered n f s)).asleep.rx = true then 5 else 4) (trainAnswered n f s) else trainAnswered n f s := by
  refine (if_neg (by simp [hused, hst])).trans ?_
  simp only [Bool.and_eq_true, Bool.or_eq_true, decide_eq_true_eq, ge_iff_le]
  rfl

end

/-! ### Marker lock and time limits -/

section
variable {n : Nat} {s : State}

theorem markerLock_unused (h : ¬laneUsed n s = true) : markerLock n s = s := if_pos (by simpa using h)

theorem markerLock_other (h0 : laneState n s ≠ 0) (h2 : laneState n s ≠ 2) : markerLock n s = s := by
  unfold markerLock
  split
  · rfl
  · split
    · exact absurd ‹_› h0
    · exact absurd ‹_› h2
    · rfl

theorem stateTimeout_unused (h : ¬laneUsed n s = true) : stateTimeout n s = s := if_pos (by simpa using h)

theorem stateTimeout_other (h1 : laneState n s ≠ 1) (h2 : laneState n s ≠ 2) (h3 : laneState n s ≠ 3) : stateTimeout n s = s := by
  unfold stateTimeout
  split
  · rfl
  · split
    · exact absurd ‹_› h1
    · exact absurd ‹_› h2
    · exact absurd ‹_› h3
    · rfl

variable (hused : laneUsed n s = true)
include hused

theorem markerLock_down (hst : laneState n s = 0) : markerLock n s =
    laneEnter n 1 (onLane n (fun x => { x with negSent := 0, negGot := 0, negAfter := 0, partner := none }) s) := by
  rw [markerLock, hused, hst]
  simp only [Bool.not_true, Bool.false_eq_true, if_false]

theorem markerLock_step (hst : laneState n s = 2) : markerLock n s =
    laneEnter n 3 (onLane n (fun x => { x with readyRun := 0, taps := [0, 4, 8] }) s) := by
  rw [markerLock, hused, hst]
  simp only [Bool.not_true, Bool.false_eq_true, if_false]

/-- NEG and STEP fall back to DOWN at the lowest rate (R274). -/
theorem stateTimeout_negOrStep (hst : laneState n s = 1 ∨ laneState n s = 2) : stateTimeout n s = laneEnter n 0 (setRate n 0 s) := by
  rcases hst with hst | hst
  · rw [stateTimeout, hused, hst]
    simp only [Bool.not_true, Bool.false_eq_true, if_false]
  · rw [stateTimeout, hused, hst]
    simp only [Bool.not_true, Bool.false_eq_true, if_false]

theorem stateTimeout_train (hst : laneState n s = 3) : stateTimeout n s =
    if n < 64 ∧ 0 < laneRate n s then laneEnter n 2 (setRate n (laneRate n s - 1) s) else laneEnter n 0 (setRate n 0 s) := by
  rw [stateTimeout, hused, hst]
  simp only [Bool.not_true, Bool.false_eq_true, if_false, Bool.and_eq_true, decide_eq_true_eq, gt_iff_lt]

end

/-- LANE_NEG_TIMER: a lane in use that is DOWN sends NEG at the lowest rate (R274). -/
theorem exec_laneNegTimer {lane : Lane} {s : State} (hs : Runs s) : exec (.laneNegTimer lane) s =
    .next (if laneUsed (laneNo lane) s = true ∧ laneState (laneNo lane) s = 0 then sendNeg (laneNo lane) (setRate (laneNo lane) 0 s) else s) := by
  change execLaneNegTimer lane s = _
  rw [execLaneNegTimer, act_run hs]
  simp only [Bool.and_eq_true, decide_eq_true_eq]

/-- Settles O30: each command by the state of the lane, and entering a state by the one before. -/
theorem laneBringUp : Obligations.LaneBringUp := by
  refine ⟨fun lane f t s hs => ?_, fun n st s hinv hst => ⟨laneState_setF hinv hst, laneEnter_up, laneEnter_down, laneEnter_silent⟩⟩
  have hneg : exec (.virosNegFrame lane f) s = .next (negFrame (laneNo lane) f s) := act_run hs
  have htrain : exec (.virosTrainFrame lane t) s = .next (trainFrame (laneNo lane) t s) := act_run hs
  have hlock : exec (.laneMarkerLock lane) s = .next (markerLock (laneNo lane) s) := act_run hs
  have hlimit : exec (.laneStateTimeout lane) s = .next (stateTimeout (laneNo lane) s) := act_run hs
  have htimer := exec_laneNegTimer (lane := lane) hs
  refine ⟨fun hused hst => ?_, fun hused hst => ?_, fun hused hst => ?_, fun hused hst => ?_, fun hused hst => ?_, fun hused hst => ?_,
    fun hused hst hdata hrate => ?_, fun hused hst hlow => ?_, fun h => ?_, fun h => ?_, fun h => ?_, fun h => ?_, fun h => ?_⟩
  · exact htimer.trans (congrArg _ (if_pos ⟨hused, hst⟩))
  · exact hlock.trans (congrArg _ (markerLock_down hused hst))
  · exact hlock.trans (congrArg _ (markerLock_step hused hst))
  · exact hneg.trans (congrArg _ (negFrame_neg hused hst))
  · exact htrain.trans (congrArg _ (trainFrame_train hused hst))
  · exact hlimit.trans (congrArg _ (stateTimeout_negOrStep hused hst))
  · exact hlimit.trans (congrArg _ ((stateTimeout_train hused hst).trans (if_pos ⟨hdata, hrate⟩)))
  · exact hlimit.trans (congrArg _ ((stateTimeout_train hused hst).trans (if_neg (by omega))))
  · exact htimer.trans (congrArg _ (if_neg (by tauto)))
  · refine hlock.trans (congrArg _ ?_)
    exact h.elim markerLock_unused fun hst => markerLock_other hst.1 hst.2
  · exact hneg.trans (congrArg _ (negFrame_ignored h))
  · exact htrain.trans (congrArg _ (trainFrame_ignored h))
  · refine hlimit.trans (congrArg _ ?_)
    exact h.elim stateTimeout_unused fun hst => stateTimeout_other hst.1 hst.2.1 hst.2.2

end Sys2Proof.Machine
end

section
/-!
SUPPORT. Writes of group, lane and Bell lane configurations.
-/
namespace Sys2Proof.Machine

/-! ### The lanes of a group -/

theorem laneReg_val (l : Fin 64) : laneReg l.val = .laneStatus l := by
  rw [laneReg, if_pos l.isLt, Fin.ofNat_val_eq_self]

theorem laneReg_offset {n : Nat} (h : n < 64) : (laneReg n).offset = 0xC1200 + 8 * n := by
  rw [laneReg_val ⟨n, h⟩]
  rfl

/-- A lane as a new group configuration leaves it. -/
def laneCleared (n : Nat) (s : State) : State := setReg (laneReg n) 0 (onLane n (fun _ => LaneSt.idle) s)

/-- Lanes of group `g`, by their numbers in it, cleared in turn. -/
def lanesCleared (g : Nat) (l : List Nat) (s : State) : State := l.foldl (fun s i => laneCleared (8 * g + i) s) s

theorem lanesCleared_concat {g i : Nat} {l : List Nat} {s : State} :
    lanesCleared g (l ++ [i]) s = laneCleared (8 * g + i) (lanesCleared g l s) := by
  rw [lanesCleared, List.foldl_concat]
  rfl

theorem lanesCleared_inv {κ : List Instr × Fuses} {g : Nat} {l : List Nat} {s : State} (h : Kept κ s) : Kept κ (lanesCleared g l s) :=
  Kept.foldl (fun _ _ h => setReg_inv (onLane_inv h)) h

/-- Clearing lanes changes nothing but registers and lanes. -/
theorem lanesCleared_frame (g : Nat) (l : List Nat) (s : State) :
    ∃ regs lanes, lanesCleared g l s = { s with regs := regs, lanes := lanes } := by
  induction l using List.reverseRecOn with
  | nil => exact ⟨_, _, rfl⟩
  | append_singleton l i ih =>
    obtain ⟨regs, lanes, h⟩ := ih
    rw [lanesCleared_concat, h]
    exact ⟨_, _, rfl⟩

/-- The status of each lane that is cleared reads 0. -/
theorem regOf_lanesCleared {g i : Nat} {l : List Nat} {s : State} (hinv : StateInv s) (hl : ∀ j ∈ l, 8 * g + j < 64) (hi : i ∈ l) :
    regOf (laneReg (8 * g + i)) (lanesCleared g l s) = 0 := by
  induction l using List.reverseRecOn with
  | nil => exact absurd hi List.not_mem_nil
  | append_singleton l j ih =>
    obtain ⟨hl', hj⟩ := List.forall_mem_append.mp hl
    have hjlt : 8 * g + j < 64 := hj j (List.mem_singleton_self j)
    rw [lanesCleared_concat, laneCleared]
    by_cases hij : i = j
    · subst hij
      exact regOf_setReg (onLane_inv (lanesCleared_inv (Kept.self hinv))).inv
    · have hil : i ∈ l := (List.mem_append.mp hi).resolve_right fun h => hij (List.mem_singleton.mp h)
      have hoffset : (laneReg (8 * g + i)).offset ≠ (laneReg (8 * g + j)).offset := by
        rw [laneReg_offset (hl' i hil), laneReg_offset hjlt]
        omega
      rw [regOf_setReg_other hoffset, regOf_congr (onLane_regs _ _ _)]
      exact ih hl' hil

/-! ### A group configuration -/

/-- What an advertisement changes is what leaves the device. -/
theorem advertise_frame (g : Nat) (s : State) : advertise g s = { s with out := (advertise g s).out } := by
  unfold advertise
  split <;> rfl

/-- A group configuration stored: its lanes cleared, its port begun again (R271). -/
def groupStored (g : Fin 8) (v : Payload) (s : State) : State :=
  setReg (.laneGroupCfg g) (v &&& 0x1FF) (onPort g.val (fun _ => { PortSt.idle with
    mac := (portOf g.val s).mac, ip4 := (portOf g.val s).ip4, ip6 := (portOf g.val s).ip6 }) (lanesCleared g.val (List.range 8) s))

/-- A group configuration stored and advertised, with the port no longer short of capacity. -/
def groupApplied (g : Fin 8) (v : Payload) (s : State) : State :=
  advertise g.val { groupStored g v s with egr := { (groupStored g v s).egr with
    short := (groupStored g v s).egr.short.filter (· ≠ g.val) } }

section
variable {g : Fin 8} {v : Payload} {s : State}

theorem laneGroupCfgWrite_applied (h : groupRefused v = false) :
    laneGroupCfgWrite g.val v s = raise .laneDown none (arg0 (8 * g.val) g.val 0) 0 (groupApplied g v s) := by
  refine (if_neg (ne_true_of_eq_false h)).trans ?_
  rw [Fin.ofNat_val_eq_self]
  rfl

theorem groupApplied_regs : (groupApplied g v s).regs = (groupStored g v s).regs := by
  rw [groupApplied, advertise_frame]

theorem regOf_groupApplied (hinv : StateInv s) : regOf (.laneGroupCfg g) (groupApplied g v s) = v &&& 0x1FF :=
  (regOf_congr groupApplied_regs).trans (regOf_setReg (onPort_inv (lanesCleared_inv (Kept.self hinv))).inv)

/-- Each lane of the group is DOWN. -/
theorem laneState_groupApplied (hinv : StateInv s) (l : Fin 64) (hl : l.val / 8 = g.val) : laneState l.val (groupApplied g v s) = 0 := by
  have hlane : l.val = 8 * g.val + l.val % 8 := by omega
  have hoffset : (laneReg l.val).offset ≠ (Reg.laneGroupCfg g).offset := by
    have hgroup : (Reg.laneGroupCfg g).offset = 0xC0040 + 8 * g.val := rfl
    rw [laneReg_offset l.isLt, hgroup]
    omega
  have hclear : regOf (laneReg l.val) (lanesCleared g.val (List.range 8) s) = 0 := by
    rw [hlane]
    exact regOf_lanesCleared hinv (fun j hj => by have := List.mem_range.mp hj; omega) (List.mem_range.mpr (by omega))
  rw [laneState, getF, regOf_congr groupApplied_regs, groupStored, regOf_setReg_other hoffset, regOf_congr (onPort_regs _ _ _), hclear]
  rfl

theorem groupApplied_frame : groupApplied g v s = { s with
    regs := (groupApplied g v s).regs, lanes := (groupApplied g v s).lanes,
    out := (groupApplied g v s).out, egr := { s.egr with short := s.egr.short.filter (· ≠ g.val) } } := by
  obtain ⟨regs, lanes, h⟩ := lanesCleared_frame g.val (List.range 8) s
  rw [groupApplied, advertise_frame, groupStored, h]
  rfl

end

/-! ### A lane configuration -/

section
variable (l : Fin 64) (v : Payload) (s : State)

/-- What a lane configuration stores: without low power its requests keep their values (R280). -/
def laneCfgKept : Payload :=
  if lowPowerOk l.val s = true then v &&& 0xFFF8
  else setFld fLaneCfgTxSleep (fld fLaneCfgTxSleep (regOf (.laneCfg l) s)) (setFld fLaneCfgRxSleep (fld fLaneCfgRxSleep (regOf (.laneCfg l) s))
    (setFld fLaneCfgEidle (fld fLaneCfgEidle (regOf (.laneCfg l) s)) (v &&& 0xFFF8)))

/-- A lane configuration stored, and a low-power request that cannot be met reported. -/
def laneCfgStored : State :=
  let t := setReg (.laneCfg l) (laneCfgKept l v s) s
  if (fld fLaneCfgTxSleep v = 1 ∨ fld fLaneCfgRxSleep v = 1 ∨ fld fLaneCfgEidle v = 1) ∧ lowPowerOk l.val s = false then
    raise .laneCfgRefused none (arg0 l.val (l.val / 8) 0) 0 t
  else t

/-- The low-power states a lane configuration asks for. -/
def laneCfgKeeps : LowPower := ⟨fld fLaneCfgTxSleep v = 1, fld fLaneCfgRxSleep v = 1, fld fLaneCfgEidle v = 1⟩

/-- The low-power states left that are no longer asked for, and those asked for wanted (R280). -/
def laneCfgSettled (t : State) : State :=
  let keep := laneCfgKeeps v
  settleLowPower (l.val / 8) (onLane l.val (fun x => { x with
    wants := ⟨keep.tx && !x.asleep.tx, keep.rx && !x.asleep.rx, keep.eidle && !x.asleep.eidle⟩ }) (exitLowPower l.val keep t))

/-- A lane configuration once stored, by the loopback it asks for and the state of the lane (R281). -/
theorem laneCfgWrite_eq : laneCfgWrite l.val v s =
    if fld fLaneCfgLoop (laneCfgKept l v s) ≠ 0 then setF fLaneStatusState (.laneStatus l) 7 (laneCfgStored l v s)
    else if laneState l.val (laneCfgStored l v s) = 7 then
      if (portOf (l.val / 8) (laneCfgStored l v s)).ethUp = true then setF fLaneStatusState (.laneStatus l) 4 (laneCfgStored l v s)
      else laneEnter l.val 0 (laneCfgStored l v s)
    else if lowPowerOk l.val s = false then laneCfgStored l v s
    else laneCfgSettled l v (laneCfgStored l v s) := by
  simp only [laneCfgWrite, Fin.ofNat_val_eq_self, laneReg_val, Bool.and_eq_true, Bool.or_eq_true, decide_eq_true_eq, Bool.not_eq_true',
    or_assoc]
  rfl

end

/-- Settles O31: a group's and a lane's configuration by what is stored, a Bell lane's as it is written. -/
theorem laneConfiguration : Obligations.LaneConfiguration := by
  refine ⟨fun m g value s hs => ?_, fun m l value s hs => ?_⟩
  · have hexec : exec (.laneGroupCfgWrite m g value) s = .next (laneGroupCfgWrite g.val value (accessed m s)) := actBy_accepts hs
    exact ⟨fun hbad => hexec.trans (congrArg _ (if_pos hbad)), fun hok hinv => ⟨groupApplied g value (accessed m s),
      hexec.trans (congrArg _ (laneGroupCfgWrite_applied hok)), regOf_groupApplied hinv, laneState_groupApplied hinv, groupApplied_frame⟩⟩
  · have hexec : exec (.laneCfgWrite m l value) s = .next (laneCfgWrite l.val value (accessed m s)) := actBy_accepts hs
    rw [laneCfgWrite_eq] at hexec
    refine ⟨fun hloop => ?_, fun hloop hst hup => ?_, fun hloop hst hdown => ?_, fun hloop hst hok => ?_, fun hloop hst hok => ?_,
      actBy_accepts hs⟩
    · exact hexec.trans (congrArg _ (if_pos hloop))
    · exact hexec.trans (congrArg _ ((if_neg (not_not_intro hloop)).trans ((if_pos hst).trans (if_pos hup))))
    · exact hexec.trans (congrArg _ ((if_neg (not_not_intro hloop)).trans ((if_pos hst).trans (if_neg (ne_true_of_eq_false hdown)))))
    · exact hexec.trans (congrArg _ ((if_neg (not_not_intro hloop)).trans ((if_neg hst).trans (if_pos hok))))
    · exact hexec.trans (congrArg _ ((if_neg (not_not_intro hloop)).trans ((if_neg hst).trans (if_neg (ne_false_of_eq_true hok)))))

end Sys2Proof.Machine
end

section
/-!
SUPPORT. A ring's registers, the poll of the doorbells, and the fetch of a descriptor.
-/
namespace Sys2Proof.Machine

/-! ### A ring's registers -/

section
variable {n : Fin 16384} {v : Payload} {s : State}

/-- The writable bits of HIF_RING_n_CFG in a value written (Table 12-4). -/
def ringCfgBits (v : Payload) : Payload := v &&& BitVec.ofNat 48 0xFFFFFFFFFF80

/-- HIF_RING_n_CFG written while EN is 1: a change of another field is refused, and EN = 0 disables the ring (R290). -/
theorem ringCfgWrite_enabled (hen : fld fRingCfgEn (regOf (.ringCfg n) s) = 1) : ringCfgWrite n v s =
    let t := if setFld fRingCfgEn 1 (ringCfgBits v) = regOf (.ringCfg n) s then s else ringRefused n s
    if fld fRingCfgEn (ringCfgBits v) = 1 then t else setF fRingCfgEn (.ringCfg n) 0 t := if_pos hen

theorem ringCfgWrite_disabled (hen : fld fRingCfgEn (regOf (.ringCfg n) s) = 0) : ringCfgWrite n v s =
    if fld fRingCfgEn (ringCfgBits v) = 1 ∧ ringEnableBad (ringCfgBits v) s = true then
      ringRefused n (setReg (.ringCfg n) (setFld fRingCfgEn 0 (ringCfgBits v)) s)
    else setReg (.ringCfg n) (ringCfgBits v) s := by
  refine (if_neg (by rw [hen]; decide)).trans ?_
  simp only [Bool.and_eq_true, decide_eq_true_eq]
  rfl

theorem ringWrite_base_enabled (hen : ringF fRingCfgEn n s = 1) : ringWrite n .base v s = ringRefused n s := if_pos hen

theorem ringWrite_idx_enabled (hen : ringF fRingCfgEn n s = 1) : ringWrite n .idx v s = ringRefused n s := if_pos hen

theorem ringWrite_base_disabled (hen : ringF fRingCfgEn n s = 0) : ringWrite n .base v s = setReg (.ringBase n) v s :=
  if_neg (by rw [hen]; decide)

/-- IDX written sets the device's index and the other side's alike (log 98). -/
theorem ringWrite_idx_disabled (hen : ringF fRingCfgEn n s = 0) : ringWrite n .idx v s =
    setRingCtx n.val { ringCtx n.val s with prod := fld fRingIdxIdx v, cons := fld fRingIdxIdx v }
      (setF fRingIdxIdx (.ringIdx n) (fld fRingIdxIdx v) s) :=
  if_neg (by rw [hen]; decide)

end

/-! ### Polling -/

section
variable {s : State}

theorem mayPoll_iff : mayPoll s = true ↔
    bootStage s = 4 ∧ s.sys.reeveRuns = true ∧ hostOpen s = true ∧ (getF fHifPollEn .hifPoll s = 1 ∨ s.hif.nudge = true) := by
  simp only [mayPoll, Bool.and_eq_true, Bool.or_eq_true, decide_eq_true_eq, and_assoc]

theorem pollTick_waits (h : mayPoll s = false) : pollTick s = s := if_pos (by rw [h]; rfl)

/-- A poll that may run reads the doorbells of every enabled ring, or of those the bitmap names (R294). -/
theorem pollTick_polls (h : mayPoll s = true) : pollTick s =
    let t := { s with hif := { s.hif with nudge := false } }
    if getF fHifPollScan .hifPoll s = 1 then (enabledRings t).foldl (fun u n => takeDoorbell n u) t
    else (summaryRings t).foldl (fun u n => takeDoorbell n u) (clearSummary t) := if_neg (by rw [h]; decide)

end

/-- Settles O42: each register of a ring by EN, the poll by whether it may run and its mode. -/
theorem rings : Obligations.Rings := by
  refine ⟨fun m n v s hs => ?_, fun m v s hs => ?_⟩
  · have hexec : ∀ which, exec (.hifRingCfgWrite m n which v) s = .next (ringWrite n which v (accessed m s)) := fun _ => actBy_accepts hs
    have hcfg : exec (.hifRingCfgWrite m n .cfg v) s = .next (ringCfgWrite n v (accessed m s)) := hexec .cfg
    refine ⟨fun hen => ?_, fun hen hon hdiff => ?_, fun hen hon hsame => ?_, fun hen hoff => ?_, fun hen hok => ?_, fun hen hon hbad => ?_,
      fun hen => ?_⟩
    · exact ⟨(hexec .base).trans (congrArg _ (ringWrite_base_enabled hen)), (hexec .idx).trans (congrArg _ (ringWrite_idx_enabled hen))⟩
    · exact hcfg.trans (congrArg _ ((ringCfgWrite_enabled hen).trans ((if_pos hon).trans (if_neg hdiff))))
    · exact hcfg.trans (congrArg _ ((ringCfgWrite_enabled hen).trans ((if_pos hon).trans (if_pos hsame))))
    · exact hcfg.trans (congrArg _ ((ringCfgWrite_enabled hen).trans (if_neg fun hon => absurd (hon.symm.trans hoff) (by decide))))
    · exact hcfg.trans (congrArg _ ((ringCfgWrite_disabled hen).trans (if_neg hok)))
    · exact hcfg.trans (congrArg _ ((ringCfgWrite_disabled hen).trans (if_pos ⟨hon, hbad⟩)))
    · exact ⟨(hexec .base).trans (congrArg _ (ringWrite_base_disabled hen)), (hexec .idx).trans (congrArg _ (ringWrite_idx_disabled hen))⟩
  · have hpoll : exec .hifPollTick s = .next (pollTick s) := act_run hs
    refine ⟨fun h => ?_, fun h hscan => ?_, fun h hsummary => ?_, fun hb => actBy_accepts ⟨hs, hb⟩, mayPoll_iff⟩
    · exact hpoll.trans (congrArg _ (pollTick_waits h))
    · exact hpoll.trans (congrArg _ ((pollTick_polls h).trans (if_pos hscan)))
    · exact hpoll.trans (congrArg _ ((pollTick_polls h).trans (if_neg (by rw [hsummary]; decide))))

/-! ### The fetch of a descriptor -/

section
variable (n : Fin 16384) (s : State)

/-- The completion ring of a SUB ring. -/
def cplOf : Nat := ringF fRingCfgCplRing n s

/-- The eight qwords at the ring's next place. -/
def fetchedWords : List Nat := (List.range 8).map fun i => leAt (hostRead (ringAddr n (ringIdx n s) s) 64 s) (8 * i) 8

/-- The descriptor at the ring's next place (R297). -/
def fetchedDesc : Desc := ⟨n.val, cplOf n s, bitsOf ((fetchedWords n s).getD 0 0) 32 16, fetchedWords n s, false, false⟩

/-- A fetch begun: the completion entry reserved, the round robin and IDX moved on (R298, R299, R306). -/
def fetchBegun : State :=
  let r := setRingCtx (cplOf n s) { ringCtx (cplOf n s) s with reserved := (ringCtx (cplOf n s) s).reserved + 1 } s
  setF fRingIdxIdx (.ringIdx n) (ringIdx n s + 1) { r with hif := { r.hif with robin := (n.val + 1) % 16384 } }

/-- A fetched descriptor completed at once with `status`, its tag's record as it was (R298). -/
def fetchRefused (d : Desc) (status : Nat) (t : State) : State :=
  setTagRec d.tag (tagRec d.tag t) (writeCompletion d status 0 0 (releaseCpl d.cpl t))

end

section
variable {n : Fin 16384} {s : State} (hboot : bootStage s = 4) (hreeve : s.sys.reeveRuns = true) (hopen : hostOpen s = true)
variable (hspace : s.hif.inflight.length < 131072) (hturn : nextRing s = some n)
include hboot hreeve hopen hspace hturn

/-- A fetch that may run: a descriptor that could not be read fails under a free tag, one whose tag is in flight is refused, and any other
takes flight (R298, R299, log 17). -/
theorem descFetch_runs (readOk : Bool) : descFetch n readOk s =
    let t := fetchBegun n s
    if readOk then
      if s.hif.inflight.any (·.tag = (fetchedDesc n s).tag) then fetchRefused (fetchedDesc n s) (busyStatus (fetchedDesc n s)) t
      else setTagRec (fetchedDesc n s).tag ⟨true, 0, (fetchedDesc n s).opcode, false⟩
        { t with hif := { t.hif with inflight := t.hif.inflight ++ [fetchedDesc n s] } }
    else fetchRefused ⟨n.val, cplOf n s, Config.freeValue t.free % 131072, List.replicate 8 0, false, false⟩ 0x50
      { t with free := t.free + 1 } := by
  refine (if_neg ?_).trans ?_
  · simp [hboot, hreeve, hopen, hspace, hturn]
  · cases readOk <;> rfl

end

/-- A tag of a descriptor in flight, as the fetch tests it. -/
theorem any_tag_iff {l : List Desc} {k : Nat} : l.any (·.tag = k) = true ↔ ∃ e ∈ l, e.tag = k := by
  simp only [List.any_eq_true, decide_eq_true_eq]

/-- Settles O44: a fetch by whether the descriptor could be read and whether its tag is in flight. -/
theorem descriptorFetch : Obligations.DescriptorFetch := by
  intro n s hs hboot hreeve hopen hspace hturn
  have hexec : ∀ ok, exec (.descFetch n ok) s = .next (descFetch n ok s) := fun _ => act_run hs
  have hruns := descFetch_runs hboot hreeve hopen hspace hturn
  refine ⟨fun hfree => ?_, fun hbusy => ?_, fun hdefined hrsvd => ?_, ⟨_, (hexec false).trans (congrArg _ (hruns false)), rfl⟩⟩
  · exact (hexec true).trans (congrArg _ ((hruns true).trans (if_neg fun h => (any_tag_iff.mp h).elim fun e he => hfree e he.1 he.2)))
  · exact (hexec true).trans (congrArg _ ((hruns true).trans (if_pos (any_tag_iff.mpr hbusy))))
  · rw [busyStatus, hdefined, hrsvd]
    rfl

end Sys2Proof.Machine
end

section
/-!
SUPPORT. Saturation and flags of the Steward's results, for a register of any width.
-/
namespace Sys2Proof.Machine

/-! ### What a register of `k + 1` bits keeps of an integer -/

section
variable {k : Nat} {sat : Bool} {e : Int}

/-- The signed value a register of `n` bits holds of an exact result: the nearer limit under S, the low bits without. -/
def storedInt (n : Nat) (sat : Bool) (e : Int) : Int := (if sat then saturate n e else e).bmod (2 ^ n)

/-- An exact result lies outside the range of `n` bits. -/
def misfits (n : Nat) (e : Int) : Bool := e > 2 ^ (n - 1) - 1 || e < -(2 ^ (n - 1))

theorem signedOf_eq_toInt (m : Nat) : signedOf (k + 1) m = (BitVec.ofNat (k + 1) m).toInt := by
  have hhalf : 2 * (m % 2 ^ (k + 1)) < 2 ^ (k + 1) ↔ m % 2 ^ (k + 1) < 2 ^ k := by omega
  rw [signedOf, BitVec.toInt_eq_toNat_cond, BitVec.toNat_ofNat, if_congr hhalf rfl rfl]
  norm_cast

theorem signedOf_toNat (x : BitVec (k + 1)) : signedOf (k + 1) x.toNat = x.toInt := by
  rw [signedOf_eq_toInt, BitVec.ofNat_toNat, BitVec.setWidth_eq]

theorem ofNat_unsignedOf (n : Nat) (e : Int) : BitVec.ofNat n (unsignedOf n e) = BitVec.ofInt n e := by
  have hpos : (0 : Int) < 2 ^ n := by positivity
  have hlt : unsignedOf n e < 2 ^ n := by
    rw [unsignedOf, Int.toNat_lt (Int.emod_nonneg e hpos.ne')]
    exact_mod_cast Int.emod_lt_of_pos e hpos
  refine BitVec.eq_of_toNat_eq ?_
  rw [BitVec.toNat_ofNat, Nat.mod_eq_of_lt hlt, BitVec.toNat_ofInt, unsignedOf]
  norm_cast

theorem signedOf_unsignedOf_bmod : signedOf (k + 1) (unsignedOf (k + 1) e) = e.bmod (2 ^ (k + 1)) := by
  rw [signedOf_eq_toInt, ofNat_unsignedOf, BitVec.toInt_ofInt]

theorem bmod_of_fits (hlo : -(2 ^ k) ≤ e) (hhi : e ≤ 2 ^ k - 1) : e.bmod (2 ^ (k + 1)) = e :=
  Int.bmod_eq_of_le_mul_two (by push_cast; omega) (by push_cast; omega)

theorem saturate_range : -(2 ^ k) ≤ saturate (k + 1) e ∧ saturate (k + 1) e ≤ 2 ^ k - 1 := by
  have : (0 : Int) < 2 ^ k := by positivity
  simp only [saturate, Nat.add_sub_cancel]
  split_ifs <;> omega

theorem storedInt_saturated : storedInt (k + 1) true e = saturate (k + 1) e :=
  bmod_of_fits saturate_range.1 saturate_range.2

theorem storedInt_of_fits (hlo : -(2 ^ k) ≤ e) (hhi : e ≤ 2 ^ k - 1) : storedInt (k + 1) sat e = e := by
  have hsat : saturate (k + 1) e = e := by
    simp only [saturate, Nat.add_sub_cancel]
    rw [if_neg (by omega), if_neg (by omega)]
  rw [storedInt, hsat, ite_self, bmod_of_fits hlo hhi]

theorem storedInt_above (h : 2 ^ k - 1 < e) : storedInt (k + 1) true e = 2 ^ k - 1 :=
  storedInt_saturated.trans (if_pos h)

theorem storedInt_below (h : e < -(2 ^ k)) : storedInt (k + 1) true e = -(2 ^ k) := by
  have : (0 : Int) < 2 ^ k := by positivity
  exact storedInt_saturated.trans ((if_neg (by simp only [Nat.add_sub_cancel]; omega)).trans (if_pos h))

theorem storedInt_wraps (n : Nat) : (storedInt n false e - e) % 2 ^ n = 0 := by
  have hmod : (e.bmod (2 ^ n) - e) % ((2 ^ n : Nat) : Int) = 0 := 
    Int.emod_eq_emod_iff_emod_sub_eq_zero.mp Int.bmod_emod
  exact_mod_cast hmod

/-- What S, V and SS say of a stored result (R342). -/
def SaturationRule (n : Nat) (sat : Bool) (e v : Int) (ov ss before : Bool) : Prop :=
  (-(2 ^ (n - 1)) ≤ e → e ≤ 2 ^ (n - 1) - 1 → v = e ∧ ov = false ∧ ss = before) ∧
  (2 ^ (n - 1) - 1 < e → sat = true → v = 2 ^ (n - 1) - 1 ∧ ov = true ∧ ss = true) ∧
  (e < -(2 ^ (n - 1)) → sat = true → v = -(2 ^ (n - 1)) ∧ ov = true ∧ ss = true) ∧
  (e < -(2 ^ (n - 1)) ∨ 2 ^ (n - 1) - 1 < e → sat = false → (v - e) % 2 ^ n = 0 ∧ ov = true ∧ ss = before)

theorem saturationRule_storedInt (before : Bool) :
    SaturationRule (k + 1) sat e (storedInt (k + 1) sat e) (misfits (k + 1) e) (before || (sat && misfits (k + 1) e)) before := by
  have habove : 2 ^ k - 1 < e → misfits (k + 1) e = true := fun h => by simp [misfits, h]
  have hbelow : e < -(2 ^ k) → misfits (k + 1) e = true := fun h => by simp [misfits, h]
  refine ⟨fun hlo hhi => ?_, ?_, ?_, ?_⟩
  · have hfits : misfits (k + 1) e = false := by
      simp only [misfits, Nat.add_sub_cancel, Bool.or_eq_false_iff, decide_eq_false_iff_not] at *
      omega
    exact ⟨storedInt_of_fits hlo hhi, hfits, by rw [hfits, Bool.and_false, Bool.or_false]⟩
  · rintro h rfl
    exact ⟨storedInt_above h, habove h, by rw [habove h]; exact Bool.or_true _⟩
  · rintro h rfl
    exact ⟨storedInt_below h, hbelow h, by rw [hbelow h]; exact Bool.or_true _⟩
  · rintro h rfl
    exact ⟨storedInt_wraps _, h.elim hbelow habove, Bool.or_false _⟩

end

/-! ### A result for a D register -/

section
variable {sat : Bool} {d : Nat} {e : Int} {c : Option Bool} {x : Core}

theorem bitOf_sign (v : W24) : bitOf v.toNat 23 = decide (v.toInt < 0) := by
  rw [← BitVec.msb_eq_toInt, BitVec.msb_eq_decide, bitOf, bitsOf]
  have := v.isLt
  exact decide_eq_decide.mpr (by omega)

theorem put_eq : x.put sat d e c =
    let v := BitVec.ofInt 24 (if sat then saturate 24 e else e)
    { x.setReg d v with
      sr := { x.sr with z := v = 0, n := bitOf v.toNat 23, v := misfits 24 e, ss := x.sr.ss || (sat && misfits 24 e), c := c.getD x.sr.c } } := by
  cases c <;> simp only [Core.put, fit24, ofNat_unsignedOf, StwSr.zn, StwSr.vss, StwSr.carry, misfits, Option.getD]

theorem reg_setReg_same {v : W24} (h : d < x.d.length) : (x.setReg d v).reg d = v := by
  simp [Core.reg, Core.setReg, List.getD_eq_getElem?_getD, h]

theorem reg_setReg_other {i : Nat} {v : W24} (h : i ≠ d) : (x.setReg d v).reg i = x.reg i := by
  simp [Core.reg, Core.setReg, List.getD_eq_getElem?_getD, List.getElem?_set_ne h.symm]

/-- What a D register takes of an exact result, with the flags (R342, R343). -/
theorem put_rule (hd : d < x.d.length) :
    let y := x.put sat d e c
    let v := signedOf 24 (y.reg d).toNat
    SaturationRule 24 sat e v y.sr.v y.sr.ss x.sr.ss ∧
    (y.sr.z = true ↔ v = 0) ∧ (y.sr.n = true ↔ v < 0) ∧ y.sr.c = c.getD x.sr.c ∧ y.sr.ien = x.sr.ien ∧ y.sr.inh = x.sr.inh ∧
    (∀ i, i ≠ d → y.reg i = x.reg i) ∧ y = { x with d := y.d, sr := y.sr } := by
  have hreg : (x.put sat d e c).reg d = BitVec.ofInt 24 (if sat then saturate 24 e else e) := by
    rw [put_eq]
    exact reg_setReg_same hd
  have hv : signedOf 24 ((x.put sat d e c).reg d).toNat = storedInt 24 sat e := by
    rw [signedOf_toNat, hreg, BitVec.toInt_ofInt]
    rfl
  intro y v
  refine ⟨?_, ?_, ?_, ?_, ?_, ?_, fun i hi => ?_, ?_⟩
  · rw [show v = _ from hv, show y = _ from put_eq]
    exact saturationRule_storedInt _
  · rw [show v = (y.reg d).toInt from signedOf_toNat _, show y.sr.z = decide (y.reg d = 0) by rw [hreg, show y = _ from put_eq],
      decide_eq_true_eq, ← BitVec.toInt_inj]
    rfl
  · rw [show v = (y.reg d).toInt from signedOf_toNat _,
      show y.sr.n = bitOf (y.reg d).toNat 23 by rw [hreg, show y = _ from put_eq], bitOf_sign, decide_eq_true_eq]
  all_goals rw [show y = _ from put_eq]
  · exact reg_setReg_other hi
  · rfl

end

/-! ### A result for an accumulator -/

section
variable {sat : Bool} {i : Nat} {e : Int} {x : Core}

theorem putAcc_eq : x.putAcc sat i e =
    let v := storedInt 56 sat e
    { x.setAcc i v with
      sr := { x.sr with z := v = 0, n := v < 0, v := misfits 56 e, ss := x.sr.ss || (sat && misfits 56 e) } } := by
  have hfit : (fit56 sat e).1 = storedInt 56 sat e := by
    cases sat
    · exact signedOf_unsignedOf_bmod
    · exact storedInt_saturated.symm
  simp only [Core.putAcc, hfit]
  rfl

theorem accInt_setAcc_same (h : i < x.a.length) : (x.setAcc i e).accInt i = e.bmod (2 ^ 56) := by
  have hget : (x.setAcc i e).a.getD i 0 = BitVec.ofInt 56 e := by
    simp only [Core.setAcc, ofNat_unsignedOf, List.getD_eq_getElem?_getD, List.getElem?_set_self h, Option.getD_some]
  rw [Core.accInt, hget, signedOf_toNat, BitVec.toInt_ofInt]

theorem accInt_setAcc_other {j : Nat} (h : j ≠ i) : (x.setAcc i e).accInt j = x.accInt j := by
  simp only [Core.accInt, Core.setAcc, List.getD_eq_getElem?_getD, List.getElem?_set_ne h.symm]

/-- What an accumulator takes of an exact result, with the flags (R342, R343). -/
theorem putAcc_rule (hi : i < x.a.length) :
    let y := x.putAcc sat i e
    let v := y.accInt i
    SaturationRule 56 sat e v y.sr.v y.sr.ss x.sr.ss ∧
    (y.sr.z = true ↔ v = 0) ∧ (y.sr.n = true ↔ v < 0) ∧ y.sr.c = x.sr.c ∧
    (∀ j, j ≠ i → y.accInt j = x.accInt j) ∧ y = { x with a := y.a, sr := y.sr } := by
  intro y v
  have hv : v = storedInt 56 sat e := by
    rw [show v = (x.setAcc i (storedInt 56 sat e)).accInt i by rw [show v = y.accInt i from rfl, show y = _ from putAcc_eq]; rfl,
      accInt_setAcc_same hi, storedInt, Int.bmod_bmod]
  rw [hv, show y = _ from putAcc_eq]
  exact ⟨saturationRule_storedInt _, decide_eq_true_iff, decide_eq_true_iff, rfl, fun j hj => accInt_setAcc_other hj, rfl⟩

end

/-- Settles O55: what a register holds of an exact result is stated once for every width (saturationRule_storedInt). -/
theorem stewardSaturation : Obligations.StewardSaturation := by
  unfold Obligations.StewardSaturation
  constructor
  · intro sat d e k x hd y v
    obtain ⟨⟨hfits, habove, hbelow, hwraps⟩, hrest⟩ := put_rule (sat := sat) (e := e) (c := k) hd
    exact ⟨hfits, habove, hbelow, hwraps, hrest⟩
  · intro sat i e x hi y v
    obtain ⟨⟨hfits, habove, hbelow, hwraps⟩, hrest⟩ := putAcc_rule (sat := sat) (e := e) hi
    exact ⟨hfits, habove, hbelow, hwraps, hrest⟩

end Sys2Proof.Machine
end

section
/-!
SUPPORT. A Steward core that executes a word: the core stored back, the repeat or the next word, and the boundary at which no stop waits.
-/
namespace Sys2Proof.Machine

/-! ### A core stored and read back -/

section
variable {c : Nat} {x y : Core} {s : State}

theorem coreOf_setCore (h : c < s.stw.cores.length) : coreOf c (setCore c x s) = x := by
  simp [coreOf, setCore, List.getD_eq_getElem?_getD, h]

theorem setCore_setCore : setCore c y (setCore c x s) = setCore c y s := by
  simp [setCore]

theorem onCore_setCore {f : Core → Core} (h : c < s.stw.cores.length) : onCore c f (setCore c x s) = setCore c (f x) s := by
  rw [onCore, coreOf_setCore h, setCore_setCore]

theorem core_lt (h : StateInv s) (c : Fin 8) : c.val < s.stw.cores.length := h.cores.1.symm ▸ c.isLt

end

/-! ### What an instruction leaves of the core's flow -/

/-- The PC, the repeat and a stop that waits are as they were. -/
structure Core.SameFlow (x z : Core) : Prop where
  pc : z.pc = x.pc
  rep : z.rep = x.rep
  stopDue : z.stopDue = x.stopDue

namespace Core.SameFlow
variable {x y z : Core}

theorem refl : x.SameFlow x := ⟨rfl, rfl, rfl⟩

theorem trans (h : x.SameFlow y) (h' : y.SameFlow z) : x.SameFlow z :=
  ⟨h'.pc.trans h.pc, h'.rep.trans h.rep, h'.stopDue.trans h.stopDue⟩

theorem put {sat d e k} : x.SameFlow (x.put sat d e k) := ⟨rfl, rfl, rfl⟩
theorem putAcc {sat i e} : x.SameFlow (x.putAcc sat i e) := ⟨rfl, rfl, rfl⟩
theorem putLogic {d v} : x.SameFlow (x.putLogic d v) := ⟨rfl, rfl, rfl⟩
theorem putZn {d v} : x.SameFlow (x.putZn d v) := ⟨rfl, rfl, rfl⟩
theorem putZ {d v} : x.SameFlow (x.putZ d v) := ⟨rfl, rfl, rfl⟩
theorem store {i v} : x.SameFlow (x.store i v) := ⟨rfl, rfl, rfl⟩
theorem regs {d v} : x.SameFlow (x.setReg d v) := ⟨rfl, rfl, rfl⟩

theorem postMod {i m} : x.SameFlow (x.postMod i m) := by
  unfold Core.postMod
  dsimp only
  split_ifs
  · exact refl
  · exact ⟨rfl, rfl, rfl⟩
  · exact ⟨rfl, rfl, rfl⟩

theorem setAddrReg {k i v} : x.SameFlow (x.setAddrReg k i v) := by
  unfold Core.setAddrReg
  split <;> exact ⟨rfl, rfl, rfl⟩

theorem setSpecial {k v} : x.SameFlow (x.setSpecial k v) := by
  unfold Core.setSpecial
  dsimp only
  split <;> exact ⟨rfl, rfl, rfl⟩

theorem ite {p : Prop} [Decidable p] (hy : x.SameFlow y) (hz : x.SameFlow z) : x.SameFlow (if p then y else z) := by
  split
  · exact hy
  · exact hz

theorem loads {w : Nat} : x.SameFlow (f3Loads w x) :=
  ((ite regs refl).trans (ite regs refl)).trans (postMod.trans postMod)

theorem view {w : Nat} : x.SameFlow (mvaOf w x) := by
  unfold mvaOf
  dsimp only
  split <;> exact ⟨rfl, rfl, rfl⟩

theorem accView {w : Nat} : x.SameFlow (ldaOf w x) := by
  unfold ldaOf
  exact ite ⟨rfl, rfl, rfl⟩ ⟨rfl, rfl, rfl⟩

end Core.SameFlow

/-! ### Executing the word at the PC -/

/-- A core that executes: it is RUNNING in a device that runs and does not THROTTLE, and no stop waits for its boundary. -/
structure CoreReady (c : Fin 8) (s : State) : Prop where
  runs : Runs s
  kept : StateInv s
  cool : throttled s = false
  running : (coreOf c.val s).state = 1
  noStop : (coreOf c.val s).stopDue = false

/-- The core with the cycle of an instruction counted. -/
def Core.ticked (x : Core) : Core := { x with cycles := wrap 48 (x.cycles + 1) }

/-- The core after an instruction: the repeat counts down, or the PC goes on (R350). -/
def Core.advanced (x : Core) : Core :=
  match x.rep with
  | some (n + 2) => { x with rep := some (n + 1) }
  | _ => { x with pc := x.pc + 1, rep := none }

section
variable {c : Fin 8} {op : Nat} {s : State}

theorem stwBoundary_noStop {c : Nat} (h : (coreOf c s).stopDue = false) : stwBoundary c s = s :=
  if_neg (by rw [h, Bool.false_and]; exact Bool.false_ne_true)

theorem stwAdvance_setCore {z : Core} (hc : c.val < s.stw.cores.length) (hpc : z.pc < 16383) :
    stwAdvance c.val (setCore c.val z s) = setCore c.val z.advanced s := by
  unfold stwAdvance Core.advanced
  rw [coreOf_setCore hc]
  dsimp only
  generalize z.rep = rep
  rcases rep with _ | _ | _ | n
  · exact (if_neg hpc.not_ge).trans setCore_setCore
  · exact (if_neg hpc.not_ge).trans setCore_setCore
  · exact (if_neg hpc.not_ge).trans setCore_setCore
  · exact setCore_setCore

variable {w : Nat}

theorem stwExec_runs (h : CoreReady c s) {f : Nat → State → State} (hw : (coreOf c.val s).word (coreOf c.val s).pc = w)
    (hop : opOf w = op) (hlegal : legal w = true) :
    stwExec c.val op f s = stwBoundary c.val (f w (setCore c.val (coreOf c.val s).ticked s)) := by
  unfold stwExec
  dsimp only
  rw [hw, if_neg (by simp [h.running, h.cool, hop, hlegal])]
  rfl

theorem act_stwPlain (h : CoreReady c s) {f : Nat → Core → Core} {z : Core} (hw : (coreOf c.val s).word (coreOf c.val s).pc = w)
    (hlegal : legal w = true) (hpc : (coreOf c.val s).pc < 16383) (hop : opOf w = op)
    (hz : f w (coreOf c.val s).ticked = z) (hflow : (coreOf c.val s).ticked.SameFlow z) :
    act (stwPlain c op f) s = .next (setCore c.val z.advanced s) := by
  have hc := core_lt h.kept c
  have hstop : (coreOf c.val (setCore c.val z.advanced s)).stopDue = false := by
    rw [coreOf_setCore hc]
    unfold Core.advanced
    split <;> exact hflow.stopDue.trans h.noStop
  rw [act_run h.runs, stwPlain, stwExec_runs h hw hop hlegal, onCore_setCore hc, hz, stwAdvance_setCore hc (hflow.pc.trans_lt hpc),
    stwBoundary_noStop hstop]

end

/-! ### Sums and differences without a carry in -/

section
variable {sat : Bool} {d : Nat} {a b : W24} {x : Core}

theorem stwAddOf_eq {cin : Bool} : let carry : Nat := if cin then 1 else 0
    stwAddOf sat d a b cin x = x.put sat d (signedOf 24 a.toNat + signedOf 24 b.toNat + carry) (some (2 ^ 24 ≤ a.toNat + b.toNat + carry)) := by
  cases cin <;> simp only [stwAddOf] <;> norm_cast

theorem stwSubOf_eq {cin : Bool} : let carry : Nat := if cin then 1 else 0
    stwSubOf sat d a b cin x = x.put sat d (signedOf 24 a.toNat - signedOf 24 b.toNat - carry) (some (a.toNat < b.toNat + carry)) := by
  cases cin <;> simp only [stwSubOf] <;> norm_cast

theorem stwAddOf_noCarry : stwAddOf sat d a b false x =
    x.put sat d (signedOf 24 a.toNat + signedOf 24 b.toNat) (some (2 ^ 24 ≤ a.toNat + b.toNat)) :=
  stwAddOf_eq.trans (by simp)

theorem stwSubOf_noCarry : stwSubOf sat d a b false x =
    x.put sat d (signedOf 24 a.toNat - signedOf 24 b.toNat) (some (a.toNat < b.toNat)) :=
  stwSubOf_eq.trans (by simp)

theorem stwSubOf_zero : stwSubOf sat d 0 a false x = x.put sat d (-signedOf 24 a.toNat) (some (0 < a.toNat)) :=
  stwSubOf_noCarry.trans (by simp [signedOf])

end

/-- Settles O54: each instruction is one change of the core (act_stwPlain), and none of them touches the PC, the repeat or a stop. -/
theorem stewardComputes : Obligations.StewardComputes := by
  unfold Obligations.StewardComputes
  intro c s hs hk hcool x w hrun hlegal hstop hpc y does d a b ai bi carry sat n im iw acc av dv k m product sh
  have hready : CoreReady c s := ⟨hs, hk, hcool, hrun, hstop⟩
  have plain {i : Instr} {op : Nat} {z : Core} (f : Nat → Core → Core) (hexec : Machine.exec i s = act (stwPlain c op f) s)
      (hz : f w y = z) (hflow : y.SameFlow z) : does i op z := by
    intro hop
    rw [hexec, act_stwPlain hready rfl hlegal hpc hop hz hflow]
    simp only [Core.advanced, hflow.rep, hflow.pc]
    rfl
  open Core.SameFlow in
  exact ⟨plain _ rfl rfl refl, plain _ rfl stwAddOf_noCarry put, plain _ rfl stwAddOf_eq put, plain _ rfl stwSubOf_noCarry put,
    plain _ rfl stwSubOf_eq put, plain _ rfl rfl ⟨rfl, rfl, rfl⟩, plain _ rfl rfl putLogic, plain _ rfl rfl putLogic,
    plain _ rfl rfl putLogic, plain _ rfl rfl put, plain _ rfl rfl putZn, plain _ rfl rfl putZn, plain _ rfl rfl put,
    plain _ rfl rfl putZn, plain _ rfl rfl putZn, plain _ rfl rfl put, plain _ rfl stwSubOf_zero put, plain _ rfl rfl putZ,
    plain _ rfl rfl putZ, plain _ rfl rfl putZn, plain _ rfl rfl regs, plain _ rfl rfl regs, plain _ rfl stwAddOf_noCarry put,
    plain _ rfl rfl ⟨rfl, rfl, rfl⟩, plain _ rfl rfl (regs.trans postMod), plain _ rfl rfl (store.trans postMod),
    plain _ rfl rfl (putAcc.trans loads), plain _ rfl rfl (putAcc.trans loads), plain _ rfl rfl (putAcc.trans loads),
    plain _ rfl rfl loads, plain _ rfl rfl view, plain _ rfl rfl accView, plain _ rfl rfl putAcc, plain _ rfl rfl putAcc,
    plain _ rfl rfl ⟨rfl, rfl, rfl⟩, plain _ rfl rfl (ite setAddrReg regs), plain _ rfl rfl setAddrReg,
    plain _ rfl rfl (ite setSpecial (ite ⟨rfl, rfl, rfl⟩ regs))⟩

end Sys2Proof.Machine
end

section
/-!
SUPPORT. The Steward's flow of control, its faults and its interrupts.
-/
namespace Sys2Proof.Machine

/-! ### What a fault leaves of the core's stop -/

section
variable {c : Nat} {x z : Core} {s t : State}

theorem coreOf_congr (h : t.stw = s.stw) : coreOf c t = coreOf c s := by rw [coreOf, coreOf, h]

theorem setCore_coreOf : setCore c (coreOf c s) s = s := by
  have hset : s.stw.cores.set c (coreOf c s) = s.stw.cores := by
    rcases lt_or_ge c s.stw.cores.length with h | h
    · rw [coreOf, List.getD_eq_getElem _ _ h, List.set_getElem_self]
    · exact List.set_eq_of_length_le h
  rw [setCore, hset]

theorem stopDue_setCore (h : c < s.stw.cores.length) : (coreOf c (setCore c x s)).stopDue = x.stopDue := by
  rw [coreOf_setCore h]

theorem stopDue_raise {e part a0 a1} : (coreOf c (raise e part a0 a1 s)).stopDue = (coreOf c s).stopDue := by
  rw [coreOf_congr (raise_stw ..)]

theorem stopDue_stwFault {k : Nat} (h : c < s.stw.cores.length) : (coreOf c (stwFault c k s)).stopDue = (coreOf c s).stopDue :=
  stopDue_raise.trans (stopDue_setCore (s := masterReset .stewards (some c) s) h)

theorem length_setCore : (setCore c x s).stw.cores.length = s.stw.cores.length := List.length_set

end

/-! ### The ends of an instruction -/

section
variable {c : Fin 8} {s : State}

theorem stwAdvance_noRep {z : Core} (hc : c.val < s.stw.cores.length) (hpc : z.pc < 16383) (hrep : z.rep = none) :
    stwAdvance c.val (setCore c.val z s) = setCore c.val { z with pc := z.pc + 1, rep := none } s := by
  rw [stwAdvance_setCore hc hpc, Core.advanced, hrep]

theorem stwAdvance_end {z : Core} (hc : c.val < s.stw.cores.length) (hpc : z.pc = 16383) (hrep : z.rep = none) :
    stwAdvance c.val (setCore c.val z s) = stwFault c.val 5 (setCore c.val z s) := by
  have hz : ({ z with rep := none } : Core) = z := by rw [← hrep]
  unfold stwAdvance
  rw [coreOf_setCore hc]
  dsimp only
  rw [hrep]
  dsimp only
  rw [if_pos hpc.ge, hz, setCore_setCore]

/-- The core gone on to the next word. -/
def Core.wentOn (z : Core) : Core := { z with pc := z.pc + 1, rep := none }

/-- The core gone to a target, which takes 3 cycles in all (R348). -/
def Core.wentTo (pc : Nat) (z : Core) : Core := { z with pc := pc, cycles := wrap 48 (z.cycles + 2), rep := none }

theorem stwJump_setCore {pc : Nat} {z : Core} (hc : c.val < s.stw.cores.length) :
    stwJump c.val pc (setCore c.val z s) = setCore c.val (z.wentTo pc) s :=
  onCore_setCore hc

end

/-! ### Flow instructions -/

/-- A core that executes the legal word `w`, with no repeat and short of the end of program memory. -/
structure FlowReady (c : Fin 8) (w : Nat) (s : State) : Prop extends CoreReady c s where
  word : (coreOf c.val s).word (coreOf c.val s).pc = w
  legal : legal w = true
  noRep : (coreOf c.val s).rep = none
  inside : (coreOf c.val s).pc < 16383

/-- The state an instruction of the core meets, its cycle counted. -/
def tickedAt (c : Fin 8) (s : State) : State := setCore c.val (coreOf c.val s).ticked s

namespace FlowReady
variable {c : Fin 8} {w : Nat} {s : State} {z : Core}

theorem core_lt (h : FlowReady c w s) : c.val < s.stw.cores.length := Machine.core_lt h.kept c

theorem core_ticked (h : FlowReady c w s) : coreOf c.val (tickedAt c s) = (coreOf c.val s).ticked := coreOf_setCore h.core_lt

theorem setCore_ticked : setCore c.val z (tickedAt c s) = setCore c.val z s := setCore_setCore

theorem stays (h : FlowReady c w s) (hz : z.stopDue = (coreOf c.val s).stopDue) : (coreOf c.val (setCore c.val z s)).stopDue = false :=
  (stopDue_setCore h.core_lt).trans (hz.trans h.noStop)

theorem stays_fault (h : FlowReady c w s) {k : Nat} (hz : z.stopDue = (coreOf c.val s).stopDue) :
    (coreOf c.val (stwFault c.val k (setCore c.val z s))).stopDue = false :=
  (stopDue_stwFault (length_setCore.symm ▸ h.core_lt)).trans (h.stays hz)

theorem advance (h : FlowReady c w s) (hpc : z.pc = (coreOf c.val s).pc) (hrep : z.rep = (coreOf c.val s).rep) :
    stwAdvance c.val (setCore c.val z s) = setCore c.val z.wentOn s :=
  stwAdvance_noRep h.core_lt (hpc.trans_lt h.inside) (hrep.trans h.noRep)

/-- An instruction of this opcode does what its meaning does to the core with its cycle counted. -/
theorem exec (h : FlowReady c w s) {i : Instr} {op : Nat} {t : State} (f : Nat → State → State)
    (hexec : Machine.exec i s = act (stwExec c.val op f) s) (hop : opOf w = op) (ht : f w (tickedAt c s) = t)
    (hstop : (coreOf c.val t).stopDue = false) : Machine.exec i s = .next t := by
  rw [hexec, act_run h.runs, stwExec_runs h.toCoreReady h.word hop h.legal, stwBoundary_noStop (ht ▸ hstop)]
  exact congrArg _ ht

theorem br_taken (h : FlowReady c w s) (hop : opOf w = 0x23) (htaken : f6Taken c.val w (tickedAt c s) = true) :
    Machine.exec (.stwBr c) s = .next (setCore c.val ((coreOf c.val s).ticked.wentTo (bitsOf w 13 0)) s) :=
  h.exec _ rfl hop ((if_pos htaken).trans (stwJump_setCore h.core_lt)) (h.stays rfl)

theorem br_passed (h : FlowReady c w s) (hop : opOf w = 0x23) (htaken : f6Taken c.val w (tickedAt c s) = false) :
    Machine.exec (.stwBr c) s = .next (setCore c.val (coreOf c.val s).ticked.wentOn s) :=
  h.exec _ rfl hop ((if_neg (ne_true_of_eq_false htaken)).trans (h.advance rfl rfl)) (h.stays rfl)

theorem call_taken (h : FlowReady c w s) (hop : opOf w = 0x24) (htaken : f6Taken c.val w (tickedAt c s) = true)
    (hroom : (coreOf c.val s).stack.length < 8) :
    let x := coreOf c.val s
    Machine.exec (.stwCall c) s =
      .next (setCore c.val (({ x.ticked with stack := (x.pc + 1) % 16384 :: x.stack } : Core).wentTo (bitsOf w 13 0)) s) := by
  refine h.exec _ rfl hop ?_ (h.stays rfl)
  simp only [htaken, Bool.not_true, Bool.false_eq_true, if_false, h.core_ticked, setCore_ticked]
  exact (if_neg hroom.not_ge).trans (stwJump_setCore h.core_lt)

theorem call_full (h : FlowReady c w s) (hop : opOf w = 0x24) (htaken : f6Taken c.val w (tickedAt c s) = true)
    (hfull : 8 ≤ (coreOf c.val s).stack.length) : Machine.exec (.stwCall c) s = .next (stwFault c.val 3 (tickedAt c s)) := by
  refine h.exec _ rfl hop ?_ (h.stays_fault rfl)
  simp only [htaken, Bool.not_true, Bool.false_eq_true, if_false, h.core_ticked]
  exact if_pos hfull

theorem call_passed (h : FlowReady c w s) (hop : opOf w = 0x24) (htaken : f6Taken c.val w (tickedAt c s) = false) :
    Machine.exec (.stwCall c) s = .next (setCore c.val (coreOf c.val s).ticked.wentOn s) :=
  h.exec _ rfl hop ((if_pos (htaken ▸ rfl)).trans (h.advance rfl rfl)) (h.stays rfl)

theorem ret_taken (h : FlowReady c w s) (hop : opOf w = 0x25) (htaken : f6Taken c.val w (tickedAt c s) = true) (r : Nat) (rest : List Nat)
    (hstack : (coreOf c.val s).stack = r :: rest) :
    Machine.exec (.stwRet c) s = .next (setCore c.val (({ (coreOf c.val s).ticked with stack := rest } : Core).wentTo r) s) := by
  refine h.exec _ rfl hop ?_ (h.stays rfl)
  simp only [htaken, Bool.not_true, Bool.false_eq_true, if_false, h.core_ticked, setCore_ticked,
    show (coreOf c.val s).ticked.stack = r :: rest from hstack]
  exact stwJump_setCore h.core_lt

theorem ret_empty (h : FlowReady c w s) (hop : opOf w = 0x25) (htaken : f6Taken c.val w (tickedAt c s) = true)
    (hstack : (coreOf c.val s).stack = []) : Machine.exec (.stwRet c) s = .next (stwFault c.val 3 (tickedAt c s)) := by
  refine h.exec _ rfl hop ?_ (h.stays_fault rfl)
  simp only [htaken, Bool.not_true, Bool.false_eq_true, if_false, h.core_ticked, show (coreOf c.val s).ticked.stack = [] from hstack]

theorem ret_passed (h : FlowReady c w s) (hop : opOf w = 0x25) (htaken : f6Taken c.val w (tickedAt c s) = false) :
    Machine.exec (.stwRet c) s = .next (setCore c.val (coreOf c.val s).ticked.wentOn s) :=
  h.exec _ rfl hop ((if_pos (htaken ▸ rfl)).trans (h.advance rfl rfl)) (h.stays rfl)

theorem rti (h : FlowReady c w s) (hop : opOf w = 0x26) :
    let x := coreOf c.val s
    Machine.exec (.stwRti c) s = .next (setCore c.val (({ x.ticked with sr := x.ret.2 } : Core).wentTo x.ret.1) s) := by
  refine h.exec _ rfl hop ?_ (h.stays rfl)
  simp only [h.core_ticked, setCore_ticked]
  exact stwJump_setCore h.core_lt

theorem rep_starts (h : FlowReady c w s) (hop : opOf w = 0x27)
    (hflow : isFlow ((coreOf c.val s).word ((coreOf c.val s).pc + 1)) = false) :
    let x := coreOf c.val s
    let n := if bitOf w 25 then (x.reg (f1d w)).toNat % 65536 else bitsOf w 15 0
    Machine.exec (.stwRep c) s = .next (setCore c.val { x.ticked with pc := x.pc + 1, rep := some (if n = 0 then 65536 else n) } s) := by
  refine h.exec _ rfl hop ?_ (h.stays rfl)
  simp only [h.core_ticked, setCore_ticked]
  exact (if_neg h.inside.not_ge).trans (if_neg (ne_true_of_eq_false hflow))

theorem rep_of_flow (h : FlowReady c w s) (hop : opOf w = 0x27)
    (hflow : isFlow ((coreOf c.val s).word ((coreOf c.val s).pc + 1)) = true) :
    let x := coreOf c.val s
    Machine.exec (.stwRep c) s = .next (stwFault c.val 2 (setCore c.val { x.ticked with pc := x.pc + 1 } (tickedAt c s))) := by
  refine h.exec _ rfl hop ?_ ?_
  · simp only [h.core_ticked]
    exact (if_neg h.inside.not_ge).trans (if_pos hflow)
  · rw [setCore_ticked]
    exact h.stays_fault rfl

theorem xreq_joins (h : FlowReady c w s) (hop : opOf w = 0x2B) (hroom : (coreOf c.val s).xfers.length < 4) :
    let x := coreOf c.val s
    let block := x.ptr (bitsOf w 20 18)
    Machine.exec (.stwXreq c) s = .next (setCore c.val
      (({ x.ticked with xfers := x.xfers ++ [readBlock x block] } : Core).putContainer (block + 3) 0).wentOn s) := by
  refine h.exec _ rfl hop ?_ (h.stays rfl)
  simp only [h.core_ticked, setCore_ticked]
  exact (if_neg hroom.not_ge).trans (h.advance rfl rfl)

theorem xreq_stalls (h : FlowReady c w s) (hop : opOf w = 0x2B) (hfull : 4 ≤ (coreOf c.val s).xfers.length) :
    Machine.exec (.stwXreq c) s = .next (tickedAt c s) := by
  refine h.exec _ rfl hop ?_ (h.stays rfl)
  simp only [h.core_ticked]
  exact if_pos hfull

theorem xwait_passes (h : FlowReady c w s) (hop : opOf w = 0x2C) (hdone : (coreOf c.val s).xfers = []) :
    Machine.exec (.stwXwait c) s = .next (setCore c.val (coreOf c.val s).ticked.wentOn s) := by
  refine h.exec _ rfl hop ?_ (h.stays rfl)
  simp only [h.core_ticked]
  exact (if_pos hdone).trans (h.advance rfl rfl)

theorem xwait_stalls (h : FlowReady c w s) (hop : opOf w = 0x2C) (hbusy : (coreOf c.val s).xfers ≠ []) :
    Machine.exec (.stwXwait c) s = .next (tickedAt c s) := by
  refine h.exec _ rfl hop ?_ (h.stays rfl)
  simp only [h.core_ticked]
  exact if_neg hbusy

theorem wait_eq (h : FlowReady c w s) (hop : opOf w = 0x2D) :
    let z := (coreOf c.val s).ticked.wentOn
    Machine.exec (.stwWait c) s = .next (setCore c.val (if z.state = 1 && Nat.land z.ip z.ie = 0 then { z with state := 2 } else z) s) := by
  refine h.exec _ rfl hop ?_ (h.stays (by split <;> rfl))
  rw [show stwAdvance c.val (tickedAt c s) = _ from h.advance rfl rfl]
  exact onCore_setCore h.core_lt

theorem wait_sleeps (h : FlowReady c w s) (hop : opOf w = 0x2D) (hquiet : Nat.land (coreOf c.val s).ip (coreOf c.val s).ie = 0) :
    Machine.exec (.stwWait c) s = .next (setCore c.val ({ (coreOf c.val s).ticked with state := 2 } : Core).wentOn s) :=
  (h.wait_eq hop).trans (congrArg (fun z => Host.Outcome.next (setCore c.val z s))
    (if_pos (Bool.and_eq_true_iff.mpr ⟨decide_eq_true h.running, decide_eq_true hquiet⟩)))

theorem wait_passes (h : FlowReady c w s) (hop : opOf w = 0x2D) (hpending : Nat.land (coreOf c.val s).ip (coreOf c.val s).ie ≠ 0) :
    Machine.exec (.stwWait c) s = .next (setCore c.val (coreOf c.val s).ticked.wentOn s) :=
  (h.wait_eq hop).trans (congrArg (fun z => Host.Outcome.next (setCore c.val z s))
    (if_neg fun hb => hpending (of_decide_eq_true (Bool.and_eq_true_iff.mp hb).2)))

theorem halt (h : FlowReady c w s) (hop : opOf w = 0x2E) :
    let x := coreOf c.val s
    Machine.exec (.stwHalt c) s = .next (raise .stwStopped (some x.part) (arg0 c.val x.part.val 0) (x.pc + 1)
      (setCore c.val { x.ticked with state := 4, pc := x.pc + 1 } s)) := by
  refine h.exec _ rfl hop ?_ (stopDue_raise.trans (h.stays rfl))
  rw [show stwAdvance c.val (tickedAt c s) = _ from h.advance rfl rfl]
  simp only [coreOf_setCore h.core_lt, setCore_setCore]
  refine (if_neg (by rw [show (coreOf c.val s).ticked.wentOn.state = 1 from h.running]; decide)).trans ?_
  exact congrArg (fun r => raise .stwStopped (some (coreOf c.val s).part) (arg0 c.val (coreOf c.val s).part.val 0) ((coreOf c.val s).pc + 1)
    (setCore c.val { (coreOf c.val s).ticked with state := 4, pc := (coreOf c.val s).pc + 1, rep := r } s)) h.noRep.symm

end FlowReady

/-! ### Illegal words and memory errors -/

section
variable {c : Fin 8} {s : State}

theorem illegal_exec (h : CoreReady c s) (hlegal : legal ((coreOf c.val s).word (coreOf c.val s).pc) = false) :
    Machine.exec (.stwIllegal c false) s = .next (stwFault c.val 1 s) := by
  have hguard : ((coreOf c.val s).state = 1 && !throttled s && !legal ((coreOf c.val s).word (coreOf c.val s).pc)) = true := by
    simp [h.running, h.cool, hlegal]
  rw [show Machine.exec (.stwIllegal c false) s = execStwIllegal c false s from rfl, execStwIllegal, act_run h.runs]
  refine congrArg _ ?_
  refine ((if_neg Bool.false_ne_true).trans (if_pos hguard)).trans (stwBoundary_noStop ?_)
  exact (stopDue_stwFault (core_lt h.kept c)).trans h.noStop

theorem memUe_exec (h : CoreReady c s) :
    Machine.exec (.stwIllegal c true) s = .next (stwFault c.val 4 (sramError .uncorrectable s)) := by
  have hstw : (sramError .uncorrectable s).stw = s.stw := raise_stw ..
  have hactive : (coreOf c.val s).active = true := by simp [Core.active, h.running]
  rw [show Machine.exec (.stwIllegal c true) s = execStwIllegal c true s from rfl, execStwIllegal, act_run h.runs]
  refine congrArg _ ?_
  refine ((if_pos rfl).trans (if_pos hactive)).trans (stwBoundary_noStop ?_)
  rw [stopDue_stwFault (hstw ▸ core_lt h.kept c), coreOf_congr hstw, h.noStop]

end

/-! ### Interrupts, the timer and the slot stall -/

section
variable {c : Fin 8} {s : State} {x : Core} {k : Nat}

/-- The core takes interrupts: it is active with IEN set, INH clear and no repeat (R350, R351). -/
def Core.takes (x : Core) : Bool := x.active && x.sr.ien && !x.sr.inh && x.rep.isNone

theorem takeable_eq : takeable x = if x.takes then (List.range 4).find? fun k => bitOf x.ip k && bitOf x.ie k else none := rfl

theorem takes_eq_true (hactive : x.active = true) (hien : x.sr.ien = true) (hinh : x.sr.inh = false) (hrep : x.rep = none) :
    x.takes = true := by
  simp [Core.takes, hactive, hien, hinh, hrep]

theorem takeable_lowest (htakes : x.takes = true) (hk : k < 4) (hready : bitOf x.ip k = true ∧ bitOf x.ie k = true)
    (hlow : ∀ j, j < k → ¬(bitOf x.ip j = true ∧ bitOf x.ie j = true)) : takeable x = some k := by
  rw [takeable_eq, if_pos htakes, List.find?_range_eq_some]
  exact ⟨by simpa using hready, List.mem_range.mpr hk, fun j hj => by simpa [imp_iff_not_or] using hlow j hj⟩

theorem takeable_none (h : x.active = false ∨ x.sr.ien = false ∨ x.sr.inh = true ∨ x.rep ≠ none ∨
    (∀ j, j < 4 → ¬(bitOf x.ip j = true ∧ bitOf x.ie j = true))) : takeable x = none := by
  rw [takeable_eq]
  rcases h with h | h | h | h | h
  · exact if_neg (by simp [Core.takes, h])
  · exact if_neg (by simp [Core.takes, h])
  · exact if_neg (by simp [Core.takes, h])
  · exact if_neg (by simp [Core.takes, h])
  · have hnone : (List.range 4).find? (fun k => bitOf x.ip k && bitOf x.ie k) = none :=
      List.find?_eq_none.mpr fun j hj => by simpa using h j (List.mem_range.mp hj)
    rw [hnone, ite_self]

/-- What STW_INTERRUPT_ENTRY does, once the source to take is known (R351). -/
theorem interruptEntry_some (hs : Runs s) (hcool : throttled s = false) (hk : takeable (coreOf c.val s) = some k) :
    Machine.exec (.stwInterruptEntry c) s = .next (let x := coreOf c.val s
      setCore c.val { x with
        ret := (x.pc, x.sr), ip := putBits x.ip k k 0, sr := { x.sr with inh := true, ien := false }, pc := 4 * (k + 1), state := 1 } s) := by
  rw [show Machine.exec (.stwInterruptEntry c) s = execStwInterruptEntry c s from rfl, execStwInterruptEntry, act_run hs]
  refine congrArg _ ?_
  simp only [hcool, Bool.false_eq_true, if_false, hk]

theorem interruptEntry_none (hs : Runs s) (h : throttled s = true ∨ takeable (coreOf c.val s) = none) :
    Machine.exec (.stwInterruptEntry c) s = .next s := by
  have hnone : (if throttled s then none else takeable (coreOf c.val s)) = none := by
    rcases h with h | h
    · exact if_pos h
    · rw [h, ite_self]
  rw [show Machine.exec (.stwInterruptEntry c) s = execStwInterruptEntry c s from rfl, execStwInterruptEntry, act_run hs]
  refine congrArg _ ?_
  simp only [hnone]

end

section
variable {c : Fin 8} {s : State} {x : Core}

theorem timerExpire_exec (hs : Runs s) : Machine.exec (.stwTimerExpire c) s =
    .next (if (coreOf c.val s).timer = 0 then s else setCore c.val ((coreOf c.val s).pend 3) s) := by
  rw [show Machine.exec (.stwTimerExpire c) s = execStwTimerExpire c s from rfl, execStwTimerExpire, act_run hs]
  rfl

theorem slotStall_exec (hs : Runs s) : Machine.exec (.stwSlotStall c) s = .next (setCore c.val (let x := coreOf c.val s
    if x.state = 1 && x.rep.isNone then x.ticked else x) s) := act_run hs

theorem slotStall_counts (hs : Runs s) (hrun : (coreOf c.val s).state = 1) (hrep : (coreOf c.val s).rep = none) :
    Machine.exec (.stwSlotStall c) s = .next (setCore c.val (coreOf c.val s).ticked s) := by
  rw [slotStall_exec hs]
  dsimp only
  rw [if_pos (by simp [hrun, hrep])]

theorem slotStall_none (hs : Runs s) (h : (coreOf c.val s).state ≠ 1 ∨ (coreOf c.val s).rep ≠ none) :
    Machine.exec (.stwSlotStall c) s = .next s := by
  rw [slotStall_exec hs]
  dsimp only
  rw [if_neg (by simpa [← not_and_or] using h), setCore_coreOf]

theorem nop_at_end (h : CoreReady c s) (hrep : (coreOf c.val s).rep = none) (hpc : (coreOf c.val s).pc = 16383)
    (hlegal : legal ((coreOf c.val s).word (coreOf c.val s).pc) = true) (hop : opOf ((coreOf c.val s).word (coreOf c.val s).pc) = 0) :
    Machine.exec (.stwNop c) s = .next (stwFault c.val 5 (setCore c.val (coreOf c.val s).ticked s)) := by
  have hc := core_lt h.kept c
  have hrun := stwExec_runs (op := 0) (f := fun _ s => stwAdvance c.val (onCore c.val (fun x => x) s)) h rfl hop hlegal
  rw [onCore_setCore hc, stwAdvance_end (z := (coreOf c.val s).ticked) hc hpc hrep] at hrun
  refine (act_run (f := stwPlain c 0 fun _ x => x) h.runs).trans (congrArg _ (hrun.trans (stwBoundary_noStop ?_)))
  rw [stopDue_stwFault (length_setCore.symm ▸ hc), stopDue_setCore hc]
  exact h.noStop

end

/-- Settles O56: each flow instruction by its own lemma over a core that executes (FlowReady), the interrupts by the source that takeable
finds. -/
theorem stewardControl : Obligations.StewardControl := by
  unfold Obligations.StewardControl
  refine ⟨⟨?_, ?_⟩, ?_⟩
  · intro c s hs hk hcool x w hrun hnoStop hrep hpc y u taken goes on count block
    have hready : CoreReady c s := ⟨hs, hk, hcool, hrun, hnoStop⟩
    refine ⟨illegal_exec hready, memUe_exec hready, fun hlegal => ?_⟩
    have h : FlowReady c w s := ⟨hready, rfl, hlegal, hrep, hpc⟩
    exact ⟨h.br_taken, h.br_passed, h.call_taken, h.call_full, h.call_passed, h.ret_taken, h.ret_empty, h.ret_passed, h.rti, h.rep_starts,
      h.rep_of_flow, h.xreq_joins, h.xreq_stalls, h.xwait_passes, h.xwait_stalls, h.wait_sleeps, h.wait_passes, h.halt⟩
  · intro c s hs hk hcool x hrun hnoStop hrep hpc hlegal hop
    exact nop_at_end ⟨hs, hk, hcool, hrun, hnoStop⟩ hrep hpc hlegal hop
  · intro c s hs hk x ready
    refine ⟨fun k hk hcool hactive hien hinh hrep hready hlow => ?_, fun h => ?_, fun h => ?_, fun h => ?_, fun hrun hrep => ?_,
      fun h => ?_⟩
    · exact interruptEntry_some hs hcool (takeable_lowest (takes_eq_true hactive hien hinh hrep) hk hready hlow)
    · exact interruptEntry_none hs (h.imp_right takeable_none)
    · exact (timerExpire_exec hs).trans (congrArg _ (if_neg h))
    · exact (timerExpire_exec hs).trans (congrArg _ (if_pos h))
    · exact slotStall_counts hs hrun hrep
    · exact slotStall_none hs h

end Sys2Proof.Machine
end

section
/-!
SUPPORT. A Steward's transfer engine: the transfer at the head of the queue, and its end.
-/
namespace Sys2Proof.Machine

section
variable {c kind : Nat} {t : Xfer} {rest : List Xfer} {s : State} {checks : Xfer → Fin 8 → State → List Check}
  {effect : Xfer → Fin 8 → State → State}

theorem core_lt_of_xfers (hx : (coreOf c s).xfers = t :: rest) : c < s.stw.cores.length := by
  by_contra h
  rw [coreOf, List.getD_eq_default _ _ (not_lt.mp h)] at hx
  exact List.cons_ne_nil _ _ hx.symm

theorem headXfer_of_head (hx : (coreOf c s).xfers = t :: rest) (hresult : t.result = none) (hkind : t.kind = kind) :
    headXfer c kind s = some t := by
  rw [headXfer, hx]
  exact if_pos (by simp [hkind, hresult])

/-- The engine does nothing: the device THROTTLEs, the Stewards' interface drains, or the core repeats an instruction (R346, R357). -/
def engineStill (c : Nat) (s : State) : Prop := throttled s = true ∨ .stewards ∈ s.fab.draining ∨ (coreOf c s).rep ≠ none

theorem engineStill_iff : (throttled s || .stewards ∈ s.fab.draining || (coreOf c s).rep.isSome) = true ↔ engineStill c s := by
  simp only [Bool.or_eq_true, decide_eq_true_eq, Option.isSome_iff_ne_none, or_assoc, engineStill]

theorem runXfer_still (h : engineStill c s) : runXfer c kind checks effect s = s := by
  unfold runXfer
  split
  · rfl
  · exact if_pos (engineStill_iff.mpr h)

theorem runXfer_go (hx : (coreOf c s).xfers = t :: rest) (hresult : t.result = none) (hkind : t.kind = kind) (h : ¬engineStill c s) :
    runXfer c kind checks effect s = match firstFail (checks t (coreOf c s).part s) with
      | some k => xferResult c k.code 0 none s
      | none => effect t (coreOf c s).part s := by
  rw [runXfer, headXfer_of_head hx hresult hkind]
  exact if_neg fun hb => h (engineStill_iff.mp hb)

/-- What the engine does with the transfer at the head of the queue (R357 to R361). -/
theorem runXfer_rule (hs : Runs s) (hx : (coreOf c s).xfers = t :: rest) (hresult : t.result = none) (hkind : t.kind = kind) :
    let p := (coreOf c s).part
    let result := act (runXfer c kind checks effect) s
    (engineStill c s → result = .next s) ∧
    (¬engineStill c s → firstFail (checks t p s) = none → result = .next (effect t p s)) ∧
    (¬engineStill c s → ∀ k, firstFail (checks t p s) = some k → result = .next (xferResult c k.code 0 none s)) := by
  intro p result
  have hact : result = .next (runXfer c kind checks effect s) := act_run hs
  refine ⟨fun hstill => ?_, fun hgo hpass => ?_, fun hgo k hfail => ?_⟩
  · rw [hact, runXfer_still hstill]
  · rw [hact, runXfer_go hx hresult hkind hgo, hpass]
  · rw [hact, runXfer_go hx hresult hkind hgo, hfail]

end

/-! ### The end of a transfer -/

section
variable {c : Nat} {t : Xfer} {rest : List Xfer} {s : State}

/-- The core with the end of a transfer written into its block (R351, R358). -/
def Core.xferEnded (t : Xfer) (rest : List Xfer) (status n : Nat) (lost : Option Nat) (x : Core) : Core :=
  let counted := ({ x with xfers := rest } : Core).putContainer (t.block + 4) (n % 2 ^ 24)
  let noted := match lost with | some l => counted.putContainer (t.block + 5) l | none => counted
  (noted.putContainer (t.block + 3) (unsignedOf 32 (signedOf 24 (2 ^ 23 + status)))).pend 0

theorem xferDone_repeating (h : (coreOf c s).rep ≠ none) : xferDone c s = s := by
  rw [xferDone, if_pos (Option.isSome_iff_ne_none.mpr h)]

theorem xferDone_unfinished (hx : (coreOf c s).xfers = t :: rest) (hresult : t.result = none) : xferDone c s = s := by
  unfold xferDone
  split
  next t' ts hhead =>
    by_cases hrep : (coreOf c s).rep.isSome = true
    · rw [if_pos hrep] at hhead
      exact absurd hhead.symm (List.cons_ne_nil _ _)
    · rw [if_neg hrep, hx] at hhead
      rw [← (List.cons.inj hhead).1, hresult]
  next => rfl

theorem xferDone_ends {status n : Nat} {lost : Option Nat} (hrep : (coreOf c s).rep = none) (hx : (coreOf c s).xfers = t :: rest)
    (hresult : t.result = some (status, n, lost)) : xferDone c s = onCore c (Core.xferEnded t rest status n lost) s := by
  rw [xferDone, hrep, hx]
  simp only [Option.isSome_none, Bool.false_eq_true, if_false, hresult]
  rfl

end

/-- Settles O57: the engine's rule is stated once for every kind of transfer (runXfer_rule). -/
theorem stewardTransfers : Obligations.StewardTransfers := by
  unfold Obligations.StewardTransfers
  intro c t rest s hs hx hresult old p run w b r
  refine ⟨fun hkind => ?_, fun hkind => ?_, fun hkind => ?_, fun hkind => ?_, fun status n lost => ?_, ?_⟩
  · exact runXfer_rule hs hx hresult hkind
  · exact runXfer_rule hs hx hresult hkind
  · exact runXfer_rule hs hx hresult hkind
  · exact runXfer_rule hs hx hresult hkind
  · intro u counted noted
    have hc := core_lt_of_xfers hx
    have hu : coreOf c.val u = { old with xfers := { t with result := some (status, n, lost) } :: rest } := coreOf_setCore hc
    have hexec : Machine.exec (.stwXferDone c) u = .next (xferDone c.val u) := act_run (f := xferDone c.val) hs
    refine ⟨fun hrep => ?_, fun hrep => ?_⟩
    · rw [hexec, xferDone_repeating (by rw [hu]; exact hrep)]
    · rw [hexec, xferDone_ends (t := { t with result := some (status, n, lost) }) (by rw [hu]; exact hrep) (by rw [hu]) rfl]
      exact congrArg _ (onCore_setCore hc)
  · exact (act_run (f := xferDone c.val) hs).trans (congrArg _ (xferDone_unfinished hx hresult))

end Sys2Proof.Machine
end

section
/-!
SUPPORT. The DMA engine: the write of a channel's CTL, the responses of its bursts, and the end of a transfer.
-/
namespace Sys2Proof.Machine

/-! ### The write of DMA_CH_n_CTL -/

section
variable {m : Master} {ch : Fin 32} {v : Payload} {s : State}

theorem dmaReg_val {f : Fin 32 → Reg} : dmaReg f ch.val = f ch := by rw [dmaReg, Fin.ofNat_val_eq_self]

/-- The state with EVT_EN as a write of CTL leaves it. -/
def evtEnTaken (ch : Fin 32) (v : Payload) (s : State) : State := setF fDmaCtlEvtEn (.dmaCtl ch) (fld fDmaCtlEvtEn v) s

/-- The state with EVT_EN, QOS and MODE as a write of an idle channel's CTL leaves them (R367, R377). -/
def ctlTaken (ch : Fin 32) (v : Payload) (s : State) : State :=
  setF fDmaCtlMode (.dmaCtl ch) (fld fDmaCtlMode v) (setF fDmaCtlQos (.dmaCtl ch) (min 14 (fld fDmaCtlQos v)) (evtEnTaken ch v s))

theorem dmaCtlWrite_barred (h : ¬¬(m = .host ∧ 28 ≤ ch.val)) : dmaCtlWrite m ch.val v s = s :=
  if_pos (by simpa using not_not.mp h)

theorem dmaCtlWrite_idle (hm : ¬(m = .host ∧ 28 ≤ ch.val)) (h : dmaOf ch.val s = none) :
    dmaCtlWrite m ch.val v s = if fld fDmaCtlStart v = 1 then dmaStart ch.val (ctlTaken ch v s) else ctlTaken ch v s := by
  refine (if_neg (by simpa using hm)).trans ?_
  rw [h, dmaReg_val]
  rfl

theorem dmaCtlWrite_busy (hm : ¬(m = .host ∧ 28 ≤ ch.val)) (h : dmaOf ch.val s ≠ none) :
    dmaCtlWrite m ch.val v s =
      if fld fDmaCtlAbort v = 1 then dmaStop ch.val 1 (setF fDmaCtlAbort (.dmaCtl ch) 1 (evtEnTaken ch v s)) else evtEnTaken ch v s := by
  refine (if_neg (by simpa using hm)).trans ?_
  rw [dmaReg_val]
  exact if_pos (Option.isSome_iff_ne_none.mpr h)

theorem dmaStart_eq : dmaStart ch.val s =
    let st := Reg.dmaStatus ch
    let u := setF fDmaStatusResult st 0 (setF fDmaStatusDone st 0 (setF fDmaStatusBusy st 1 s))
    let src := dmaAddr ch.val .dmaSrcH .dmaSrcL s
    let dst := dmaAddr ch.val .dmaDstH .dmaDstL s
    if getF fDmaCtlMode (.dmaCtl ch) s = 1 then dmaStartChain ch.val src dst u
    else dmaStartCopy ch.val src dst (getF fDmaCountCount (.dmaCount ch) s) u := by
  unfold dmaStart
  simp only [dmaReg_val]

end

/-- The first part of O58: the three commands that write a channel's CTL. -/
theorem dmaCtlWrite_rule (m : Master) (ch : Fin 32) (v : Payload) (s : State) (hs : Accepts m s) (t : State)
    (h : dmaCtlWrite m ch.val v (accessed m s) = t) :
    Machine.exec (.dmaStartRegister m ch v) s = .next t ∧ Machine.exec (.dmaStartDescriptor m ch v) s = .next t ∧
      Machine.exec (.dmaAbortWrite m ch v) s = .next t := by
  have hact : actBy m (dmaCtlWrite m ch.val v) s = .next t := h ▸ actBy_accepts hs
  exact ⟨hact, hact, hact⟩

/-! ### The responses of a channel's bursts -/

/-- A channel with the answer to its oldest read taken: its data waits to be written, or is discarded; a failure is to end it (R370, R373). -/
def DmaChan.readTaken (o : Nat) (rest : List (Nat × Nat × Nat)) (answer : Option (List Byte)) (c : DmaChan) : DmaChan :=
  if c.discard then { c with reads := rest }
  else match answer with
    | none => { c with reads := rest, got := [], ending := some 2, discard := true }
    | some bs => { c with reads := rest, got := c.got ++ [(o, bs)] }

/-- A channel with the answer to its oldest write taken: its bytes count, or it is to end (R371, R373). -/
def DmaChan.writeTaken (len : Nat) (rest : List (Nat × Nat × Nat)) (good : Bool) (c : DmaChan) : DmaChan :=
  if good && c.ending ≠ some 3 then { c with writes := rest, written := c.written + len }
  else { c with writes := rest, got := [], ending := some 3, discard := true }

section
variable {ch : Nat} {ok : Bool} {c : DmaChan} {s : State}

section
variable {o len n : Nat} {rest : List (Nat × Nat × Nat)}

theorem dmaReadDone_waiting (hc : dmaOf ch s = some c) (hreads : c.reads = (o, len, n) :: rest) (hr : replyOf n s = none) :
    dmaReadDone ch ok s = s := by
  simp only [dmaReadDone, hc, hreads, hr]

theorem dmaReadDone_reply {r : Option (List Byte)} (hc : dmaOf ch s = some c) (hreads : c.reads = (o, len, n) :: rest)
    (hr : replyOf n s = some r) :
    dmaReadDone ch ok s = dmaSettle ch (setDma ch (some (c.readTaken o rest (if ok then r else none))) (takeReply n s)) := by
  simp only [dmaReadDone, hc, hreads, hr, DmaChan.readTaken]
  split
  · rfl
  · generalize (if ok then r else none) = got
    cases got <;> rfl

theorem dmaWriteAck_waiting (hc : dmaOf ch s = some c) (hwrites : c.writes = (o, len, n) :: rest) (hr : replyOf n s = none) :
    dmaWriteAck ch ok s = s := by
  simp only [dmaWriteAck, hc, hwrites, hr]

theorem dmaWriteAck_reply {r : Option (List Byte)} (hc : dmaOf ch s = some c) (hwrites : c.writes = (o, len, n) :: rest)
    (hr : replyOf n s = some r) :
    dmaWriteAck ch ok s = dmaSettle ch (setDma ch (some (c.writeTaken len rest (ok && r.isSome))) (takeReply n s)) := by
  simp only [dmaWriteAck, hc, hwrites, hr, DmaChan.writeTaken]
  split <;> rfl

end

/-! ### The descriptor that arrives -/

section
variable {n : Nat}

theorem dmaDescFetched_none (hc : dmaOf ch s = some c) (h : c.fetching = false ∨ c.fetchNo = none) : dmaDescFetched ch ok s = s := by
  have hno : (if c.fetching then c.fetchNo else none) = none := by
    rcases h with h | h
    · rw [h]; rfl
    · rw [h, ite_self]
  simp only [dmaDescFetched, hc, hno, Option.bind_none]

theorem dmaDescFetched_waiting (hc : dmaOf ch s = some c) (hfetch : c.fetching = true) (hno : c.fetchNo = some n)
    (hr : replyOf n s = none) : dmaDescFetched ch ok s = s := by
  simp only [dmaDescFetched, hc, hfetch, hno, if_true, Option.bind_some, hr, Option.map_none]

/-- A chain that was stopped, or whose descriptor could not be read, ends with a free residue (R375). -/
theorem dmaDescFetched_ends {r : Option (List Byte)} {e : Nat} (hc : dmaOf ch s = some c) (hfetch : c.fetching = true)
    (hno : c.fetchNo = some n) (hr : replyOf n s = some r) (he : c.ending = some e ∨ c.ending = none ∧ e = 4 ∧ (ok = false ∨ r = none)) :
    dmaDescFetched ch ok s =
      dmaEnd ch { c with fetching := false, fetchNo := none } e (Config.freeValue s.free % 2 ^ 33) { takeReply n s with free := s.free + 1 } := by
  simp only [dmaDescFetched, hc, hfetch, hno, if_true, Option.bind_some, hr, Option.map_some]
  rcases he with he | ⟨he, rfl, hbad⟩
  · simp only [he]
    rfl
  · have hnone : (if ok then r else none) = none := by
      rcases hbad with h | h
      · rw [h]; rfl
      · rw [h, ite_self]
    simp only [he, hnone]
    rfl

theorem dmaDescFetched_runs {bs : List Byte} (hc : dmaOf ch s = some c) (hfetch : c.fetching = true)
    (hno : c.fetchNo = some n) (hr : replyOf n s = some (some bs)) (he : c.ending = none) :
    let q2 := leAt bs 16 8
    let count := if bitsOf q2 31 0 = 0 then 2 ^ 32 else bitsOf q2 31 0
    let e : DmaChan := { c with
      fetching := false, fetchNo := none, src := leAt bs 0 8, dst := leAt bs 8 8, count := count, next := 0, written := 0,
      last := bitOf q2 32, evt := bitOf q2 33, nextAt := leAt bs 24 8 }
    let t := setDma ch (some e) (takeReply n s)
    dmaDescFetched ch true s = if bitsOf q2 63 34 ≠ 0 then dmaEnd ch e 4 count t else dmaSettle ch t := by
  simp only [dmaDescFetched, hc, hfetch, hno, if_true, Option.bind_some, hr, Option.map_some, he]

end
end

/-- A burst keeps to the 256 B boundaries of both ends (R370). -/
theorem burst_rule {c : DmaChan} (h : c.next < c.count) : 0 < c.burst ∧ c.burst ≤ 256 ∧ c.next + c.burst ≤ c.count ∧
    (c.src + c.next) % 256 + c.burst ≤ 256 ∧ (c.dst + c.next) % 256 + c.burst ≤ 256 := by
  unfold DmaChan.burst
  omega

/-! ### The end of a transfer -/

section
variable {ch : Fin 32} {c : DmaChan} {result residue : Nat} {s : State}

/-- The state as the end of a register-mode transfer leaves it, but for its event (R371). -/
def dmaEnded (ch : Fin 32) (result residue : Nat) (s : State) : State :=
  setF fDmaCtlAbort (.dmaCtl ch) 0 (setDma ch.val none (setReg (.dmaStatus ch) (BitVec.ofNat 48 (result * 2 ^ 45 + 2 ^ 43 + residue % 2 ^ 33)) s))

theorem statusWord_register : BitVec.ofNat 48 (result * 2 ^ 45 + 2 ^ 43 + 0 % 1024 * 2 ^ 33 + residue % 2 ^ 33) =
    BitVec.ofNat 48 (result * 2 ^ 45 + 2 ^ 43 + residue % 2 ^ 33) := by
  rw [Nat.zero_mod, Nat.zero_mul, Nat.add_zero]

theorem dmaFinish_register (hc : dmaOf ch.val s = some c) (hchain : c.chain = false) : dmaFinish ch.val result residue s =
    let t := dmaEnded ch result residue s
    if result = 0 then (if getF fDmaCtlEvtEn (.dmaCtl ch) t = 1 then raise .dmaDone none (arg0 ch.val 0 0) 0 t else t)
    else raise (if result = 1 then .dmaAbort else .dmaBusError) none (arg0 ch.val 0 result) residue t := by
  unfold dmaFinish
  rw [hc]
  dsimp only
  rw [hchain, if_neg Bool.false_ne_true, dmaReg_val, dmaReg_val, statusWord_register]
  unfold dmaEnded
  dsimp only

theorem dmaEnd_register (hchain : c.chain = false) : dmaEnd ch.val c result residue s = dmaFinish ch.val result residue s := by
  rw [dmaEnd, hchain]
  exact if_pos rfl

theorem dmaOf_congr {k : Nat} {t : State} (h : t.dma = s.dma) : dmaOf k t = dmaOf k s := by rw [dmaOf, h, dmaOf]

theorem dmaOf_setDma_same {k : Nat} {x : Option DmaChan} (h : StateInv s) : dmaOf k (setDma k x s) = x :=
  storeGet_set_same (fun _ => none) s.dma k x (storeWfFrom_sorted h.canonical.2.2.2.2.2.2.2.2.2)

theorem dmaOf_setDma_other {k i : Nat} {x : Option DmaChan} (h : i ≠ k) : dmaOf i (setDma k x s) = dmaOf i s :=
  storeGet_set_other (fun _ => none) s.dma k i x h

theorem dmaOf_ended (h : StateInv s) : dmaOf ch.val (dmaEnded ch result residue s) = none :=
  (dmaOf_congr (setF_dma ..)).trans (dmaOf_setDma_same (setReg_inv (Kept.self h)).inv)

theorem dmaOf_ended_other {k : Fin 32} (h : k ≠ ch) : dmaOf k.val (dmaEnded ch result residue s) = dmaOf k.val s :=
  (dmaOf_congr (setF_dma ..)).trans ((dmaOf_setDma_other (Fin.val_ne_of_ne h)).trans (dmaOf_congr (setReg_dma ..)))

theorem status_ended (h : StateInv s) :
    regOf (.dmaStatus ch) (dmaEnded ch result residue s) = BitVec.ofNat 48 (result * 2 ^ 45 + 2 ^ 43 + residue % 2 ^ 33) := by
  have hne : (Reg.dmaStatus ch).offset ≠ (Reg.dmaCtl ch).offset := by
    show 0x100030 + 64 * ch.val ≠ 0x100028 + 64 * ch.val
    omega
  exact (regOf_setReg_other hne).trans ((regOf_congr (setDma_regs ..)).trans (regOf_setReg h))

end

/-- Settles O58: the write of CTL by the channel's state, each response by what the channel makes of it, and the end of a transfer. -/
theorem dmaEngine : Obligations.DmaEngine := by
  unfold Obligations.DmaEngine
  refine ⟨?_, ⟨?_, fun c => burst_rule⟩, ?_⟩
  · intro m ch v s hs a all r e t st u src dst n copy chain mine
    have write {x : State} (h : dmaCtlWrite m ch.val v a = x) : all x := dmaCtlWrite_rule m ch v s hs x h
    have start (hm : mine) (hidle : dmaOf ch.val a = none) (hstart : fld fDmaCtlStart v = 1) {x : State} (h : dmaStart ch.val t = x) : all x :=
      write ((dmaCtlWrite_idle hm hidle).trans ((if_pos hstart).trans h))
    refine ⟨fun hm => write (dmaCtlWrite_barred hm), fun hm hidle hstart => write ((dmaCtlWrite_idle hm hidle).trans (if_neg (by omega))),
      fun hm hidle hstart hmode => start hm hidle hstart ?_, fun hm hidle hstart hmode hplace => start hm hidle hstart ?_,
      fun hm hidle hstart hmode hplace => start hm hidle hstart ?_,
      fun hm hbusy habort => write ((dmaCtlWrite_busy hm hbusy).trans (if_neg (by omega))),
      fun hm hbusy habort => write ((dmaCtlWrite_busy hm hbusy).trans (if_pos habort))⟩
    · exact dmaStart_eq.trans (if_neg hmode)
    · exact dmaStart_eq.trans ((if_pos hmode).trans (if_pos hplace))
    · exact dmaStart_eq.trans ((if_pos hmode).trans (if_neg (by rw [show descPlace _ _ = none from hplace]; decide)))
  · intro ch ok c s hs hc
    refine ⟨fun o len n rest hreads => ?_, fun o len n rest hwrites => ?_, fun h => ?_, fun n hfetch hno => ?_⟩
    · intro goes
      have run {d : DmaChan} {r : Option (List Byte)} (hr : replyOf n s = some r)
          (hd : c.readTaken o rest (if ok then r else none) = { d with reads := rest }) : goes d :=
        (act_run (f := dmaReadDone ch.val ok) hs).trans (congrArg _ ((dmaReadDone_reply hc hreads hr).trans (by rw [hd])))
      refine ⟨fun hr => ?_, fun r hr hdiscard => run hr (if_pos hdiscard), fun bs hr hdiscard hok => run hr ?_,
        fun r hr hdiscard hbad => run hr ?_⟩
      · exact (act_run (f := dmaReadDone ch.val ok) hs).trans (congrArg _ (dmaReadDone_waiting hc hreads hr))
      · simp only [DmaChan.readTaken, hdiscard, hok, Bool.false_eq_true, if_false, if_true]
      · have hnone : (if ok then r else none) = none := by rcases hbad with h | h <;> simp [h]
        simp only [DmaChan.readTaken, hdiscard, hnone, Bool.false_eq_true, if_false]
    · intro goes
      have run {d : DmaChan} {r : Option (List Byte)} (hr : replyOf n s = some r)
          (hd : c.writeTaken len rest (ok && r.isSome) = { d with writes := rest }) : goes d :=
        (act_run (f := dmaWriteAck ch.val ok) hs).trans (congrArg _ ((dmaWriteAck_reply hc hwrites hr).trans (by rw [hd])))
      refine ⟨fun hr => ?_, fun bs hr hok hend => run hr (if_pos (by simp [hok, hend])), fun r hr hbad => run hr (if_neg ?_)⟩
      · exact (act_run (f := dmaWriteAck ch.val ok) hs).trans (congrArg _ (dmaWriteAck_waiting hc hwrites hr))
      · rcases hbad with h | h | h <;> simp [h]
    · exact (act_run (f := dmaDescFetched ch.val ok) hs).trans (congrArg _ (dmaDescFetched_none hc h))
    · have hact : Machine.exec (.dmaDescFetched ch ok) s = .next (dmaDescFetched ch.val ok s) := act_run hs
      refine ⟨fun hr => ?_, fun r e hr he => ?_, fun bs hr he hok => ?_⟩
      · rw [hact, dmaDescFetched_waiting hc hfetch hno hr]
      · exact ⟨_, hact.trans (congrArg _ (dmaDescFetched_ends hc hfetch hno hr he)), rfl⟩
      · subst hok
        exact hact.trans (congrArg _ (dmaDescFetched_runs (c := c) hc hfetch hno hr he))
  · intro ch c result residue s hk hc hchain status t on
    exact ⟨(dmaEnd_register hchain).trans (dmaFinish_register hc hchain), dmaOf_ended hk, status_ended hk, fun k => dmaOf_ended_other⟩

end Sys2Proof.Machine
end

section
/-!
SUPPORT. What stopping the device spares: the partitions, the dependability state, the control complex, and of the Ledger all but the event
log, which only grows.
-/
namespace Sys2Proof.Machine

/-- What raising events, ending DMA transfers and completing descriptors leave of a state `o`. -/
structure Spared (o s : State) : Prop where
  parts : s.parts = o.parts
  dep : s.dep = o.dep
  sys : s.sys = o.sys
  busy : s.led.busy = o.led.busy
  readOnly : s.led.readOnly = o.led.readOnly
  events : o.led.events <+: s.led.events

namespace Spared
variable {o s t : State}

theorem refl : Spared o o := ⟨rfl, rfl, rfl, rfl, rfl, List.prefix_refl _⟩

theorem upd (h : Spared o s) (hparts : t.parts = s.parts) (hdep : t.dep = s.dep) (hsys : t.sys = s.sys) (hled : t.led = s.led) :
    Spared o t :=
  ⟨hparts.trans h.parts, hdep.trans h.dep, hsys.trans h.sys, hled ▸ h.busy, hled ▸ h.readOnly, hled ▸ h.events⟩

theorem ite {p : Prop} [Decidable p] (hs : Spared o s) (ht : Spared o t) : Spared o (if p then s else t) := by
  split
  · exact hs
  · exact ht

theorem foldl {α : Type} {f : State → α → State} {l : List α} (hf : ∀ s a, Spared o s → Spared o (f s a)) (h : Spared o s) :
    Spared o (l.foldl f s) := by
  induction l generalizing s with
  | nil => exact h
  | cons a l ih => exact ih (hf s a h)

/-! ### Events, registers and the fabric -/

theorem noteAttn (old : State) (h : Spared o s) : Spared o (Machine.noteAttn old s) := by
  obtain ⟨_, _, _, he⟩ := noteAttn_frame old s
  rw [he]
  exact h.upd rfl rfl rfl rfl

theorem raise {e part a0 a1} (h : Spared o s) : Spared o (Machine.raise e part a0 a1 s) := by
  have hled : (Machine.raise e part a0 a1 s).led = if 2 ≤ e.sev then { s.led with
      events := s.led.events ++ [⟨e.id, part, a0, a1, timeWord s⟩], oldestAt := some (s.led.oldestAt.getD s.tick) } else s.led := raise_led ..
  refine ⟨(raise_parts ..).trans h.parts, (raise_dep ..).trans h.dep, (raise_sys ..).trans h.sys, ?_, ?_, ?_⟩
  all_goals rw [hled]; split
  · exact h.busy
  · exact h.busy
  · exact h.readOnly
  · exact h.readOnly
  · exact h.events.trans (List.prefix_append ..)
  · exact h.events

theorem masterReset {c : MasterClass} {ch : Option Nat} (h : Spared o s) : Spared o (Machine.masterReset c ch s) := h.upd rfl rfl rfl rfl

theorem setF {f : Fld} {r : Reg} {v : Nat} (h : Spared o s) : Spared o (Machine.setF f r v s) := h.upd rfl rfl rfl rfl

theorem setDma {ch : Nat} {c : Option DmaChan} (h : Spared o s) : Spared o (Machine.setDma ch c s) := h.upd rfl rfl rfl rfl

theorem issuePut {m pc : Nat} {r : FabRequest} (h : Spared o s) : Spared o (Machine.issuePut m pc r s) :=
  ite (raise (h.upd rfl rfl rfl rfl)) (h.upd rfl rfl rfl rfl)

theorem raiseReq {k : Nat} {r : FabRequest} (h : Spared o s) : Spared o (Machine.raiseReq k r s) := by
  refine foldl (fun s r h => ?_) h
  split
  · exact issuePut h
  · exact h.upd rfl rfl rfl rfl

theorem portWrite {bank idx v : Nat} (h : Spared o s) : Spared o (Machine.portWrite bank idx v s) :=
  foldl (fun _ _ h => ite h (h.upd rfl rfl rfl rfl)) (h.upd rfl rfl rfl rfl)

theorem hostWrite {a : Nat} {bs : List Byte} (h : Spared o s) : Spared o (Machine.hostWrite a bs s) := by
  rw [hostWrite_frame]
  exact h.upd rfl rfl rfl rfl

/-! ### The end of DMA transfers -/

theorem dmaWrite {p : DmaPlace} {bs : List Byte} (h : Spared o s) (ht : Machine.dmaWrite p bs s = some t) : Spared o t := by
  cases p with
  | host a =>
    obtain ⟨-, he⟩ := Option.ite_none_right_eq_some.mp ht
    exact Option.some.inj he ▸ hostWrite h
  | steward c a =>
    cases ht
    exact foldl (fun _ _ h => h.upd rfl rfl rfl rfl) h
  | delay k a =>
    cases ht
    exact foldl (fun _ _ h => portWrite h) h
  | scratch a =>
    cases ht
    exact h.upd rfl rfl rfl rfl

theorem dmaRecord {c : DmaChan} {result residue : Nat} (h : Spared o s) (ht : Machine.dmaRecord c result residue s = some t) : Spared o t := by
  unfold Machine.dmaRecord at ht
  split at ht
  · cases ht
  · exact dmaWrite h ht

theorem dmaIssueWrites {ch n : Nat} (h : Spared o s) : Spared o (Machine.dmaIssueWrites ch n s) := by
  induction n generalizing s with
  | zero => exact h
  | succ n ih =>
    unfold Machine.dmaIssueWrites
    split
    · exact h
    · split
      · exact h
      · split
        · exact setDma h
        · exact ih (setDma (raiseReq h))

theorem dmaIssueReads {ch n : Nat} (h : Spared o s) : Spared o (Machine.dmaIssueReads ch n s) := by
  induction n generalizing s with
  | zero => exact h
  | succ n ih =>
    unfold Machine.dmaIssueReads
    split
    · exact h
    · refine ite h ?_
      dsimp only
      split
      · exact setDma h
      · exact ite (setDma h) (ih (setDma ((raiseReq h).upd rfl rfl rfl rfl)))

theorem dmaFetch {ch : Nat} {c : DmaChan} (h : Spared o s) : Spared o (Machine.dmaFetch ch c s) := by
  unfold Machine.dmaFetch
  split
  · exact setDma h
  · exact setDma (raiseReq h)

theorem dmaIssue {ch n : Nat} (h : Spared o s) : Spared o (Machine.dmaIssue ch n s) := by
  unfold Machine.dmaIssue
  split
  · exact h
  · exact ite h (ite (ite (dmaFetch h) h) (dmaIssueReads (dmaIssueWrites h)))

theorem dmaFinish {ch result residue : Nat} (h : Spared o s) : Spared o (Machine.dmaFinish ch result residue s) := by
  have hend {r : Reg} {v : Payload} : Spared o (Machine.setF fDmaCtlAbort (dmaReg .dmaCtl ch) 0 (Machine.setDma ch none (setReg r v s))) :=
    h.upd rfl rfl rfl rfl
  exact ite (ite (raise hend) hend) (raise hend)

theorem freeNat (h : Spared o s) : Spared o (Machine.freeNat s).2 := h.upd rfl rfl rfl rfl

theorem dmaEnd {ch : Nat} {c : DmaChan} {result residue : Nat} (h : Spared o s) : Spared o (Machine.dmaEnd ch c result residue s) := by
  unfold Machine.dmaEnd
  refine ite (dmaFinish h) ?_
  split
  · exact dmaFinish h
  next t ht =>
    have hrec : Spared o t := dmaRecord h ht
    refine ite (dmaFinish (setDma hrec)) ?_
    have hevt : Spared o (if c.evt then Machine.raise .dmaDone none (arg0 ch 0 0) 0 t else t) := ite (raise hrec) hrec
    refine ite (dmaFinish (setDma hevt)) (ite (dmaFetch hevt) ?_)
    dsimp only
    split
    · exact dmaFinish (setDma (freeNat hevt))
    next u hu => exact dmaFinish (setDma (dmaRecord (freeNat hevt) hu))

theorem dmaSettle {ch : Nat} (h : Spared o s) : Spared o (Machine.dmaSettle ch s) := by
  have hissued : Spared o (Machine.dmaIssue ch 16 s) := dmaIssue h
  unfold Machine.dmaSettle
  dsimp only
  split
  · exact hissued
  · refine ite hissued ?_
    split
    · exact dmaEnd hissued
    · exact ite (dmaEnd hissued) hissued

theorem dmaStop {ch result : Nat} (h : Spared o s) : Spared o (Machine.dmaStop ch result s) := by
  have hreset : Spared o (Machine.masterReset .dma (some ch) s) := masterReset h
  unfold Machine.dmaStop
  split
  · exact h
  · exact ite h (ite (dmaEnd (freeNat hreset)) (dmaSettle (setDma hreset)))

/-! ### Completions -/

theorem ringIrq {n : Fin 16384} {force : Bool} (h : Spared o s) : Spared o (Machine.ringIrq n force s) := by
  obtain ⟨_, _, _, he⟩ := ringIrq_frame n force s
  rw [he]
  exact h.upd rfl rfl rfl rfl

theorem writeCompletion {d : Desc} {status r0 r1 : Nat} (h : Spared o s) : Spared o (Machine.writeCompletion d status r0 r1 s) :=
  ite (h.upd rfl rfl rfl rfl) (ringIrq ((hostWrite h).upd rfl rfl rfl rfl))

theorem complete {d : Desc} {status r0 r1 : Nat} (h : Spared o s) : Spared o (Machine.complete d status r0 r1 s) :=
  ite h (ite (h.upd rfl rfl rfl rfl) (ite (h.upd rfl rfl rfl rfl) (writeCompletion (h.upd rfl rfl rfl rfl))))

theorem stopDescs (h : Spared o s) : Spared o (Machine.stopDescs s) := foldl (fun _ _ h => complete h) h

end Spared

end Sys2Proof.Machine
end

section
/-!
SUPPORT. Voltage, configuration scans, outage and the power warning.
-/
namespace Sys2Proof.Machine

/-! ### The device stopped -/

section
variable {s : State}

/-- The state with the device marked stopped. -/
def markStopped (s : State) : State := { s with sys := { s.sys with stopped := true } }

theorem stopDevice_spares (s : State) : Spared (markStopped s) (stopDevice s) := by
  unfold stopDevice
  by_cases h : s.sys.stopped = true
  · rw [if_pos h]
    have hsys : s.sys = { s.sys with stopped := true } := by rw [← h]
    exact Spared.refl.upd rfl rfl hsys rfl
  · rw [if_neg h]
    have hmarked : Spared (markStopped s)
        { s with sys := { s.sys with stopped := true }, hif := { s.hif with sev := 3, withheld := true } } := Spared.refl.upd rfl rfl rfl rfl
    exact Spared.stopDescs (Spared.masterReset (Spared.foldl (fun _ _ h => Spared.dmaStop h) (Spared.noteAttn s hmarked)))

theorem stopDevice_stopped : (stopDevice s).sys.stopped = true := by rw [(stopDevice_spares s).sys]; rfl

end

/-! ### The pause of R330 -/

/-- What pausing the Harvest keeps: that it is paused, the rails, and the control complex. -/
structure RailsKept (o s : State) : Prop where
  paused : s.dep.paused = o.dep.paused
  low : s.dep.voltageLow = o.dep.voltageLow
  rails : s.dep.rails = o.dep.rails
  sys : s.sys = o.sys

namespace RailsKept
variable {o s t : State}

theorem refl : RailsKept o o := ⟨rfl, rfl, rfl, rfl⟩

theorem upd (h : RailsKept o s) (hdep : t.dep = s.dep) (hsys : t.sys = s.sys) : RailsKept o t :=
  ⟨hdep ▸ h.paused, hdep ▸ h.low, hdep ▸ h.rails, hsys.trans h.sys⟩

theorem foldl {α : Type} {f : State → α → State} {l : List α} (hf : ∀ s a, RailsKept o s → RailsKept o (f s a)) (h : RailsKept o s) :
    RailsKept o (l.foldl f s) := by
  induction l generalizing s with
  | nil => exact h
  | cons a l ih => exact ih (hf s a h)

theorem raise {e part a0 a1} (h : RailsKept o s) : RailsKept o (Machine.raise e part a0 a1 s) := h.upd (raise_dep ..) (raise_sys ..)

theorem withholdBatch {p : Fin 8} {epoch ord : Nat} (h : RailsKept o s) : RailsKept o (Machine.withholdBatch p epoch ord s) := by
  unfold Machine.withholdBatch
  dsimp only
  split
  · exact h
  next b rest _ =>
    split
    · exact h
    · have hnoted {u : State} (hu : RailsKept o u) :
          RailsKept o { u with dep := { u.dep with outage := u.dep.outage ++ [p.val] } } := ⟨hu.paused, hu.low, hu.rails, hu.sys⟩
      have hmissing {u : State} (hu : RailsKept o u) : RailsKept o (missingPower p epoch b u) := hu.upd rfl rfl
      have hwithheld {u : State} (hu : RailsKept o u) : RailsKept o (setWithheld u) := by
        obtain ⟨_, _, _, he⟩ := noteAttn_frame u { u with hif := { u.hif with withheld := true } }
        rw [setWithheld, he]
        exact hu.upd rfl rfl
      have hbatch := hnoted (hmissing (hwithheld (u := bump (.depWithheld p) 1
        (setPart p ((partOf p s).onBatch epoch ord fun b => { b with withheld := true }) s)) (h.upd rfl rfl)))
      split
      · exact hbatch
      · exact raise (hbatch.upd rfl rfl)

theorem suspectChan {p : Fin 8} {ch : Nat} (h : RailsKept o s) : RailsKept o (Machine.suspectChan p ch s) := by
  unfold Machine.suspectChan
  split
  · exact h
  · exact h.upd rfl rfl

end RailsKept

/-- The state with the Harvest paused for its voltage. -/
def markPaused (s : State) : State := { s with dep := { s.dep with paused := true, voltageLow := true } }

theorem voltagePause_keeps (s : State) : RailsKept (markPaused s) (voltagePause s) :=
  RailsKept.foldl (fun _ _ h => h.suspectChan)
    (RailsKept.foldl (fun _ _ h => RailsKept.foldl (fun _ _ h => RailsKept.foldl (fun _ _ h => h.withholdBatch) h) h) RailsKept.refl)

/-! ### A sample of the rails -/

section
variable {rails : List Int} {s : State}

/-- The rails of a sample outside some bounds, with their numbers. -/
def outside (bounds : List (Int × Int)) (l : List Int) : List (Int × Nat) := l.zipIdx.filter fun r => railOut bounds r.2 r.1

/-- The rails outside their windows that were not so in the sample before, or all of them where no pause is on for it. -/
def newlyOut (rails : List Int) (s : State) : List (Int × Nat) :=
  (outside railWindow rails).filter fun r => !railOut railWindow r.2 (s.dep.rails.getD r.2 0) || !s.dep.voltageLow

/-- The sample noted, with the time where it is the first one back inside the windows (R330). -/
def railsNoted (rails : List Int) (s : State) : State :=
  { s with dep := { s.dep with
      rails := rails
      railsAt := if (s.dep.rails.zipIdx.any fun r => railOut railWindow r.2 r.1) && (outside railWindow rails).isEmpty then s.tick
        else s.dep.railsAt } }

/-- The sample noted, each rail newly out reported, and the Harvest paused where there is one. -/
def railsJudged (rails : List Int) (s : State) : State :=
  let t := (newlyOut rails s).foldl (fun t r => raise .sysVoltage none (r.2 + (unsignedOf 32 (r.1 / 10)) * 2 ^ 32) (timeWord t) t) (railsNoted rails s)
  if (newlyOut rails s).isEmpty then t else voltagePause t

theorem takeRails_eq : takeRails rails s = match (rails.zipIdx).find? fun r => railOut railLimit r.2 r.1 with
    | none => railsJudged rails s
    | some r => if (railsJudged rails s).sys.stopped then railsJudged rails s
      else stopDevice (raise .sysVoltageStop none (arg0 r.2 0 0) 0 (railsJudged rails s)) := rfl

theorem takeRails_within (h : outside railLimit rails = []) : takeRails rails s = railsJudged rails s := by
  have hnone : (rails.zipIdx.find? fun r => railOut railLimit r.2 r.1) = none :=
    List.find?_eq_none.mpr fun r hr hout => by simpa using List.filter_eq_nil_iff.mp h r hr hout
  rw [takeRails_eq, hnone]

theorem railsJudged_inside (h : outside railWindow rails = []) : railsJudged rails s = railsNoted rails s := by
  have hnone : newlyOut rails s = [] := by rw [newlyOut, h]; rfl
  rw [railsJudged, hnone]
  rfl

theorem wasOut_eq : (s.dep.rails.zipIdx.any fun r => railOut railWindow r.2 r.1) = !(outside railWindow s.dep.rails).isEmpty := by
  rw [Bool.eq_iff_iff]
  simp [outside, List.filter_eq_nil_iff]

theorem railsNoted_was_inside (h : outside railWindow s.dep.rails = []) :
    railsNoted rails s = { s with dep := { s.dep with rails := rails } } := by
  rw [railsNoted, wasOut_eq, h]
  rfl

theorem railsNoted_was_outside (h : outside railWindow s.dep.rails ≠ []) (hin : outside railWindow rails = []) :
    railsNoted rails s = { s with dep := { s.dep with rails := rails, railsAt := s.tick } } := by
  rw [railsNoted, wasOut_eq, if_pos (by simp [h, hin])]

theorem railsWarned_keeps (l : List (Int × Nat)) : RailsKept (railsNoted rails s)
    (l.foldl (fun t r => raise .sysVoltage none (r.2 + (unsignedOf 32 (r.1 / 10)) * 2 ^ 32) (timeWord t) t) (railsNoted rails s)) :=
  RailsKept.foldl (fun _ _ h => h.raise) RailsKept.refl

theorem railsJudged_rails : (railsJudged rails s).dep.rails = rails := by
  have hwarned := (railsWarned_keeps (rails := rails) (s := s) (newlyOut rails s)).rails
  unfold railsJudged
  dsimp only
  split
  · exact hwarned
  · exact (voltagePause_keeps _).rails.trans hwarned

/-- A rail out of its window pauses a device that is not paused for its voltage yet (R330). -/
theorem railsJudged_pauses (h : outside railWindow rails ≠ []) (hlow : s.dep.voltageLow = false) :
    (railsJudged rails s).dep.paused = true ∧ (railsJudged rails s).dep.voltageLow = true ∧ (railsJudged rails s).sys = s.sys := by
  have hnew : newlyOut rails s = outside railWindow rails := List.filter_eq_self.mpr fun r _ => by rw [hlow]; exact Bool.or_true _
  have hjudged : railsJudged rails s = voltagePause _ := if_neg (by rw [hnew, List.isEmpty_iff]; exact h)
  have hkept := voltagePause_keeps ((newlyOut rails s).foldl (fun t r =>
    raise .sysVoltage none (r.2 + (unsignedOf 32 (r.1 / 10)) * 2 ^ 32) (timeWord t) t) (railsNoted rails s))
  rw [hjudged]
  exact ⟨hkept.paused, hkept.low, hkept.sys.trans (railsWarned_keeps _).sys⟩

/-- A rail beyond its absolute maximum stops the device (R330). -/
theorem takeRails_beyond (h : outside railLimit rails ≠ []) :
    (takeRails rails s).sys.stopped = true ∧ (takeRails rails s).dep.rails = rails := by
  rw [takeRails_eq]
  split
  next hnone => exact absurd (List.filter_eq_nil_iff.mpr fun r hr => List.find?_eq_none.mp hnone r hr) h
  next r _ =>
    split
    next hstopped => exact ⟨hstopped, railsJudged_rails⟩
    next => exact ⟨stopDevice_stopped, by rw [(stopDevice_spares _).dep]; exact (congrArg Dep.rails (raise_dep ..)).trans railsJudged_rails⟩

end

section
variable {s : State}

/-- The pause may end: the rails have been back for 2 ms (R330). -/
def railsBack (s : State) : Prop :=
  s.dep.paused = true ∧ outside railWindow s.dep.rails = [] ∧ s.dep.railsAt + 800000 ≤ s.tick

theorem railsBack_iff : (s.dep.paused && !(s.dep.rails.zipIdx.any fun r => railOut railWindow r.2 r.1) && s.tick ≥ s.dep.railsAt + 800000) = true ↔
    railsBack s := by
  rw [wasOut_eq, Bool.not_not, Bool.and_eq_true, Bool.and_eq_true, List.isEmpty_iff, decide_eq_true_eq, and_assoc]
  rfl

theorem voltageRecovered_back (h : railsBack s) : voltageRecovered s = { s with dep := { s.dep with paused := false, voltageLow := false } } :=
  if_pos (railsBack_iff.mpr h)

theorem voltageRecovered_not (h : ¬railsBack s) : voltageRecovered s = s := if_neg fun hb => h (railsBack_iff.mp hb)

end

/-! ### Configuration scans and outage -/

section
variable {ms : List ConfigBlock} {s : State}

theorem configScan_stopped (h : s.sys.reeveRuns = false) : configScan ms s = s := if_pos (by rw [h]; rfl)

theorem configScan_clean (h : s.sys.reeveRuns = true) : configScan [] s = { s with dep := { s.dep with scanAt := timeWord s } } :=
  (if_neg (by rw [h]; decide)).trans (if_pos rfl)

theorem configScan_mismatches (h : s.sys.reeveRuns = true) (hms : ms ≠ []) : configScan ms s = ms.foldl (fun s b => scanMismatch b s) s :=
  (if_neg (by rw [h]; decide)).trans (if_neg (by rw [List.isEmpty_iff]; exact hms))

theorem maskOf_eq_sum (l : List (Fin 8)) (m : Nat) : l.foldl (fun m p => m + 2 ^ p.val) m = m + ((l.map Fin.val).map (2 ^ ·)).sum := by
  induction l generalizing m with
  | nil => rfl
  | cons p l ih => rw [List.foldl_cons, ih, List.map_cons, List.map_cons, List.sum_cons, Nat.add_assoc]

/-- The mask of some of the partitions, in rising order, has their bits. -/
theorem bitOf_mask {l : List (Fin 8)} (h : l.Sublist (List.finRange 8)) (p : Fin 8) :
    bitOf (l.foldl (fun m p => m + 2 ^ p.val) 0) p.val = true ↔ p ∈ l := by
  have hpairs : (l.map Fin.val).Pairwise (· < ·) := List.pairwise_map.mpr ((List.sortedLT_finRange 8).pairwise.sublist h)
  have hsorted : (l.map Fin.val).SortedLT := hpairs.sortedLT
  have hbits : (((l.map Fin.val).map (2 ^ ·)).sum).bitIndices = l.map Fin.val := Nat.bitIndices_sum_map_two_pow hsorted
  have hbit (x i : Nat) : bitOf x i = x.testBit i := by rw [Nat.testBit_eq_decide_div_mod_eq, bitOf, bitsOf, Nat.add_sub_cancel_left, pow_one]
  rw [maskOf_eq_sum, Nat.zero_add, hbit, ← Nat.mem_bitIndices, hbits, List.mem_map]
  exact ⟨fun ⟨q, hq, he⟩ => Fin.ext he ▸ hq, fun hp => ⟨p, hp, rfl⟩⟩

end

/-! ### The power warning -/

section
variable {s : State}

theorem pinsLive_iff : pinsLive s = true ↔ bootStage s = 3 ∨ bootStage s = 4 := by
  rw [pinsLive, Bool.or_eq_true, decide_eq_true_eq, decide_eq_true_eq]

theorem pwrWarnNow_ignored (h : ¬(bootStage s = 3 ∨ bootStage s = 4) ∨ s.sys.pwrWarned = true) : pwrWarnNow s = s := by
  refine if_pos ?_
  rcases h with h | h
  · rw [Bool.eq_false_iff.mpr fun hl => h (pinsLive_iff.mp hl)]; rfl
  · rw [h]; exact Bool.or_true _

/-- The device warned of the loss of power and stopped. -/
def warnedStop (s : State) : State := stopDevice (raise .pwrWarn none 0 0 s)

/-- The state with the warning taken. -/
def markWarned (s : State) : State := { s with sys := { s.sys with pwrWarned := true } }

/-- The event log and the outage put ahead of what the Ledger does (R336). -/
def logQueued (s : State) : State :=
  { s with led := { s.led with
      busy := .record (.eventLog s.led.events (getF fDepOutageTotalMs .depOutage s)) :: s.led.busy, events := [], oldestAt := none } }

theorem noteAttn_logQueued (old w : State) : let t := noteAttn old (logQueued w)
    t.led.busy = .record (.eventLog w.led.events (getF fDepOutageTotalMs .depOutage t)) :: w.led.busy ∧ t.led.events = [] ∧
      t.led.oldestAt = none ∧ t.sys = w.sys := by
  obtain ⟨_, _, _, hframe⟩ := noteAttn_frame old (logQueued w)
  have hout : getF fDepOutageTotalMs .depOutage (noteAttn old (logQueued w)) = getF fDepOutageTotalMs .depOutage w :=
    congrArg (fld fDepOutageTotalMs) (regOf_congr (noteAttn_regs old (logQueued w)))
  dsimp only
  rw [hout, hframe]
  exact ⟨rfl, rfl, rfl, rfl⟩

theorem pwrWarnNow_taken (hlive : bootStage s = 3 ∨ bootStage s = 4) (h : s.sys.pwrWarned = false) : pwrWarnNow s =
    if (warnedStop s).led.readOnly then markWarned (warnedStop s)
    else noteAttn (markWarned (warnedStop s)) (logQueued (markWarned (warnedStop s))) :=
  if_neg (by rw [pinsLive_iff.mpr hlive, h]; decide)

/-- What the warning leaves to the Ledger (R336): the entries not yet committed, the warning's own among them. -/
theorem warnedStop_events : s.led.events <+: (warnedStop s).led.events ∧ ∃ e ∈ (warnedStop s).led.events, e.id = Event.pwrWarn.id := by
  have hraised : (raise .pwrWarn none 0 0 s).led.events = s.led.events ++ [⟨Event.pwrWarn.id, none, 0, 0, timeWord s⟩] :=
    congrArg Ledger.events (raise_led ..)
  have hprefix : (raise .pwrWarn none 0 0 s).led.events <+: (warnedStop s).led.events := (stopDevice_spares _).events
  rw [hraised] at hprefix
  exact ⟨(List.prefix_append ..).trans hprefix, _, hprefix.subset (List.mem_append_right _ (List.mem_singleton.mpr rfl)), rfl⟩

theorem warnedStop_led : (warnedStop s).led.busy = s.led.busy ∧ (warnedStop s).led.readOnly = s.led.readOnly := by
  have hspared := stopDevice_spares (raise .pwrWarn none 0 0 s)
  have hraised : Spared s (raise .pwrWarn none 0 0 s) := Spared.refl.raise
  exact ⟨hspared.busy.trans hraised.busy, hspared.readOnly.trans hraised.readOnly⟩

theorem pwrWarnNow_stops (hlive : bootStage s = 3 ∨ bootStage s = 4) (hfirst : s.sys.pwrWarned = false) : let t := pwrWarnNow s
    t.sys.stopped = true ∧ t.sys.pwrWarned = true ∧
      (s.led.readOnly = false → ∃ events, t.led.busy = .record (.eventLog events (getF fDepOutageTotalMs .depOutage t)) :: s.led.busy ∧
        s.led.events <+: events ∧ (∃ e ∈ events, e.id = Event.pwrWarn.id) ∧ t.led.events = [] ∧ t.led.oldestAt = none) := by
  have hstopped : (warnedStop s).sys.stopped = true := stopDevice_stopped
  obtain ⟨hbusy, hread⟩ := warnedStop_led (s := s)
  rw [pwrWarnNow_taken hlive hfirst, hread]
  by_cases hro : s.led.readOnly = true
  · rw [if_pos hro]
    exact ⟨hstopped, rfl, fun h => absurd hro (by rw [h]; decide)⟩
  · obtain ⟨hprefix, hentry⟩ := warnedStop_events (s := s)
    obtain ⟨hqueued, hevents, holdest, hsys⟩ := noteAttn_logQueued (markWarned (warnedStop s)) (markWarned (warnedStop s))
    rw [if_neg hro]
    exact ⟨(congrArg Sys.stopped hsys).trans hstopped, congrArg Sys.pwrWarned hsys,
      fun _ => ⟨_, hqueued.trans (congrArg (List.cons _) hbusy), hprefix, hentry, hevents, holdest⟩⟩

end

/-- Settles O50: the rails by what their sample makes of the pause (railsJudged), the mask of an outage by its bits, and the warning by what a
stop spares. -/
theorem voltageScanOutage : Obligations.VoltageScanOutage := by
  unfold Obligations.VoltageScanOutage
  refine ⟨?_, ?_, ?_⟩
  · intro rails s hs hlen out beyond
    have hsample : Machine.exec (.voltageSample rails) s = .next (takeRails rails s) :=
      (if_neg (not_not_intro hlen)).trans (act_run (f := takeRails rails) hs)
    have hback : Machine.exec .voltageRecovered s = .next (voltageRecovered s) := act_run hs
    refine ⟨fun hin hlimit hwas => ?_, fun hin hlimit hwas => ?_, fun hout hlimit hlow => ?_, fun hlimit => ?_, fun hpaused hin hlong => ?_,
      fun hnot => ?_⟩
    · rw [hsample, takeRails_within hlimit, railsJudged_inside hin, railsNoted_was_inside hwas]
    · rw [hsample, takeRails_within hlimit, railsJudged_inside hin, railsNoted_was_outside hwas hin]
    · obtain ⟨hp, hl, hsys⟩ := railsJudged_pauses hout hlow
      exact ⟨_, hsample.trans (by rw [takeRails_within hlimit]), hp, hl, railsJudged_rails, hsys⟩
    · exact ⟨_, hsample, takeRails_beyond hlimit⟩
    · rw [hback, voltageRecovered_back ⟨hpaused, hin, hlong⟩]
    · rw [hback, voltageRecovered_not]
      rintro ⟨hpaused, hin, hlong⟩
      rcases hnot with h | h | h
      · rw [h] at hpaused
        exact Bool.false_ne_true hpaused
      · exact h hin
      · exact absurd hlong (Nat.not_le.mpr h)
  · intro ms s hs out total quiet
    have hscan (l : List ConfigBlock) : Machine.exec (.configScan l) s = .next (configScan l s) := act_run hs
    have htick : Machine.exec .outageTick s = .next (outageTick s) := act_run hs
    refine ⟨fun h => ?_, fun h => ?_, fun h hms => ?_, fun hnone => ?_, fun hsome => ?_, act_run hs⟩
    · rw [hscan, configScan_stopped h]
    · rw [hscan, configScan_clean h]
    · rw [hscan, configScan_mismatches h hms]
      rfl
    · have hmask : out.foldl (fun m p => m + 2 ^ p.val) 0 = 0 := by rw [hnone]; rfl
      exact htick.trans (congrArg _ (congrArg₂ (fun mask n => setF fDepOutageActive .depOutage mask (setF fDepOutageTotalMs .depOutage n quiet))
        hmask (if_pos hnone)))
    · refine ⟨out.foldl (fun m p => m + 2 ^ p.val) 0, htick.trans (congrArg _ ?_), bitOf_mask List.filter_sublist⟩
      exact congrArg (fun n => setF fDepOutageActive .depOutage _ (setF fDepOutageTotalMs .depOutage n quiet)) (if_neg hsome)
  · intro s hs
    have hwarn : Machine.exec .pwrWarn s = .next (pwrWarnNow s) := act_run hs
    refine ⟨fun h => ?_, fun hlive hfirst => ?_⟩
    · rw [hwarn, pwrWarnNow_ignored h]
    · exact ⟨_, hwarn, pwrWarnNow_stops hlive hfirst⟩

end Sys2Proof.Machine
end

section
/-!
SUPPORT. The thermal regime, its SHUTDOWN, and STANDBY.
-/
namespace Sys2Proof.Machine

/-! ### A sample and what it does -/

section
variable {sensors : List Int} {s : State}

theorem recalibrate_therm (s : State) : (recalibrate s).therm = s.therm := by
  unfold recalibrate tdcCalBegin
  split
  · split <;> rfl
  · rfl

/-- The samples of 115 °C or more in a row. -/
theorem hotRun_noted : (recalibrate (noteSample sensors s)).therm.hotRun =
    if (hottestSensor sensors).2 ≥ 115 * 16 then s.therm.hotRun + 1 else 0 := congrArg Therm.hotRun (recalibrate_therm _)

theorem thermSample_cool (h : (hottestSensor sensors).2 < 115 * 16 ∨ s.therm.hotRun = 0) :
    thermSample sensors s = thermEval (hottestSensor sensors).2 (recalibrate (noteSample sensors s)) := by
  refine if_neg ?_
  rw [hotRun_noted]
  rcases h with h | h
  · rw [if_neg (by omega)]
    decide
  · rw [h]
    split <;> decide

theorem thermSample_hot (ht : 115 * 16 ≤ (hottestSensor sensors).2) (h : 1 ≤ s.therm.hotRun) :
    thermSample sensors s = shutdown (hottestSensor sensors).2 (recalibrate (noteSample sensors s)) := by
  refine if_pos ?_
  rw [hotRun_noted, if_pos ht]
  omega

end

/-! ### SHUTDOWN -/

section
variable {t : Int} {s : State}

/-- STATE of a lane's register shows DOWN on all 68 lanes. -/
def lanesDark (s : State) : State :=
  (List.range 4).foldl (fun s n => setF fLaneBellStatusState (.laneBellStatus (Fin.ofNat 4 n)) 0 s)
    ((List.range 64).foldl (fun s n => setF fLaneStatusState (.laneStatus (Fin.ofNat 64 n)) 0 s) s)

/-- The device stopped, the Ledger at its end and the lanes down, as SHUTDOWN leaves them (R401, R402). -/
def shutdownDark (t : Int) (s : State) : State := lanesDark (ledgerShutdown (t ≥ 120 * 16) (stopDevice (raise .thermShutdown none 0 0 s)))

/-- HBM in power-down and the latch set (R401). -/
def latched (s : State) : State := { s with hbm := { s.hbm with powered := false }, sys := { s.sys with thermLatch := true } }

theorem shutdown_eq : shutdown t s = setTherm 3 (getF fSysThermStatusStep .sysThermStatus (shutdownDark t s)) (latched (shutdownDark t s)) := rfl

theorem lanesDark_inv {κ} (h : Kept κ s) : Kept κ (lanesDark s) :=
  Kept.foldl (fun _ _ h => setF_inv h) (Kept.foldl (fun _ _ h => setF_inv h) h)

theorem shutdownDark_inv {κ} (h : Kept κ s) : Kept κ (shutdownDark t s) :=
  lanesDark_inv (ledgerShutdown_inv (stopDevice_inv (raise_inv h)))

theorem latched_inv {κ} (h : Kept κ s) : Kept κ (latched s) := h.upd rfl rfl rfl

theorem setTherm_state {state step : Nat} (h : StateInv s) : getF fSysThermStatusState .sysThermStatus (setTherm state step s) = state % 4 := by
  rw [setTherm, getF, regOf_congr (noteAttn_regs ..), regOf_setF (setF_inv (Kept.self h)).inv,
    fld_setFld_other (by decide) (by decide) (by decide) (Or.inl (by decide))]
  exact getF_setF h (by decide) (by decide)

/-- Noting the Crier word's vector changes none of the partitions, HBM and the control complex. -/
theorem noteAttn_spares (old : State) : (noteAttn old s).parts = s.parts ∧ (noteAttn old s).hbm = s.hbm ∧ (noteAttn old s).sys = s.sys := by
  obtain ⟨_, _, _, h⟩ := noteAttn_frame old s
  rw [h]
  exact ⟨rfl, rfl, rfl⟩

theorem setTherm_spares {state step : Nat} : (setTherm state step s).parts = s.parts ∧ (setTherm state step s).hbm = s.hbm ∧
    (setTherm state step s).sys = s.sys := by
  unfold setTherm
  obtain ⟨hparts, hhbm, hsys⟩ := noteAttn_spares (s := setF fSysThermStatusStep .sysThermStatus step
    (setF fSysThermStatusState .sysThermStatus state s)) s
  rw [hparts, hhbm, hsys, setF_parts, setF_parts, setF_hbm, setF_hbm, setF_sys, setF_sys]
  exact ⟨rfl, rfl, rfl⟩

theorem ledgerShutdown_idle {hot : Bool} (h : s.led.busy = []) : ledgerShutdown hot s = s := by
  unfold ledgerShutdown
  rw [h]

theorem lanesDark_spares {o : State} (h : Spared o s) : Spared o (lanesDark s) :=
  Spared.foldl (fun _ _ h => h.setF) (Spared.foldl (fun _ _ h => h.setF) h)

/-- SHUTDOWN of a device whose Ledger is idle: stopped, with the partitions as they were. -/
theorem shutdownDark_idle (h : s.led.busy = []) : (shutdownDark t s).sys.stopped = true ∧ (shutdownDark t s).parts = s.parts := by
  have hraised : Spared s (raise .thermShutdown none 0 0 s) := Spared.refl.raise
  have hstop := stopDevice_spares (raise .thermShutdown none 0 0 s)
  have hidle : (stopDevice (raise .thermShutdown none 0 0 s)).led.busy = [] := hstop.busy.trans (hraised.busy.trans h)
  have hdark := lanesDark_spares hstop
  rw [shutdownDark, ledgerShutdown_idle hidle]
  exact ⟨congrArg Sys.stopped hdark.sys, hdark.parts.trans hraised.parts⟩

theorem latched_spares (s : State) : (latched s).sys.stopped = s.sys.stopped ∧ (latched s).parts = s.parts := ⟨rfl, rfl⟩

theorem shutdown_sys : (shutdown t s).sys = (latched (shutdownDark t s)).sys := by
  rw [shutdown_eq]
  exact setTherm_spares.2.2

theorem shutdown_held (h : StateInv s) : held (shutdown t s) = true := by
  have hstate : getF fSysThermStatusState .sysThermStatus (shutdown t s) = 3 := by
    rw [shutdown_eq]
    exact setTherm_state (latched_inv (shutdownDark_inv (t := t) (Kept.self h))).inv
  rw [held, hstate]
  exact Bool.or_true _

theorem shutdown_latches : (shutdown t s).sys.thermLatch = true ∧ (shutdown t s).hbm.powered = false := by
  have hhbm : (shutdown t s).hbm = (latched (shutdownDark t s)).hbm := by
    rw [shutdown_eq]
    exact setTherm_spares.2.1
  rw [shutdown_sys, hhbm]
  exact ⟨rfl, rfl⟩

/-- SHUTDOWN of a device whose Ledger is idle (R401). -/
theorem shutdown_idle (h : s.led.busy = []) : (shutdown t s).sys.stopped = true ∧ (shutdown t s).parts = s.parts := by
  have hparts : (shutdown t s).parts = (latched (shutdownDark t s)).parts := by
    rw [shutdown_eq]
    exact setTherm_spares.1
  obtain ⟨hstopped, hkept⟩ := shutdownDark_idle (t := t) h
  rw [shutdown_sys, hparts, (latched_spares _).1, (latched_spares _).2]
  exact ⟨hstopped, hkept⟩

end

/-! ### The changes of state -/

section
variable {t : Int} {s : State}

theorem thermEval_normal (h : getF fSysThermStatusState .sysThermStatus s = 0) : thermEval t s =
    if t ≥ 100 * 16 && changeFree s then raise .thermWarn none 0 0 (noteChange (setTherm 1 0 s)) else s :=
  if_pos h

theorem thermEval_warn (h : getF fSysThermStatusState .sysThermStatus s = 1) : thermEval t s =
    if !changeFree s then s
    else if t ≥ 105 * 16 then setStep 1 (noteChange s)
    else if heldLong s.therm.below97 s then raise .thermNormal none 0 0 (noteChange (setTherm 0 0 s))
    else s :=
  (if_neg (by rw [h]; decide)).trans (if_pos h)

theorem thermEval_throttle (h : getF fSysThermStatusState .sysThermStatus s = 2) : thermEval t s =
    let step := getF fSysThermStatusStep .sysThermStatus s
    if heldLong s.therm.above105 s then (if step < 3 then setStep (step + 1) s else s)
    else if heldLong s.therm.below102 s then
      if step > 1 then setStep (step - 1) s
      else if changeFree s then dmaResume (raise .thermWarn none 0 0 (noteChange (setTherm 1 0 (raise .thermThrottle none 0 0 s))))
      else s
    else s :=
  (if_neg (by rw [h]; decide)).trans (if_neg (by rw [h]; decide))

end

/-! ### STANDBY -/

/-- The partitions, the Granary, the scratch memory and time, which entering STANDBY keeps (Table 16-7). -/
structure MemoriesKept (o s : State) : Prop where
  parts : s.parts = o.parts
  granary : s.granary = o.granary
  scratch : s.scratch = o.scratch
  time : s.time = o.time

namespace MemoriesKept
variable {o s t : State}

theorem refl : MemoriesKept o o := ⟨rfl, rfl, rfl, rfl⟩

theorem upd (h : MemoriesKept o s) (hp : t.parts = s.parts) (hg : t.granary = s.granary) (hs : t.scratch = s.scratch) (ht : t.time = s.time) :
    MemoriesKept o t :=
  ⟨hp.trans h.parts, hg.trans h.granary, hs.trans h.scratch, ht.trans h.time⟩

theorem foldl {α : Type} {f : State → α → State} {l : List α} (hf : ∀ s a, MemoriesKept o s → MemoriesKept o (f s a))
    (h : MemoriesKept o s) : MemoriesKept o (l.foldl f s) := by
  induction l generalizing s with
  | nil => exact h
  | cons a l ih => exact ih (hf s a h)

theorem ite {p : Prop} [Decidable p] (hs : MemoriesKept o s) (ht : MemoriesKept o t) : MemoriesKept o (if p then s else t) := by
  split
  · exact hs
  · exact ht

theorem raise {e part a0 a1} (h : MemoriesKept o s) : MemoriesKept o (Machine.raise e part a0 a1 s) :=
  h.upd (raise_parts ..) (raise_granary ..) (raise_scratch ..) (raise_time ..)

theorem setReg {r : Reg} {v : Payload} (h : MemoriesKept o s) : MemoriesKept o (Machine.setReg r v s) := h.upd rfl rfl rfl rfl

theorem bellLaneStops {l : Nat} (h : MemoriesKept o s) : MemoriesKept o (Machine.bellLaneStops l s) := setReg (h.upd rfl rfl rfl rfl)

theorem laneEnter {n st : Nat} (h : MemoriesKept o s) : MemoriesKept o (Machine.laneEnter n st s) := by
  have hmoved : MemoriesKept o (laneMoved n st s) := ite (bellLaneStops (setReg h)) (setReg h)
  rw [laneEnter_eq]
  exact ite hmoved (ite (raise hmoved) (ite (raise hmoved) hmoved))

theorem enterStandby (h : MemoriesKept o s) : MemoriesKept o (Machine.enterStandby s) := by
  have hports : MemoriesKept o ((List.range 8).foldl (fun s g =>
      if gmode g s = 6 then (portLanes g s).foldl (fun s n => Machine.laneEnter n 0 s) s
      else if (portOf g s).ethUp then Machine.raise .laneDown none (arg0 (8 * g) g 0) 0 s else s) s) :=
    foldl (fun _ _ h => ite (foldl (fun _ _ h => laneEnter h) h) (ite (raise h) h)) h
  have hdark := foldl (l := List.range 64) (fun _ n h => setReg (r := .laneStatus (Fin.ofNat 64 n)) (v := 0) h) hports
  exact hdark.upd rfl rfl rfl rfl

end MemoriesKept

theorem sysPowerWrite_rule (v : Payload) (a : State) :
    (fld fSysPowerReq v = 1 → isIdle a = true → sysPowerWrite v a = setF fSysPowerReq .sysPower 1 (enterStandby a)) ∧
    (fld fSysPowerReq v = 1 → isIdle a = false → sysPowerWrite v a = a) ∧
    (fld fSysPowerReq v = 0 → a.sys.standby = true → sysPowerWrite v a = setF fSysPowerReq .sysPower 0
      { a with sys := { a.sys with standby := false, standbyByD3 := false, exiting := true } }) ∧
    (fld fSysPowerReq v = 0 → a.sys.standby = false → sysPowerWrite v a = a) := by
  have hleave (h : fld fSysPowerReq v = 0) : sysPowerWrite v a = leaveStandby a := if_neg (by rw [h]; decide)
  refine ⟨fun h hidle => ?_, fun h hbusy => ?_, fun h hstandby => ?_, fun h hawake => ?_⟩
  · exact (if_pos h).trans (if_pos hidle)
  · exact (if_pos h).trans (if_neg (ne_true_of_eq_false hbusy))
  · exact (hleave h).trans (if_pos hstandby)
  · exact (hleave h).trans (if_neg (ne_true_of_eq_false hawake))

/-- The changes of state below SHUTDOWN (Tables 16-5 and 16-6). -/
theorem thermEval_rule (t : Int) (s : State) :
    let st := getF fSysThermStatusState .sysThermStatus s
    let step := getF fSysThermStatusStep .sysThermStatus s
    (st = 0 → 100 * 16 ≤ t → changeFree s = true → thermEval t s = raise .thermWarn none 0 0 (noteChange (setTherm 1 0 s))) ∧
    (st = 1 → 105 * 16 ≤ t → changeFree s = true → thermEval t s = setStep 1 (noteChange s)) ∧
    (st = 1 → t < 105 * 16 → heldLong s.therm.below97 s = true → changeFree s = true →
      thermEval t s = raise .thermNormal none 0 0 (noteChange (setTherm 0 0 s))) ∧
    (st = 0 ∨ st = 1 → changeFree s = false → thermEval t s = s) ∧
    (st = 0 → t < 100 * 16 → thermEval t s = s) ∧
    (st = 1 → t < 105 * 16 → heldLong s.therm.below97 s = false → thermEval t s = s) ∧
    (st = 2 → heldLong s.therm.above105 s = false → heldLong s.therm.below102 s = false → thermEval t s = s) ∧
    (st = 2 → heldLong s.therm.above105 s = false → heldLong s.therm.below102 s = true → step ≤ 1 → thermEval t s =
      if changeFree s = true then dmaResume (raise .thermWarn none 0 0 (noteChange (setTherm 1 0 (raise .thermThrottle none 0 0 s)))) else s) ∧
    (st = 2 → heldLong s.therm.above105 s = true → step < 3 → thermEval t s = setStep (step + 1) s) ∧
    (st = 2 → heldLong s.therm.above105 s = true → 3 ≤ step → thermEval t s = s) ∧
    (st = 2 → heldLong s.therm.above105 s = false → heldLong s.therm.below102 s = true → 1 < step → thermEval t s = setStep (step - 1) s) := by
  refine ⟨fun hst hhot hfree => ?_, fun hst hhot hfree => ?_, fun hst hcool hlong hfree => ?_, fun hst hbound => ?_, fun hst hcool => ?_,
    fun hst hcool hshort => ?_, fun hst hup hdown => ?_, fun hst hup hdown hstep => ?_, fun hst hup hstep => ?_, fun hst hup hstep => ?_,
    fun hst hup hdown hstep => ?_⟩
  · rw [thermEval_normal hst, if_pos (Bool.and_eq_true_iff.mpr ⟨decide_eq_true hhot, hfree⟩)]
  · rw [thermEval_warn hst, hfree]
    exact if_pos hhot
  · rw [thermEval_warn hst, hfree]
    exact (if_neg hcool.not_ge).trans (if_pos hlong)
  · rcases hst with hst | hst
    · rw [thermEval_normal hst, hbound, Bool.and_false, if_neg Bool.false_ne_true]
    · rw [thermEval_warn hst, hbound, Bool.not_false, if_pos rfl]
  · rw [thermEval_normal hst, if_neg fun hb => hcool.not_ge (of_decide_eq_true (Bool.and_eq_true_iff.mp hb).1)]
  · rw [thermEval_warn hst, hshort, if_neg hcool.not_ge, if_neg Bool.false_ne_true, ite_self]
  all_goals rw [thermEval_throttle hst, hup]
  · rw [hdown]
    exact (if_neg Bool.false_ne_true).trans (if_neg Bool.false_ne_true)
  · rw [hdown]
    exact (if_neg Bool.false_ne_true).trans ((if_pos rfl).trans (if_neg hstep.not_gt))
  · exact (if_pos rfl).trans (if_pos hstep)
  · exact (if_pos rfl).trans (if_neg hstep.not_gt)
  · rw [hdown]
    exact (if_neg Bool.false_ne_true).trans ((if_pos rfl).trans (if_pos hstep))

/-- The thermal half of O53. -/
theorem thermalRegime (sensors : List Int) (s : State) (hs : Runs s) :
    let t := (hottestSensor sensors).2
    let seen := recalibrate (noteSample sensors s)
    (sensors.length = 24 → t < 115 * 16 ∨ s.therm.hotRun = 0 → Machine.exec (.thermSample sensors) s = .next (thermEval t seen)) ∧
    (sensors.length = 24 → 115 * 16 ≤ t → 1 ≤ s.therm.hotRun → Machine.exec (.thermSample sensors) s = .next (shutdown t seen)) ∧
    Machine.exec .thermDwellTimer s = .next (thermEval (hottestSensor s.therm.sensors).2 s) := by
  have hsample (hlen : sensors.length = 24) : Machine.exec (.thermSample sensors) s = .next (thermSample sensors s) :=
    (if_neg (not_not_intro hlen)).trans (act_run (f := thermSample sensors) hs)
  refine ⟨fun hlen hcool => ?_, fun hlen hhot hrun => ?_, ?_⟩
  · rw [hsample hlen, thermSample_cool hcool]
  · rw [hsample hlen, thermSample_hot hhot hrun]
  · exact act_run (f := fun s => thermEval (hottestSensor s.therm.sensors).2 s) hs

theorem enterStandby_standby (s : State) : (enterStandby s).sys.standby = true := rfl

/-- Settles O53: the changes by the thermal state, SHUTDOWN by what a stop spares, STANDBY by the write of REQ. -/
theorem thermalAndStandby : Obligations.ThermalAndStandby := by
  unfold Obligations.ThermalAndStandby
  constructor
  · intro sensors s hs hk t seen now st step
    obtain ⟨hcool, hhot, hdwell⟩ := thermalRegime sensors s hs
    exact ⟨hcool, hhot, ⟨shutdown_held hk, shutdown_latches.1, shutdown_latches.2, shutdown_idle⟩, hdwell, thermEval_rule now s⟩
  · intro m v s hs a writes
    have hwrite (hb : barred m s = false) : actBy m (sysPowerWrite v) s = .next (sysPowerWrite v a) := actBy_accepts ⟨hs, hb⟩
    have hwrites (c : Instr) (hc : Machine.exec c s = actBy m (sysPowerWrite v) s) : writes c := by
      intro hb
      obtain ⟨henter, hignored, hleave, hawake⟩ := sysPowerWrite_rule v a
      rw [hc, hwrite hb]
      exact ⟨fun h hi => congrArg _ (henter h hi), fun h hi => congrArg _ (hignored h hi), fun h hi => congrArg _ (hleave h hi),
        fun h hi => congrArg _ (hawake h hi)⟩
    have hexit : Machine.exec .standbyExitDone s = .next (standbyExitDone s) := act_run hs
    have hkept : MemoriesKept a (enterStandby a) := MemoriesKept.refl.enterStandby
    refine ⟨hwrites _ rfl, hwrites _ rfl, fun h => ?_, fun h => ?_, enterStandby_standby a, hkept.parts, hkept.granary, hkept.scratch, hkept.time⟩
    · exact hexit.trans (congrArg _ (if_neg (by rw [h]; decide)))
    · exact hexit.trans (congrArg _ (if_pos (by rw [h]; rfl)))

end Sys2Proof.Machine
end
